-- ==== Sys2Proof/Word.lean ====
section
/-! DEFINITION. The words of the machine (00_scope.md R7): widths, and the plainest arithmetic on them. The spec
numbers bits from the left, bit 0 the most significant; `Machine/Bits.lean` holds the spec's bit ranges. -/

namespace Sys2Proof

/-- A doubleword, the width of a general register (10_state.md R40). -/
abbrev Dword := BitVec 64

/-- A word, the width of an instruction (30_encoding.md R300). -/
abbrev Word := BitVec 32

/-- A byte, the smallest addressable unit (20_memory.md R140). -/
abbrev Byte := BitVec 8

end Sys2Proof
end

