-- ==== Sys2Proof/Machine/Bits.lean ====
section
/-! DEFINITION. The spec's bit ranges and field helpers (00_scope.md R7 to R17): bit 0 is the leftmost bit. -/

namespace Sys2Proof.Machine

/-- Bits {a..b} of x (R7). -/
def field {n : Nat} (x : BitVec n) (a b : Nat) : BitVec (b - a + 1) := x.extractLsb' (n - 1 - b) (b - a + 1)

/-- Bit {i} of x (R7). -/
def bitAt {n : Nat} (x : BitVec n) (i : Nat) : Bool := x.getMsbD i

/-- The mask with bit {i} of a doubleword set. -/
def bitMask (i : Nat) : Dword := (1 : Dword) <<< (63 - i)

/-- x with bit {i} set to v. -/
def withBit (x : Dword) (i : Nat) (v : Bool) : Dword := if v then x ||| bitMask i else x &&& ~~~(bitMask i)

/-- A truth value as a bit. -/
def bitOf (v : Bool) : BitVec 1 := if v then 1#1 else 0#1

/-- low_sign_ext: the rightmost bit of the field is its sign (R14, 30_encoding.md R326). -/
def lowSignExt {n : Nat} (x : BitVec n) : Dword :=
  let body := x >>> 1
  let signed := if x.getLsbD 0 then body ||| ((1 : BitVec n) <<< (n - 1)) else body
  signed.signExtend 64

/-- The upper 32 bits forced to zero, as an offset is when PSW[W] = 0 (20_memory.md R158). -/
def low32 (x : Dword) : Dword := x &&& 0xFFFFFFFF#64

end Sys2Proof.Machine
end

