-- ==== Sys2Proof/Config.lean ====
section
/-! DEFINITION. What an implementation fixes (00_scope.md R6) and the values the spec leaves free. A constant with
a value stands at the spec's own default (92_eei_decisions.md D1) unless its docstring says otherwise; an opaque
constant has no value anyone can compute or prove. -/

namespace Sys2Proof.Config

/-! ### The parameters of R6 -/

/-- SID_BITS: the width of the space registers, of the IASQ and IIASQ elements and of ISR (R6, 10_state.md R43). -/
def sidBits : Nat := 64

/-- The implemented bits of a space identifier; the others read as zero and ignore what is written (R43). -/
def sidMask : Dword := BitVec.allOnes 64 >>> (64 - sidBits)

/-- PA_BITS: the implemented physical address bits (R6, 20_memory.md R164). -/
def paBits : Nat := 64

/-- The physical address bits that a reference to the memory region does not ignore (R164 b). -/
def paMask : Dword := BitVec.allOnes 64 >>> (64 - paBits)

/-- PID_BITS: the width of a protection identifier with its write-disable bit (R6, 10_state.md R63). -/
def pidBits : Nat := 32

/-- The implemented bits of a register that holds two protection identifiers, each right-aligned in its word (R63). -/
def pidMask : Dword :=
  let word : BitVec 32 := BitVec.allOnes 32 >>> (32 - pidBits)
  word ++ word

/-- HAS_PSW_E: PSW[E] is implemented; if it is not, the bit is reserved (R6, 10_state.md R53). -/
def hasPswE : Bool := true

/-- HAS_PSW_F: PSW[F] is implemented, as it is with the performance monitor. Departs from R6's default with HAS_PERFMON.
DESIGN CHOICE, log entry 6. -/
def hasPswF : Bool := true

/-- HAS_FPU: coprocessors 0 and 1 are present (R6). -/
def hasFpu : Bool := true

/-- HAS_PERFMON: coprocessor 2 is present. Departs from R6's default. DESIGN CHOICE, log entry 6. -/
def hasPerfmon : Bool := true

/-- HAS_CACHE: no cache is modelled (R6); only LCI's result is given for the other value too (R722). -/
def hasCache : Bool := false

/-- CACHE_SPLIT, of a cache if one is modelled (R6); the model has none. -/
def cacheSplit : Bool := true

/-- LINE_BYTES, of a cache if one is modelled (R6); the model has none. -/
def lineBytes : Nat := 64

/-- TLB_SPLIT: the instruction and the data TLB are two (R6), `State.itlb` and `State.dtlb`. -/
def tlbSplit : Bool := true

/-- TLB_SLOTS: unbounded (R6); what hardware removes on its own is `State.removals`. -/
def tlbSlots : Option Nat := none

/-- HW_TLB_MISS: no hardware miss handler (R6, 21_translation.md R272); a miss is taken as the interruption. -/
def hwTlbMiss : Bool := false

/-- PREFETCH_DEPTH: no instruction is prefetched (R6, 10_state.md R97); the model fetches the current one only. -/
def prefetchDepth : Nat := 0

/-- SPACE_BITS_IN_CACHE_INDEX (R6, 21_translation.md R281); no cache, so no index. -/
def spaceBitsInCacheIndex : Bool := false

/-- N_PROCESSORS: the model is of one processor (R6, 60_exceptions.md R1060). -/
def nProcessors : Nat := 1

/-- FP_UNIMPLEMENTED: the operations, by their word and their operands, that the hardware hands to software beyond the mandatory
cases and the quads: none (R6, 51_fp_exceptions.md R947, D36). -/
def fpUnimplemented (_word : BitVec 32) (_operands : List Nat) : Bool := false

/-- FP_MULTIOP_DECOMPOSE: the multiple operations report a trapping exception as unimplemented (R6, 51_fp_exceptions.md R935,
D34); the instruction patterns of the other way are not given (91_not_in_source.md N53). -/
def fpMultiopDecompose : Bool := false

/-- DIAG_EFFECT: DIAG at privilege level 0 is refused (R6, 46_system_control.md R653, D16); with the value false it would have no
effect. -/
def diagRefused : Bool := true

/-- TIMER_RATE: interval timer counts per executed or nullified instruction (R6, R1055). -/
def timerRate : Dword := 1

/-- BTS_DEPTH at reset; the length of `State.bts` is the depth (R6, R100, D9). -/
def btsDepth : Nat := 0

/-- START_ADDRESS (70_reset_and_hazards.md R1101 leaves it open). DESIGN CHOICE, log entry 2. -/
def startAddress : Dword := 0

/-- DEFAULT_WIDTH at reset (R6, 10_state.md R96). -/
def defaultWidth : Bool := false

/-- DEFAULT_ENDIAN at reset (R6, R96). -/
def defaultEndian : Bool := false

/-- PDC_MAP, the processor-specific bits of a PDC-space address with PSW[W] = 1 (20_memory.md R168, D6). -/
def pdcMapWide : BitVec 2 := 0

/-- PDC_MAP with PSW[W] = 0 (R168, D6). -/
def pdcMapNarrow : BitVec 32 := 0

/-- COPR_PRESENT: the units that HAS_FPU and HAS_PERFMON name and no other (R6). DESIGN CHOICE, log entry 6. -/
def coprocessorsPresent : BitVec 8 := (if hasFpu then 0b11000000 else 0) ||| (if hasPerfmon then 0b00100000 else 0)

/-- SFU_PRESENT: none (R6). -/
def sfusPresent : BitVec 8 := 0

/-- FIC_USES_DTLB (47_cache_tlb.md R713, D21). -/
def ficUsesDtlb : Bool := true

/-- PDC_PURGES (R715, D22). -/
def pdcPurges : Bool := false

/-- CACHE_INSTR_NULL: do cache instructions execute as null instructions (R700)? -/
def cacheInstrNull : Bool := false

/-- LDC_GR0_IS_PREFETCH (40_memory_reference.md R432). -/
def ldcGr0IsPrefetch : Bool := false

/-- COHERENT_IO departs from the default false, so that LCI has an effect (R722, D23). DESIGN CHOICE, log entry 7. -/
def coherentIo : Bool := true

/-- FP_QUAD_IMPLEMENTED (51_fp_exceptions.md R947, D36). -/
def fpQuadImplemented : Bool := false

/-- FP_ALWAYS_TRAP_OVERFLOW (R931, D32). -/
def fpAlwaysTrapOverflow : Bool := false

/-- FP_ALWAYS_TRAP_UNDERFLOW (R931, D32). -/
def fpAlwaysTrapUnderflow : Bool := false

/-- FP_FLAG_ON_TRAP: does a trapping exception also set its flag (D28)? -/
def fpFlagOnTrap : Bool := false

/-- FP_QUIET_SETS_B2: does quieting a signaling NaN set the second fraction bit (49_floating_point.md R824, D30)? -/
def fpQuietSetsB2 : Bool := false

/-- FP_RESERVED_OP_IS_UNIMPLEMENTED (R946, D35). -/
def fpReservedOpIsUnimplemented : Bool := false

/-- FP_D_BIT, the optional flush-to-zero bit of the Status Register (R829, D29). -/
def fpDBit : Bool := false

/-- The n-th undefined value of a run (93_implementation_defined.md section 3, "any value"). Free, log entry 5. -/
opaque freeBits : Nat → Dword

/-- FP_MODEL, the model number FID returns (50_fp_instructions.md R880); model 0 is reserved. -/
opaque fpModel : BitVec 6

/-- FP_REVISION, the revision number FID returns (R880). -/
opaque fpRevision : BitVec 5

/-- IO_EIR_ADDRESS, the physical address of the IO_EIR register (60_exceptions.md R1058). -/
opaque ioEirAddress : Dword

/-- The coherence index LCI loads, a function of the virtual page (47_cache_tlb.md R722). -/
opaque coherenceIndex : Dword → Dword → Dword

/-- The data TLB entries PDTLBE removes: a function of the space and offset it names and of the entry's address,
and nothing else (21_translation.md R270, `DTLB_purge_entries`). -/
opaque dtlbPurgeSelects : Dword → Dword → BitVec 96 → Bool

/-- The same for PITLBE and the instruction TLB (R270). -/
opaque itlbPurgeSelects : Dword → Dword → BitVec 96 → Bool

/-! ### Assist units the spec leaves undefined (48_assist_sfu_copr.md R750: "a parameter of the model indexed by the
unit identifier"). Their answers are functions of everything the unit is given and of its own state. -/

/-- What a special function unit is given: the operation class 0 to 3, the unit, the opcode fields, the privilege level,
the operands, and the unit's state (R750, R753). -/
structure SfuCall where
  form : Nat
  unit : BitVec 3
  opcode : Nat
  priv : BitVec 2
  a : BitVec 64
  b : BitVec 64
  token : Nat
deriving DecidableEq, Repr

/-- The unit's state after the operation. -/
opaque sfuNext : SfuCall → Nat
/-- The result of `sfu_operation1`. -/
opaque sfuResult : SfuCall → Dword
/-- The condition of the operation. -/
opaque sfuCondition : SfuCall → Bool
/-- Does the unit report an exception? -/
opaque sfuException : SfuCall → Bool

/-- What a coprocessor is given for `coprocessor_op`: the unit, the operation, n, the privilege level and its registers, which are all its
state (R750, R755); `fitted` is which coprocessor it is. -/
structure CoprCall where
  unit : BitVec 3
  sop : BitVec 22
  n : BitVec 1
  priv : BitVec 2
  registers : Vector (BitVec 64) 32
  fitted : Nat
deriving DecidableEq, Repr

/-- Its registers after the operation. -/
opaque coprRegisters : CoprCall → Vector Dword 32
/-- The condition of the operation. -/
opaque coprCondition : CoprCall → Bool
/-- Does the coprocessor report an exception? -/
opaque coprException : CoprCall → Bool
/-- The identification number of coprocessors 4 to 7 (R765). -/
opaque coprIdentification : BitVec 3 → Dword

/-- What a coprocessor is given at a load or store: the unit, the register field, whether it is a store, whether it is a
doubleword, the register's value, and all its registers (R750 `send_to_copr`, R755, R767); `fitted` is which coprocessor it is. -/
structure CoprTransfer where
  unit : BitVec 3
  register : BitVec 5
  store : Bool
  double : Bool
  value : BitVec 64
  registers : Vector (BitVec 64) 32
  fitted : Nat
deriving DecidableEq, Repr

/-- Does the coprocessor report an exception at a load or store (R767)? -/
opaque coprTransferException : CoprTransfer → Bool
/-- The register after a word load of the second argument (R767: the coprocessor's business). -/
opaque coprLoadWord : CoprTransfer → BitVec 32 → Dword
/-- The word a word store takes from the register. -/
opaque coprStoreWord : CoprTransfer → BitVec 32

end Sys2Proof.Config
end

