-- ==== Sys2Proof/Machine/Memory.lean ====
section
/-! DEFINITION. Memory: the physical address space as a list of (address, byte) pairs in one canonical form, and the
byte order of wider accesses (20_memory.md R140 to R148). -/

namespace Sys2Proof.Machine

/-- Memory as listed bytes, addresses strictly rising, none listed that reads as `unlistedByte` does anyway. -/
abbrev Memory := List Host.Cell

/-- What a byte that nothing has written reads as. DESIGN CHOICE (unsafe), log entry 3: the spec states no memory
contents at reset (10_state.md R85). -/
def unlistedByte (_a : Nat) : Byte := 0

/-- The byte at physical address `a`. -/
def Memory.get (m : Memory) (a : Nat) : Byte :=
  match m with
  | [] => unlistedByte a
  | (b, v) :: t => if a = b then v else Memory.get t a

/-- Memory with the byte at `a` set to `v`, in the canonical form. -/
def Memory.set (m : Memory) (a : Nat) (v : Byte) : Memory :=
  match m with
  | [] => if v = unlistedByte a then [] else [(a, v)]
  | (b, u) :: t =>
    if a < b then (if v = unlistedByte a then (b, u) :: t else (a, v) :: (b, u) :: t)
    else if a = b then (if v = unlistedByte a then t else (a, v) :: t)
    else (b, u) :: Memory.set t a v

/-- Every address of `m` is above `lo`, the addresses rise strictly, and no entry is superfluous. -/
def Memory.wfFrom (lo : Option Nat) (m : Memory) : Bool :=
  match m with
  | [] => true
  | (a, v) :: t => (match lo with | none => true | some l => decide (l < a)) && decide (v ≠ unlistedByte a) && Memory.wfFrom (some a) t

/-- The canonical form holds. -/
def Memory.wf (m : Memory) : Bool := Memory.wfFrom none m

/-- The `n` bytes from physical address `a` upward, lowest address first. -/
def Memory.bytes (m : Memory) (a n : Nat) : List Byte := (List.range n).map (fun k => m.get (a + k))

/-- Bytes stored one after the other from physical address `a` upward. -/
def Memory.setBytes (m : Memory) (a : Nat) (bs : List Byte) : Memory :=
  match bs with
  | [] => m
  | b :: t => Memory.setBytes (m.set a b) (a + 1) t

/-- The number whose bytes, most significant first, are `bs` (R141). -/
def ofBytes (bs : List Byte) : Nat := bs.foldl (fun acc b => acc * 256 + b.toNat) 0

/-- The `n` low-order bytes of `v`, most significant first (R141). -/
def toBytes (n v : Nat) : List Byte := (List.range n).map (fun k => BitVec.ofNat 8 (v >>> (8 * (n - 1 - k))))

/-- The byte swap of an access with PSW[E] = 1 (R143). -/
def swapIf (little : Bool) (bs : List Byte) : List Byte := if little then bs.reverse else bs

/-- An `n`-byte load from physical address `a`, right-aligned in a doubleword (R143). -/
def Memory.load (m : Memory) (little : Bool) (a n : Nat) : Dword := BitVec.ofNat 64 (ofBytes (swapIf little (m.bytes a n)))

/-- An `n`-byte store of the rightmost bytes of `v` at physical address `a` (R143). -/
def Memory.store (m : Memory) (little : Bool) (a n : Nat) (v : Dword) : Memory :=
  m.setBytes a (swapIf little (toBytes n v.toNat))

end Sys2Proof.Machine
end

