-- ==== Sys2Proof/Machine/State.lean ====
section
/-! DEFINITION. The machine's state as plain data, the reasons a step can stop, and the state after reset. Each
field's docstring names the rule of spec/ that gives it; INVENTORY.md lists them with their reset values. -/

namespace Sys2Proof.Machine

/-- Why the machine stops where the spec gives no device behind an address (20_memory.md R165, R166, D43). -/
inductive Fault where
  /-- Raised by every load, store and fetch whose physical address lies in the I/O region (but the store to IO_EIR):
  the spec gives no device there. Safe: the model stops where a platform would answer. -/
  | ioSpace
  /-- Raised by every load, store and fetch whose physical address lies in the PDC region: the spec names it and says
  nothing of its contents (R165, R168). Safe. -/
  | pdcSpace
deriving DecidableEq, Repr

/-- Undefined operations of the spec (93_implementation_defined.md section 2, D44), one name each. All are safe: the
model stops where the hardware may do anything within the bound of 30_encoding.md R370. -/
inductive Refusal where
  /-- An arm of `exec` without a meaning yet; raised only there. Safe. -/
  | notModelled (mnemonic : String)
  /-- MFCTL or MTCTL naming CR 1 to 7 (10_state.md R60). Safe. -/
  | reservedControlRegister
  /-- MTCTL to CR 19 (R74). Safe. -/
  | writeOfIir
  /-- SSM or MTSM setting PSW[Q] from 0 to 1 (R50). Safe. -/
  | settingQ
  /-- MTCTL to CR 0 with PSW[R] = 1 (R62). Safe. -/
  | recoveryCounterRunning
  /-- MTCTL to CR 17, 18, 20, 21, 22 or MFCTL of CR 17, 18 with PSW[Q] = 1 (R73, R75, R76). Safe. -/
  | interruptionRegisterLive
  /-- MFCTL,W of a register other than CR 11 (46_system_control.md R659, D17). Safe. -/
  | wideMoveNotSar
  /-- MTCTL to CR 10 setting the bit of a unit that is not present (R64, R65). Safe. -/
  | absentUnit
  /-- A floating-point instruction with CCR bits 0 and 1 different (48_assist_sfu_copr.md R756). Safe. -/
  | mixedFpEnable
  /-- COPR with uid 1 and the floating-point coprocessor enabled (R756). Safe. -/
  | coprUnitOne
  /-- RFI with PSW[Q], [I] or [R] = 1, or with PSW[L] = 1 to a privilege level other than 0 (46_system_control.md R665 a, b). Safe. -/
  | returnNotAllowed
  /-- IDTLBT or IITLBT with PSW[Q] = 1 (47_cache_tlb.md R720, R721, D19). Safe. -/
  | insertWithQ
  /-- An insert or purge with a page size code 8 to 15 (21_translation.md R245). Safe. -/
  | reservedPageSize
  /-- An unaligned absolute access (20_memory.md R146 b). Safe. -/
  | unalignedAbsolute
  /-- LDCW or LDCD at an address that is not a multiple of 16 (R146 c). Safe. -/
  | unalignedSemaphore
  /-- LDCW or LDCD in I/O space or on a page with U = 1 (R166 a). Safe. -/
  | uncacheableSemaphore
  /-- LDCW or LDCD of a semaphore that was used with another cache control hint (R210 e, D44). Safe. -/
  | mixedSemaphoreHints
  /-- A reference to an I/O-space page whose U bit is 0 (R166 e). Safe. -/
  | cacheableIoPage
  /-- An explicit space register with PSW[W] = 1 above privilege level 0 (R157). Safe. -/
  | explicitSpace
  /-- An extract or deposit field that runs off the left end (44_shift_extract_deposit.md R601, D12). Safe. -/
  | fieldOffEnd
  /-- PERMH with two different source register fields (45_multimedia.md R631, D14). Safe. -/
  | permhRegisters
  /-- DIAG at privilege level 0 (46_system_control.md R653, D16). Safe. -/
  | diagnose
  /-- LCI without coherent I/O (47_cache_tlb.md R722, D23). Safe. -/
  | noCoherentIo
  /-- MTCTL writing a one to a reserved bit of its register (00_scope.md R19, D44). Safe. -/
  | reservedBits
  /-- RFI to IA queues that no interruption could have saved (46_system_control.md R665 g). Safe. -/
  | inconsistentQueues
  /-- Sequential advance or a branch past the end of a space (20_memory.md R159). Safe. -/
  | endOfSpace
  /-- A floating-point operation naming register 0 to 3 as destination or 1 to 3 as source (49_floating_point.md R805, R807). Safe. -/
  | fpRegister
  /-- An odd register for a quad operand (10_state.md R81). Safe. -/
  | fpOddQuad
  /-- A sixth specifier bit on a doubleword operand (D27). Safe. -/
  | fpExtensionBit
  /-- A single-word load or store of 0R or 1L to 3R (R82). Safe. -/
  | fpExceptionWord
  /-- A single-word load of 0L with T = 1 in the value (50_fp_instructions.md R871). Safe. -/
  | fpLoadOfTrapBit
  /-- A floating-point operation with T = 0 and an exception field not zero (51_fp_exceptions.md R936). Safe. -/
  | fpPendingField
  /-- A test of a compare result that a compare of the other kind has replaced: queued and targeted compares and tests mixed
  (50_fp_instructions.md R898, D44). Safe. -/
  | fpMixedTest
  /-- FID not between doubleword stores of register 0 (R880, D44). Safe. -/
  | fpIdentifyAlone
  /-- FMPYADD or FMPYSUB with overlapping registers, or a register field 0 of either format (49_floating_point.md R847, R848; 93_implementation_defined.md section 2,
  D44; log entry 57). Safe. -/
  | fpMultiOperands
deriving DecidableEq, Repr

/-- One translation (21_translation.md R240). -/
structure TlbEntry where
  /-- VIRTUAL_ADDR: the 96-bit global virtual address it was inserted with; the page-offset bits are not compared. -/
  gva : BitVec 96
  /-- PHY_PAGE_NO. -/
  ppn : BitVec 52
  /-- PAGE_SIZE, code 0 to 7 (R245). -/
  size : BitVec 4
  /-- ACCESS_RIGHTS: type, PL1, PL2 (R250). -/
  rights : BitVec 7
  /-- ACCESS_ID (R260). -/
  accessId : BitVec 31
  /-- T, page reference trap (R241). -/
  t : Bool
  /-- D, dirty. -/
  d : Bool
  /-- B, break. -/
  b : Bool
  /-- U, uncacheable. -/
  u : Bool
  /-- O, ordered. -/
  o : Bool
  /-- P, prediction method. -/
  p : Bool
deriving DecidableEq, Repr

/-- An entry that the hardware removes from a TLB on its own: which TLB, and an address on the page (10_state.md R90). -/
structure Removal where
  /-- From the instruction TLB, else from the data TLB. -/
  instruction : Bool
  gva : BitVec 96
deriving DecidableEq, Repr

/-- The translations that software may rely on, and what may come to be one (21_translation.md R275; 70_reset_and_hazards.md R1116). -/
structure Relied where
  /-- A global virtual address whose data translation stays in the data TLB, since a trap named it (R275 1). -/
  data : Option (BitVec 96)
  /-- One whose translation stays in the instruction TLB, since an RSM or MTSM fetched through it cleared PSW[Q] (R275 2). -/
  code : Option (BitVec 96)
  /-- How many instructions have come since a system mask instruction, nullified ones among them, none a memory management instruction or a
  virtual data reference and all on one page, and the address of the last of them (R275 2). -/
  between : Option (Nat × BitVec 96)
  /-- The last instruction was a system mask instruction that left PSW[Q] alone. -/
  mask : Bool
deriving DecidableEq, Repr

/-- No translation is relied upon. -/
def Relied.nothing : Relied := ⟨none, none, none, false⟩

/-- Where the floating-point instructions stand with FID, which must stand between doubleword stores of register 0
(50_fp_instructions.md R880). -/
inductive FpSequence where
  /-- The last one was a doubleword store of register 0, or a doubleword load of it, the end of a restore (R880, 51_fp_exceptions.md
  R962; log entry 44). -/
  | stored
  /-- The last one was FID. -/
  | identified
  /-- The last one was another. -/
  | other
deriving DecidableEq, Repr

/-- The state of the machine. -/
structure State where
  /-- General registers; entry 0 is never read (10_state.md R40, R41). -/
  gr : Vector Dword 32
  /-- Space registers (R43). -/
  sr : Vector Dword 8
  /-- Shadow registers (R80). -/
  shr : Vector Dword 7
  /-- IAOQ_Front: offset of the current instruction, privilege level in its two low bits (R46, R47). -/
  iaoqFront : Dword
  /-- IAOQ_Back (R46). -/
  iaoqBack : Dword
  /-- IASQ_Front (R46). -/
  iasqFront : Dword
  /-- IASQ_Back (R46). -/
  iasqBack : Dword
  /-- Processor Status Word (R49). -/
  psw : Dword
  /-- CR 0, recovery counter (R62). -/
  rctr : BitVec 32
  /-- CR 8, protection IDs 1 and 2 (R63). -/
  pid12 : Dword
  /-- CR 9, protection IDs 3 and 4 (R63). -/
  pid34 : Dword
  /-- CR 12, protection IDs 5 and 6 (R63). -/
  pid56 : Dword
  /-- CR 13, protection IDs 7 and 8 (R63). -/
  pid78 : Dword
  /-- SFU configuration register, CR 10 bits 48 to 55 (R65). -/
  scr : BitVec 8
  /-- Coprocessor configuration register, CR 10 bits 56 to 63 (R64). -/
  ccr : BitVec 8
  /-- CR 11, shift amount register (R66). -/
  sar : BitVec 6
  /-- CR 14, interruption vector address (R67). -/
  iva : Dword
  /-- CR 15, external interrupt enable mask (R68). -/
  eiem : Dword
  /-- CR 16, the interval timer's counter (R69). -/
  itmr : Dword
  /-- CR 16, the interval timer's comparison register (R69, R92). -/
  itmrCompare : BitVec 32
  /-- CR 17, front (R70). -/
  iiasqFront : Dword
  /-- CR 17, back (R70). -/
  iiasqBack : Dword
  /-- CR 18, front (R70). -/
  iiaoqFront : Dword
  /-- CR 18, back (R70). -/
  iiaoqBack : Dword
  /-- CR 19, interruption instruction register (R74). -/
  iir : BitVec 32
  /-- CR 20, interruption space register (R75). -/
  isr : Dword
  /-- CR 21, interruption offset register (R75). -/
  ior : Dword
  /-- CR 22, interruption processor status word (R76). -/
  ipsw : Dword
  /-- CR 23, external interrupt request register (R77). -/
  eirr : Dword
  /-- CR 24 to 31, temporary registers (R78). -/
  tr : Vector Dword 8
  /-- Floating-point registers; 0 holds the Status Register and exception register 1, 1 to 3 the others (R81, R82). -/
  fpr : Vector Dword 32
  /-- Instruction TLB (21_translation.md R230, R242). -/
  itlb : List TlbEntry
  /-- Data TLB (R230, R242). -/
  dtlb : List TlbEntry
  /-- Default width bit (10_state.md R96). -/
  defaultWidth : Bool
  /-- Default endian bit (R96). -/
  defaultEndian : Bool
  /-- A high-priority machine check is pending (R93). -/
  hpmcPending : Bool
  /-- A power failure interrupt is pending (R93). -/
  powerFailPending : Bool
  /-- A low-priority machine check is pending (R93). -/
  lpmcPending : Bool
  /-- A performance monitor interrupt is pending (R93). -/
  perfMonPending : Bool
  /-- measurement_enabled of the performance monitor (48_assist_sfu_copr.md R770). -/
  measurementEnabled : Bool
  /-- Branch target stack, top first: 62-bit address, valid bit last; the length is BTS_DEPTH (10_state.md R100). -/
  bts : List (BitVec 63)
  /-- Branch nomination register (R102). -/
  bnr : BitVec 63
  /-- The internal state of each special function unit, one number the unit functions read and write (R83, R753); 0 is a state
  with no exception to report (log entry 9). -/
  sfu : Vector Nat 8
  /-- MODEL'S OWN: which coprocessor is fitted as each unit, a number the opaque functions of Config are given; number 0 is one that reports
  no exception. No instruction changes it, since a coprocessor's state is its registers (R755). Log entry 9. -/
  copr : Vector Nat 8
  /-- CPR: the 32 registers of each coprocessor (48_assist_sfu_copr.md R750); those of units 0 and 1 are `fpr`. -/
  cpr : Vector (Vector Dword 32) 8
  /-- Physical memory (20_memory.md R85, R140). -/
  mem : Memory
  /-- MODEL'S OWN: the word of the instruction being executed, what IIR and the floating-point exception registers
  record (R74; 51_fp_exceptions.md R934). Log entry 4. -/
  iword : BitVec 32
  /-- MODEL'S OWN: how many free values the run has drawn (93_implementation_defined.md section 3). Log entry 5. -/
  freeCount : Nat
  /-- MODEL'S OWN: the TLB entries the hardware will remove on its own, those of the next step first ("hardware may remove any entry at
  any time", R90); an input of the machine. Log entry 33. -/
  removals : List (List Removal)
  /-- MODEL'S OWN: the translations that no such removal takes (R275). Log entry 62. -/
  relied : Relied
  /-- MODEL'S OWN: the physical addresses used as semaphores, each with the cache control hint of its first use (20_memory.md R210 e). Log entry
  58. -/
  semaphores : List (Nat × BitVec 2)
  /-- MODEL'S OWN: how many entries of C followed by CQ no targeted compare has replaced since (50_fp_instructions.md R898). Log entry 44. -/
  fpQueue : Nat
  /-- MODEL'S OWN: the entries of CA, CA{0} leftmost, that no queued compare has replaced since (R898). Log entry 44. -/
  fpArray : BitVec 7
  /-- MODEL'S OWN: where the floating-point instructions stand with FID (R880). Log entry 44. -/
  fpSequence : FpSequence
deriving DecidableEq, Repr

/-- The start state of 70_reset_and_hazards.md R1101: absolute addressing at privilege level 0 with everything masked;
every value the table leaves unspecified is 0 (DESIGN CHOICE, log entries 1 and 2), a special function unit's internal state and a coprocessor's number 1 (log entry 9). -/
def State.reset : State where
  gr := Vector.replicate 32 0
  sr := Vector.replicate 8 0
  shr := Vector.replicate 7 0
  iaoqFront := Config.startAddress
  iaoqBack := Config.startAddress + 4
  iasqFront := 0
  iasqBack := 0
  psw := (if Config.defaultWidth then (1 : Dword) <<< 27 else 0) ||| (if Config.defaultEndian then (1 : Dword) <<< 26 else 0)
  rctr := 0
  pid12 := 0
  pid34 := 0
  pid56 := 0
  pid78 := 0
  scr := 0
  ccr := 0
  sar := 0
  iva := 0
  eiem := 0
  itmr := 0
  itmrCompare := 0
  iiasqFront := 0
  iiasqBack := 0
  iiaoqFront := 0
  iiaoqBack := 0
  iir := 0
  isr := 0
  ior := 0
  ipsw := 0
  eirr := 0
  tr := Vector.replicate 8 0
  fpr := Vector.replicate 32 0
  itlb := []
  dtlb := []
  defaultWidth := Config.defaultWidth
  defaultEndian := Config.defaultEndian
  hpmcPending := false
  powerFailPending := false
  lpmcPending := false
  perfMonPending := false
  measurementEnabled := false
  bts := List.replicate Config.btsDepth 0
  bnr := 0
  sfu := Vector.replicate 8 1
  copr := Vector.replicate 8 1
  cpr := Vector.replicate 8 (Vector.replicate 32 0)
  mem := []
  iword := 0
  freeCount := 0
  removals := []
  relied := Relied.nothing
  semaphores := []
  fpQueue := 12
  fpArray := 0x7F
  fpSequence := .other

end Sys2Proof.Machine
end

