-- ==== Sys2Proof/Machine/Ops.lean ====
section
/-! DEFINITION. The named operations over the state that every meaning is written with: status bits, registers, free
values, taking an interruption and returning from one, address translation, memory accesses, the fetch, and how an
instruction ends. -/

namespace Sys2Proof.Machine

/-! ### Processor Status Word -/

namespace Psw
/-- PSW bit numbers (10_state.md R49; Y and Z by R59, D4). -/
def Y : Nat := 32
def Z : Nat := 33
def W : Nat := 36
def E : Nat := 37
def S : Nat := 38
def T : Nat := 39
def H : Nat := 40
def L : Nat := 41
def N : Nat := 42
def X : Nat := 43
def B : Nat := 44
def C : Nat := 45
def V : Nat := 46
def M : Nat := 47
def O : Nat := 56
def G : Nat := 57
def F : Nat := 58
def R : Nat := 59
def Q : Nat := 60
def P : Nat := 61
def D : Nat := 62
def I : Nat := 63
/-- E and F where the implementation has them not (R53, R58). -/
def absent : Dword := (if Config.hasPswE then 0 else bitMask E) ||| (if Config.hasPswF then 0 else bitMask F)
/-- The defined bits of PSW and IPSW: {24..31}, {32}, {33}, {36..63} (R49, R59, R76). -/
def defined : Dword := 0x000000FFCFFFFFFF &&& ~~~absent
/-- The bits of the system mask, {36}, {37}, {56..63} (R50). -/
def systemMask : Dword := 0x000000000C0000FF &&& ~~~absent
end Psw

/-- PSW bit {i}. -/
def State.flag (s : State) (i : Nat) : Bool := bitAt s.psw i

/-- The state with PSW bit {i} set to `v`. -/
def State.setFlag (s : State) (i : Nat) (v : Bool) : State := { s with psw := withBit s.psw i v }

/-- PSW[C/B], digit 0 leftmost (R57). -/
def State.carryBorrow (s : State) : BitVec 16 := field s.psw 24 31 ++ field s.psw 48 55

/-- The state with PSW[C/B] replaced (R57). -/
def State.setCarryBorrow (s : State) (cb : BitVec 16) : State :=
  let hi := ((cb.extractLsb' 8 8).zeroExtend 64) <<< 32
  let lo := ((cb.extractLsb' 0 8).zeroExtend 64) <<< 8
  { s with psw := (s.psw &&& ~~~(0x000000FF0000FF00 : Dword)) ||| hi ||| lo }

/-- The current privilege level, IAOQ_Front{62..63} (R47). -/
def State.priv (s : State) : BitVec 2 := s.iaoqFront.extractLsb' 0 2

/-! ### Registers -/

/-- GR[r]; GR[0] reads zero (R41). -/
def State.readGr (s : State) (r : BitVec 5) : Dword := if r = 0#5 then 0 else s.gr[r.toNat]'(by have := r.isLt; omega)

/-- GR[r] written; a write to GR[0] is discarded (R41). -/
def State.writeGr (s : State) (r : BitVec 5) (v : Dword) : State :=
  if r = 0#5 then s else { s with gr := s.gr.set r.toNat v (by have := r.isLt; omega) }

/-- SR[n] (R43). -/
def State.readSr (s : State) (n : BitVec 3) : Dword := s.sr[n.toNat]'(by have := n.isLt; omega)

/-- SR[n] written; bits that are not implemented are ignored (R43). -/
def State.writeSr (s : State) (n : BitVec 3) (v : Dword) : State :=
  { s with sr := s.sr.set n.toNat (v &&& Config.sidMask) (by have := n.isLt; omega) }

/-- FPR[r], the 64 bits as they stand (R81). -/
def State.readFpr (s : State) (r : BitVec 5) : Dword := s.fpr[r.toNat]'(by have := r.isLt; omega)

/-- FPR[r] written (R81). -/
def State.writeFpr (s : State) (r : BitVec 5) (v : Dword) : State :=
  { s with fpr := s.fpr.set r.toNat v (by have := r.isLt; omega) }

/-! ### Free values -/

/-- The k-th free value from here (93_implementation_defined.md section 3). -/
def State.free (s : State) (k : Nat) : Dword := Config.freeBits (s.freeCount + k)

/-- The state after `n` free values have been drawn. -/
def State.drawn (s : State) (n : Nat) : State := { s with freeCount := s.freeCount + n }

/-! ### Interruptions -/

/-- The interruptions of 60_exceptions.md R1002. -/
inductive Interruption where
  | highPriorityMachineCheck
  | powerFailure
  | recoveryCounter
  | external
  | lowPriorityMachineCheck
  | performanceMonitor
  | instructionTlbMiss
  | instructionMemoryProtection
  | illegalInstruction
  | breakInstruction
  | privilegedOperation
  | privilegedRegister
  | overflow
  | conditional
  | assistException
  | dataTlbMiss
  | nonAccessInstructionTlbMiss
  | nonAccessDataTlbMiss
  | dataMemoryAccessRights
  | dataMemoryProtectionId
  | unalignedDataReference
  | dataMemoryProtection
  | dataMemoryBreak
  | tlbDirtyBit
  | pageReference
  | assistEmulation
  | higherPrivilegeTransfer
  | lowerPrivilegeTransfer
  | takenBranch
deriving DecidableEq, Repr

/-- The interruption number (R1002). -/
def Interruption.number (n : Interruption) : Nat :=
  match n with
  | .highPriorityMachineCheck => 1
  | .powerFailure => 2
  | .recoveryCounter => 3
  | .external => 4
  | .lowPriorityMachineCheck => 5
  | .performanceMonitor => 29
  | .instructionTlbMiss => 6
  | .instructionMemoryProtection => 7
  | .illegalInstruction => 8
  | .breakInstruction => 9
  | .privilegedOperation => 10
  | .privilegedRegister => 11
  | .overflow => 12
  | .conditional => 13
  | .assistException => 14
  | .dataTlbMiss => 15
  | .nonAccessInstructionTlbMiss => 16
  | .nonAccessDataTlbMiss => 17
  | .dataMemoryAccessRights => 26
  | .dataMemoryProtectionId => 27
  | .unalignedDataReference => 28
  | .dataMemoryProtection => 18
  | .dataMemoryBreak => 19
  | .tlbDirtyBit => 20
  | .pageReference => 21
  | .assistEmulation => 22
  | .higherPrivilegeTransfer => 23
  | .lowerPrivilegeTransfer => 24
  | .takenBranch => 25

/-- A data address as an interruption reports it: space, offset before any truncation, base register (R75). -/
structure DataAddr where
  space : Dword
  offset : Dword
  base : Dword
deriving DecidableEq, Repr

/-- What an interruption passes in IIR, ISR and IOR (R1002, columns IIR and ISR, IOR). -/
inductive Params where
  /-- "none": the three registers keep their values (D41). -/
  | none
  /-- IIR receives the instruction word. -/
  | instr
  /-- IIR the instruction word, ISR and IOR the address, in the format PSW[D] selects (R75 a, b). -/
  | data (a : DataAddr)
  /-- As `data`, in the format of R75 (a) whatever PSW[D] is (LPA and the probes translate always, R231; log entry 8). -/
  | virtualData (a : DataAddr)
  /-- IIR the instruction word, ISR and IOR undefined (R758). -/
  | instrUndefinedAddress
  /-- Implementation dependent (interruptions 1, 5, 29): every parameter a free value. -/
  | implementation
deriving DecidableEq, Repr

/-- Bits {0..63} of the global virtual address of `offset` in `space` (20_memory.md R156; R72, R75). -/
def gvaUpper (wide : Bool) (space offset : Dword) : Dword :=
  if wide then space ||| ((offset >>> 32) &&& 0x3FFFFFFF#64) else space

/-- The b field of IOR: the base register's bits that chose the space (R75 a). -/
def iorBaseField (wide : Bool) (base : Dword) : Dword :=
  let b := if wide then base.extractLsb' 62 2 else base.extractLsb' 30 2
  (b.zeroExtend 64) <<< 62

/-- IIR, ISR and IOR loaded with an interruption's parameters (R74, R75). -/
def State.loadParams (s : State) (p : Params) : State :=
  let wide := s.flag Psw.W
  match p with
  | .none => s
  | .instr => { s with iir := s.iword }
  | .virtualData a =>
    { s with iir := s.iword, isr := gvaUpper wide a.space a.offset, ior := iorBaseField wide a.base ||| low32 a.offset }
  | .data a =>
    if s.flag Psw.D then
      { s with iir := s.iword, isr := gvaUpper wide a.space a.offset, ior := iorBaseField wide a.base ||| low32 a.offset }
    else
      { s with
        iir := s.iword
        isr := if wide then (a.offset >>> 32) &&& 0x3FFFFFFF#64 else 0
        ior := (s.free 0 &&& 0xC000000000000000#64) ||| low32 a.offset
        freeCount := s.freeCount + 1 }
  | .instrUndefinedAddress =>
    { s with iir := s.iword, isr := s.free 0, ior := s.free 1, freeCount := s.freeCount + 2 }
  | .implementation =>
    { s with iir := (s.free 0).extractLsb' 0 32, isr := s.free 1, ior := s.free 2, freeCount := s.freeCount + 3 }

/-- The IIASQ element for an IA queue element (R72). -/
def State.iiasqElement (s : State) (space offset : Dword) : Dword :=
  if s.flag Psw.C then gvaUpper (s.flag Psw.W) space offset else 0

/-- The IIAOQ element for an IA queue element (R72). With code translation off and PSW[W] = 0 the source lets an implementation
truncate it; the model keeps all 64 bits. DESIGN CHOICE, log entry 54. -/
def State.iiaoqElement (s : State) (offset : Dword) : Dword :=
  if s.flag Psw.C && !(s.flag Psw.W) then low32 offset else offset

/-- The IIA queues loaded from the IA queues (R71, R72). -/
def State.collectQueues (s : State) : State :=
  { s with
    iiasqFront := s.iiasqElement s.iasqFront s.iaoqFront
    iiasqBack := s.iiasqElement s.iasqBack s.iaoqBack
    iiaoqFront := s.iiaoqElement s.iaoqFront
    iiaoqBack := s.iiaoqElement s.iaoqBack }

/-- The IIA queues after a high-priority machine check: implementation dependent (R1012). -/
def State.collectFreeQueues (s : State) : State :=
  { s with
    iiasqFront := s.free 0, iiasqBack := s.free 1, iiaoqFront := s.free 2, iiaoqBack := s.free 3
    freeCount := s.freeCount + 4 }

/-- The shadow registers loaded (R80). -/
def State.loadShadow (s : State) : State :=
  { s with shr := #v[s.readGr 1, s.readGr 8, s.readGr 9, s.readGr 16, s.readGr 17, s.readGr 24, s.readGr 25] }

/-- The PSW an interruption installs (R1007 step 2). -/
def State.interruptionPsw (s : State) (n : Interruption) : Dword :=
  withBit (withBit (withBit 0 Psw.W s.defaultWidth) Psw.E s.defaultEndian) Psw.M (decide (n = .highPriorityMachineCheck))

/-- Collecting the interruption state, steps 3, 5 and 6 of R1007, done only with PSW[Q] = 1. -/
def State.collect (s : State) (n : Interruption) (p : Params) : State :=
  if s.flag Psw.Q then
    ((if n = .highPriorityMachineCheck then s.collectFreeQueues else s.collectQueues).loadParams p).loadShadow
  else s

/-- The address of an interruption's vector entry, IVA + 32 n (R1008). -/
def State.vector (s : State) (n : Interruption) : Dword := s.iva + BitVec.ofNat 64 (32 * n.number)

/-- The global virtual address that an interruption's parameters name, when it was translated (20_memory.md R156). -/
def State.namedAddress (s : State) (p : Params) : Option (BitVec 96) :=
  let at_ (a : DataAddr) : BitVec 96 := gvaUpper (s.flag Psw.W) a.space a.offset ++ a.offset.extractLsb' 0 32
  match p with
  | .data a => if s.flag Psw.D then some (at_ a) else none
  | .virtualData a => some (at_ a)
  | _ => none

/-- The interruptions 18 to 22 and 26 to 28, after which the data translation of the address they name stays (21_translation.md
R275). -/
def Interruption.leavesTranslation (n : Interruption) : Bool :=
  decide (18 ≤ n.number ∧ n.number ≤ 22) || decide (26 ≤ n.number ∧ n.number ≤ 28)

/-- The interruptions of groups 1, 2 and 4, after which no translation may be relied upon (R273). -/
def Interruption.losesTranslations (n : Interruption) : Bool :=
  decide (n.number ≤ 5) || decide (23 ≤ n.number ∧ n.number ≤ 25) || n.number == 29

/-- What may be relied upon after an interruption (R273, R275). Its handler is fetched absolutely, so no code page is (log entry 62). -/
def State.reliedAfter (s : State) (n : Interruption) (p : Params) : Relied :=
  { Relied.nothing with
    data :=
      if n.losesTranslations then none
      else if n.leavesTranslation then (s.namedAddress p).or s.relied.data
      else s.relied.data }

/-- TAKING AN INTERRUPTION, 60_exceptions.md R1007, on the state whose PSW and queues it saves. -/
def takeInterruption (s : State) (n : Interruption) (p : Params) : State :=
  let c := s.collect n p
  { c with
    ipsw := s.psw
    psw := s.interruptionPsw n
    iaoqFront := s.vector n
    iaoqBack := s.vector n + 4
    iasqFront := 0
    iasqBack := 0
    relied := s.reliedAfter n p }

/-- GR 1, 8, 9, 16, 17, 24, 25 from the shadow registers, which become undefined (46_system_control.md R665 d). -/
def State.restoreShadow (s : State) : State :=
  let r := ((((((s.writeGr 1 s.shr[0]).writeGr 8 s.shr[1]).writeGr 9 s.shr[2]).writeGr 16 s.shr[3]).writeGr 17
    s.shr[4]).writeGr 24 s.shr[5]).writeGr 25 s.shr[6]
  { r with
    shr := #v[s.free 0, s.free 1, s.free 2, s.free 3, s.free 4, s.free 5, s.free 6]
    freeCount := s.freeCount + 7 }

/-- IIA queues, IIR, ISR, IOR and IPSW undefined (10_state.md R71, R75, R76). -/
def State.loseInterruptionState (s : State) : State :=
  { s with
    iiasqFront := s.free 0, iiasqBack := s.free 1, iiaoqFront := s.free 2, iiaoqBack := s.free 3
    iir := (s.free 4).extractLsb' 0 32, isr := s.free 5, ior := s.free 6, ipsw := s.free 7 &&& Psw.defined
    freeCount := s.freeCount + 8 }

/-- A space identifier recovered from an IIASQ element (R665). -/
def recoverSpace (iiasq iiaoq : Dword) : Dword := iiasq &&& ~~~(iiaoq >>> 32)

/-- RETURNING FROM AN INTERRUPTION, R665: PSW from IPSW, the IA queues from the IIA queues. -/
def returnFromInterruption (s : State) : State :=
  let r := { s with
    psw := s.ipsw &&& Psw.defined
    iaoqFront := s.iiaoqFront
    iaoqBack := s.iiaoqBack
    iasqFront := recoverSpace s.iiasqFront s.iiaoqFront
    iasqBack := recoverSpace s.iiasqBack s.iiaoqBack }
  if bitAt s.ipsw Psw.Q then r else r.loseInterruptionState

/-! ### How an instruction ends -/

/-- Why an instruction does not complete. -/
inductive Stop where
  /-- A group 3 interruption: the instruction is rolled back and the interruption taken (60_exceptions.md R1006). -/
  | trap (n : Interruption) (p : Params)
  /-- An undefined operation. -/
  | refuse (r : Refusal)
  /-- An access where the spec gives no device. -/
  | fault (f : Fault)
deriving DecidableEq, Repr

/-- A computation that may stop the instruction. -/
abbrev Res (α : Type) := Except Stop α

/-- A group 3 interruption whose only parameter is the instruction word. -/
def trapInstr (n : Interruption) : Stop := .trap n .instr

/-- Privilege level 0 or the privileged operation trap (10_state.md R47; 60_exceptions.md R1002, interruption 10). -/
def State.privileged (s : State) : Res Unit := if s.priv = 0#2 then .ok () else .error (trapInstr .privilegedOperation)

/-- What the instruction leaves for the queues and for PSW[N] and PSW[B] (42_branch.md R470, R472). -/
structure Flow where
  taken : Bool
  nullify : Bool
  offset : Dword
  space : Dword
  /-- The new back element lies past the end of its space (20_memory.md R159). -/
  past : Bool
deriving DecidableEq, Repr

/-- A completed instruction: the state with its effects, the queues not yet advanced, and where they go. -/
structure Done where
  state : State
  flow : Flow
deriving DecidableEq, Repr

/-- IAOQ_Back is the last word of its space, so that a sequential advance leaves it (20_memory.md R159). -/
def State.atEndOfSpace (s : State) : Bool :=
  if s.flag Psw.W then (s.iaoqBack ||| 3) == 0xFFFFFFFFFFFFFFFF#64 else (low32 s.iaoqBack ||| 3) == 0xFFFFFFFF#64

/-- A branch to base + displacement + `k` goes past the end of the space, the displacement taken as signed: past 2^64 with PSW[W] = 1,
past 2^32 in the low words with PSW[W] = 0 (R159). A sum below 0 wraps. DEDUCED, log entry 15. -/
def State.pastEnd (s : State) (base disp : Dword) (k : Nat) : Bool :=
  if s.flag Psw.W then decide ((2 : Int) ^ 64 ≤ base.toNat + disp.toInt + k)
  else decide ((2 : Int) ^ 32 ≤ (base.extractLsb' 0 32).toNat + (disp.extractLsb' 0 32).toInt + k)

/-- The flow of an instruction that is no taken branch (R470). -/
def State.sequential (s : State) (nullify : Bool) : Flow := ⟨false, nullify, s.iaoqBack + 4, s.iasqBack, s.atEndOfSpace⟩

/-- The link value of the branches, IAOQ_Back + 4 (R476). -/
def State.link (s : State) : Dword := s.iaoqBack + 4

/-- The interval timer's count of one instruction, and the EIRR bit it sets (10_state.md R69; 60_exceptions.md R1055). The count comes after the
instruction's effect, so the bit is the one that the PSW[W] the instruction leaves names; R69 says nothing of an instruction that changes
W. The bit is set when the count comes to the comparison register's value (R1055, "pass through"): a value equal to the present count, as MTCTL
may write it, sets none until the count comes round to it again, while R69 speaks of "identical values". DESIGN CHOICE, log entry 22. -/
def State.tick (s : State) : State :=
  let ahead := s.itmrCompare - s.itmr.extractLsb' 0 32
  let hit := ahead != 0#32 && ahead.toNat ≤ Config.timerRate.toNat
  { s with
    itmr := s.itmr + Config.timerRate
    eirr := if hit then withBit s.eirr (if s.flag Psw.W then 0 else 32) true else s.eirr }

/-- PSW with X, Y and Z cleared and N and B as the instruction leaves them (42_branch.md R472). -/
def endPsw (psw : Dword) (fl : Flow) : Dword :=
  withBit (withBit (psw &&& ~~~(bitMask Psw.X ||| bitMask Psw.Y ||| bitMask Psw.Z)) Psw.N fl.nullify) Psw.B fl.taken

/-- The queues advanced (R470) and the status bits settled. -/
def State.advance (s : State) (fl : Flow) : State :=
  { s with
    psw := endPsw s.psw fl
    iaoqFront := s.iaoqBack
    iasqFront := s.iasqBack
    iaoqBack := fl.offset
    iasqBack := fl.space }

/-- The recovery counter's decrement, by the PSW[R] the instruction began with (10_state.md R62). -/
def State.countDown (s : State) (running : Bool) : State := if running then { s with rctr := s.rctr - 1 } else s

/-- The group 4 trap of an instruction that ran with status `old` at level `level` and left `s` (60_exceptions.md R1004). -/
def groupFour (old : Dword) (level : BitVec 2) (taken : Bool) (s : State) : Option Interruption :=
  if level < s.priv && bitAt old Psw.L then some .lowerPrivilegeTransfer
  else if s.priv < level && bitAt old Psw.H then some .higherPrivilegeTransfer
  else if taken && bitAt old Psw.T then some .takenBranch
  else none

/-- The state after an instruction that began in `s` completed as `d`, before any group 4 trap. -/
def retireState (s : State) (d : Done) : State := ((d.state.advance d.flow).countDown (s.flag Psw.R)).tick

/-- The end of an instruction or of a nullified one: past the end of the space it is undefined, else the group 4 trap, if
any, is taken on the state after completion (R1004; log entry 53). -/
def finish (s : State) (fl : Flow) (t : State) : Host.Outcome State Fault Refusal :=
  if fl.past then .refused .endOfSpace
  else
    match groupFour s.psw s.priv fl.taken t with
    | some n => .next (takeInterruption t n .none)
    | none => .next t

/-- The outcome of an instruction executed in `s`: completed, rolled back by a trap, or stopped. -/
def complete (s : State) (r : Res Done) : Host.Outcome State Fault Refusal :=
  match r with
  | .ok d => finish s d.flow (retireState s d)
  | .error (.trap n p) => .next (takeInterruption s n p)
  | .error (.refuse r) => .refused r
  | .error (.fault f) => .fault f

/-- A nullified instruction: only the queues advance and N, B, X, Y, Z become 0 (42_branch.md R471). -/
def nullified (s : State) : Host.Outcome State Fault Refusal :=
  finish s (s.sequential false) (s.advance (s.sequential false)).tick

/-- An instruction that completes with the state `t` and nullifies its successor when `nullify` is true. -/
def done (s t : State) (nullify : Bool) : Res Done := .ok ⟨t, s.sequential nullify⟩

/-! ### Addresses -/

/-- The offset as it is used: truncated to 32 bits when PSW[W] = 0 (20_memory.md R158). -/
def State.usedOffset (s : State) (offset : Dword) : Dword := if s.flag Psw.W then offset else low32 offset

/-- The global virtual address (R156). -/
def State.gva (s : State) (space offset : Dword) : BitVec 96 :=
  let o := s.usedOffset offset
  (space ||| ((o >>> 32) &&& 0x3FFFFFFF#64)) ++ o.extractLsb' 0 32

/-- The physical address of an absolute address (R161 with PSW[W] = 1, R162 with PSW[W] = 0). -/
def State.absolute (s : State) (offset : Dword) : Dword :=
  if s.flag Psw.W then
    if field offset 2 9 = 0xF0#8 then 0xF0#8 ++ Config.pdcMapWide ++ field offset 10 63
    else (if field offset 2 5 = 0xF#4 then 3#2 else 0#2) ++ field offset 2 63
  else
    if field offset 32 39 = 0xF0#8 then 0xF0#8 ++ Config.pdcMapNarrow ++ field offset 40 63
    else (if field offset 32 35 = 0xF#4 then 0xFFFFFFFF#32 else 0#32) ++ field offset 32 63

/-- The three regions of the physical address space (R165). -/
inductive Region where
  | memory
  | pdc
  | io
deriving DecidableEq, Repr

/-- The region of a physical address (R165). -/
def region (pa : Dword) : Region :=
  if field pa 0 3 != 0xF#4 then .memory else if field pa 0 7 = 0xF0#8 then .pdc else .io

/-- The number of page-offset bits of a page size code, 12 + 2 code (21_translation.md R245). -/
def pageBits (size : BitVec 4) : Nat := 12 + 2 * size.toNat

/-- Does the entry's page contain the address (R246)? -/
def TlbEntry.covers (e : TlbEntry) (gva : BitVec 96) : Bool := (e.gva >>> pageBits e.size) == (gva >>> pageBits e.size)

/-- TLB_lookup (R246). -/
def tlbLookup (tlb : List TlbEntry) (gva : BitVec 96) : Option TlbEntry := tlb.find? (·.covers gva)

/-- The physical address of an offset on the entry's page (R246, D7). It is a 64-bit physical address, used as it is: the mapping of
20_memory.md R161 and R162 is that of absolute addresses, and what it cannot reach "is reached by virtual accesses" (R161). DEDUCED, log
entry 55. -/
def TlbEntry.translate (e : TlbEntry) (offset : Dword) : Dword :=
  let inPage : Dword := ((1 : Dword) <<< pageBits e.size) - 1
  (((e.ppn ++ 0#12) : Dword) &&& ~~~inPage) ||| (offset &&& inPage)

/-- The kinds of access the access checks tell apart (R252). -/
inductive AccessKind where
  | read
  | write
  | execute
deriving DecidableEq, Repr

/-- access_rights_ok (R254). -/
def rightsOk (rights : BitVec 7) (kind : AccessKind) (level : BitVec 2) : Bool :=
  let type := (field rights 0 2).toNat
  let pl1 := field rights 3 4
  let pl2 := field rights 5 6
  match kind with
  | .read => decide (type ≤ 3) && decide (level ≤ pl1)
  | .write => (type == 1 || type == 3) && decide (level ≤ pl2)
  | .execute => decide (2 ≤ type) && decide (pl2 ≤ level) && decide (level ≤ pl1)

/-- The eight protection identifiers: identifier and write-disable bit (10_state.md R63). -/
def State.protectionIds (s : State) : List (BitVec 31 × Bool) :=
  [s.pid12, s.pid34, s.pid56, s.pid78].flatMap fun r => [(field r 0 30, bitAt r 31), (field r 32 62, bitAt r 63)]

/-- pid_ok (R263). -/
def State.pidOk (s : State) (accessId : BitVec 31) (kind : AccessKind) : Bool :=
  !(s.flag Psw.P) || accessId == 0#31 ||
    s.protectionIds.any fun p => p.1 == accessId && !(kind == .write && p.2)

/-! ### Data references -/

/-- A load reads, a store writes, a semaphore does both (R252, R266). -/
inductive RefKind where
  | load
  | store
  | semaphore
deriving DecidableEq, Repr

/-- The accesses a reference makes (R252). -/
def RefKind.accesses (k : RefKind) : List AccessKind :=
  match k with
  | .load => [.read]
  | .store => [.write]
  | .semaphore => [.read, .write]

/-- Where a reference's bytes are. -/
structure Place where
  pa : Dword
  /-- The U bit of the page (false for an absolute access, which has no page). -/
  uncacheable : Bool
deriving DecidableEq, Repr

/-- The checks of a translated data reference, in order (R266). -/
def State.checkVirtual (s : State) (k : RefKind) (a : DataAddr) (size : Nat) : Res Place :=
  let off := s.usedOffset a.offset
  let stop (n : Interruption) : Res Place := .error (.trap n (.data a))
  match tlbLookup s.dtlb (s.gva a.space a.offset) with
  | none => stop .dataTlbMiss
  | some e =>
    if k.accesses.any (fun x => !(rightsOk e.rights x s.priv)) then stop .dataMemoryAccessRights
    else if k.accesses.any (fun x => !(s.pidOk e.accessId x)) then stop .dataMemoryProtectionId
    else if off.toNat % size != 0 && k != .semaphore then stop .unalignedDataReference
    else if k != .load && e.b && !(s.flag Psw.X) then stop .dataMemoryBreak
    else if k != .load && !e.d then stop .tlbDirtyBit
    else if e.t then stop .pageReference
    else if region (e.translate off) = .io && !e.u then .error (.refuse .cacheableIoPage)
    else .ok ⟨e.translate off, e.u⟩

/-- An absolute data reference (20_memory.md R146 b, R160). -/
def State.checkAbsolute (s : State) (offset : Dword) (size : Nat) : Res Place :=
  let off := s.usedOffset offset
  if off.toNat % size != 0 then .error (.refuse .unalignedAbsolute) else .ok ⟨s.absolute off, false⟩

/-- A data reference: virtual with PSW[D] = 1, absolute otherwise (R150). -/
def State.check (s : State) (k : RefKind) (a : DataAddr) (size : Nat) : Res Place :=
  if s.flag Psw.D then s.checkVirtual k a size else s.checkAbsolute a.offset size

/-- A place that is memory, its unimplemented address bits ignored (R164); the I/O and PDC regions have no device the spec gives
(R165, D43). -/
def inMemory (pa : Dword) : Res Nat :=
  match region pa with
  | .memory => .ok (pa &&& Config.paMask).toNat
  | .io => .error (.fault .ioSpace)
  | .pdc => .error (.fault .pdcSpace)

/-- The bytes at a physical address as a load reads them (R143). -/
def State.loadAt (s : State) (pa : Dword) (size : Nat) : Res Dword := do
  let a ← inMemory pa
  .ok (s.mem.load (s.flag Psw.E) a size)

/-- A write of IO_EIR: the EIRR bit it sets (60_exceptions.md R1058, D40). -/
def State.writeIoEir (s : State) (v : Dword) : State :=
  { s with eirr := withBit s.eirr (if s.defaultWidth then v.toNat % 64 else 32 + v.toNat % 32) true }

/-- A store at a physical address: memory, or a word store to IO_EIR (R143, R1058). The source gives IO_EIR no address: it is taken as
a physical address, and heeded where it lies in the I/O region. DESIGN CHOICE, log entry 48. -/
def State.storeAt (s : State) (pa : Dword) (size : Nat) (v : Dword) : Res State :=
  if region pa = .io && pa == Config.ioEirAddress && size == 4 then .ok (s.writeIoEir (low32 v))
  else do
    let a ← inMemory pa
    .ok { s with mem := s.mem.store (s.flag Psw.E) a size v }

/-- mem_load (20_memory.md R150). -/
def State.memLoad (s : State) (a : DataAddr) (size : Nat) : Res Dword := do
  let p ← s.check .load a size
  s.loadAt p.pa size

/-- mem_store (R150). -/
def State.memStore (s : State) (a : DataAddr) (size : Nat) (v : Dword) : Res State := do
  let p ← s.check .store a size
  s.storeAt p.pa size v

/-! ### Instruction fetch -/

/-- The current instruction's offset without its privilege level (R159). -/
def State.fetchOffset (s : State) : Dword := s.iaoqFront &&& ~~~3#64

/-- The ITLB entry the current instruction is fetched through (21_translation.md R265). -/
def State.fetchEntry (s : State) : Option TlbEntry := tlbLookup s.itlb (s.gva s.iasqFront s.fetchOffset)

/-- The physical address of the current instruction (R265; 20_memory.md R159). -/
def State.fetchPlace (s : State) : Res Dword :=
  let off := s.usedOffset s.fetchOffset
  if s.flag Psw.C then
    match s.fetchEntry with
    | none => .error (.trap .instructionTlbMiss .none)
    | some e =>
      if rightsOk e.rights .execute s.priv && s.pidOk e.accessId .execute then .ok (e.translate off)
      else .error (.trap .instructionMemoryProtection .none)
  else .ok (s.absolute off)

/-- The word of the current instruction, in the byte order of PSW[E] (20_memory.md R144). -/
def State.fetch (s : State) : Res Word := do
  let pa ← s.fetchPlace
  let v ← s.loadAt pa 4
  .ok (v.extractLsb' 0 32)

/-! ### Between instructions -/

/-- The group 1 or group 2 interruption that is taken before the current instruction, if any (60_exceptions.md R1003). -/
def pendingInterruption (s : State) : Option Interruption :=
  if s.hpmcPending && !(s.flag Psw.M) then some .highPriorityMachineCheck
  else if s.powerFailPending && s.flag Psw.I then some .powerFailure
  else if s.flag Psw.R && bitAt s.rctr 0 then some .recoveryCounter
  else if s.flag Psw.I && (s.eirr &&& s.eiem) != 0 then some .external
  else if s.flag Psw.I && s.lpmcPending then some .lowPriorityMachineCheck
  else if s.flag Psw.F && s.perfMonPending then some .performanceMonitor
  else none

/-- A pending request is cleared when its interruption is taken (10_state.md R93, D42). -/
def State.acknowledge (s : State) (n : Interruption) : State :=
  match n with
  | .highPriorityMachineCheck => { s with hpmcPending := false }
  | .powerFailure => { s with powerFailPending := false }
  | .lowPriorityMachineCheck => { s with lpmcPending := false }
  | .performanceMonitor => { s with perfMonPending := false }
  | _ => s

/-- The parameters of a group 1 or group 2 interruption (R1002). -/
def pendingParams (n : Interruption) : Params :=
  match n with
  | .highPriorityMachineCheck | .lowPriorityMachineCheck | .performanceMonitor => .implementation
  | _ => .none

/-- A pending interruption taken (R1003 steps 1 and 2). -/
def takePending (s : State) (n : Interruption) : State := takeInterruption (s.acknowledge n) n (pendingParams n)

end Sys2Proof.Machine
end

