-- ==== Sys2Proof/Machine/Flags.lean ====
section
/-! DEFINITION. The flag and condition computations of 43_computation.md section 1 and 44_shift_extract_deposit.md
R591: carries, overflows, and the condition tables of the computation, branch and shift instructions. -/

namespace Sys2Proof.Machine

/-- `f` and `d` fields as truth values. -/
def isSet (b : BitVec 1) : Bool := b == 1#1

/-- The carry out of digit i of x + y + cin (R532). -/
def digitCarry (x y : Dword) (cin : Bool) (i : Nat) : Bool :=
  let m := 2 ^ (64 - 4 * i)
  decide (m ≤ x.toNat % m + y.toNat % m + cin.toNat)

/-- carry_borrows, digit 0 leftmost (R532). -/
def digitCarries (x y : Dword) (cin : Bool) : BitVec 16 :=
  (List.range 16).foldl (fun acc i => (acc <<< 1) ||| (bitOf (digitCarry x y cin i)).zeroExtend 16) 0#16

/-- An addition x + y + cin with what its conditions look at (R532, R533). -/
structure Sum where
  res : Dword
  carries : BitVec 16
  /-- Signed overflow of the 32-bit addition of the low words. -/
  overflow32 : Bool
  /-- Signed overflow of the 64-bit addition. -/
  overflow64 : Bool
deriving DecidableEq, Repr

/-- Signed overflow at the bit {i}: equal operand signs and another result sign (R533). -/
def signOverflow (x y res : Dword) (i : Nat) : Bool := bitAt x i == bitAt y i && bitAt res i != bitAt x i

/-- x + y + cin (R532); a subtraction a - b is `sum a ~b true`. -/
def sum (x y : Dword) (cin : Bool) : Sum :=
  let res := x + y + (if cin then 1 else 0)
  { res, carries := digitCarries x y cin
    overflow32 := signOverflow x y res 32
    overflow64 := signOverflow x y res 0 }

/-- Signed overflow of the size d selects (R533). -/
def Sum.overflow (r : Sum) (d : Bool) : Bool := if d then r.overflow64 else r.overflow32

/-- The carry out of the size d selects: C/B{0} or C/B{8} (R534). -/
def Sum.carry (r : Sum) (d : Bool) : Bool := bitAt r.carries (if d then 0 else 8)

/-- All bits of the selected size are 0. -/
def isZero (d : Bool) (res : Dword) : Bool := if d then res == 0 else low32 res == 0

/-- The leftmost bit of the selected size. -/
def isNegative (d : Bool) (res : Dword) : Bool := bitAt res (if d then 0 else 32)

/-- The base conditions of Table D-1 (R534): zero, negative, signed overflow, the unsigned indication of rows 4 and 5,
odd. -/
def baseCondition (c : BitVec 3) (z n sv u odd : Bool) : Bool :=
  match c.toNat with
  | 0 => false
  | 1 => z
  | 2 => n ^^ sv
  | 3 => z || (n ^^ sv)
  | 4 => u
  | 5 => z || u
  | 6 => sv
  | _ => odd

/-- The arithmetic condition before negation. "No unsigned overflow" of an add and "unsigned overflow" of a subtract
are both a carry of 0 (R533, R534). -/
def Sum.base (r : Sum) (c : BitVec 3) (d : Bool) : Bool :=
  baseCondition c (isZero d r.res) (isNegative d r.res) (r.overflow d) (!(r.carry d)) (bitAt r.res 63)

/-- The arithmetic condition (c, f, d) of a sum (R534, R535, R537). -/
def Sum.condition (r : Sum) (c : BitVec 3) (f d : Bool) : Bool := r.base c d ^^ f

/-- The doubleword conditions of opcode 3B: c = 0 to 3 are rows 4, 1, 2, 3 of Table D-1, c = 4 to 7 their negations (R536). -/
def Sum.conditionCmpib64 (r : Sum) (c : BitVec 3) : Bool :=
  let row : BitVec 3 := if c.extractLsb' 0 2 = 0#2 then 4#3 else c &&& 3#3
  r.base row true ^^ (4 ≤ c.toNat)

/-- The conditions of ADDB and ADDIB: Table D-6 with PSW[W] = 0, Table D-8 with PSW[W] = 1 (R537, R538). -/
def Sum.conditionAddBranch (r : Sum) (wide : Bool) (c : BitVec 3) (f : Bool) : Bool :=
  if wide && 5 ≤ c.toNat then r.base (c - 4#3) true ^^ f else r.base c false ^^ f

/-- Logical conditions, "based only on the result" (R540). -/
def logicalCondition (c : BitVec 3) (f d : Bool) (res : Dword) : Bool :=
  baseCondition c (isZero d res) (isNegative d res) false false (bitAt res 63) ^^ f

/-- Some aligned w-bit unit of the selected size is zero (R541). -/
def someUnitZero (w : Nat) (d : Bool) (res : Dword) : Bool :=
  (List.range ((if d then 64 else 32) / w)).any fun k => (res >>> (w * k)).toNat % 2 ^ w == 0

/-- Some aligned w-bit unit of the selected size carries: the carry out of its leftmost digit (R541). -/
def someUnitCarries (w : Nat) (d : Bool) (carries : BitVec 16) : Bool :=
  (List.range 16).any fun i => i % (w / 4) == 0 && (d || 8 ≤ i) && bitAt carries i

/-- Unit conditions (R541). -/
def unitCondition (c : BitVec 3) (f d : Bool) (res : Dword) (carries : BitVec 16) : Bool :=
  (match c.toNat with
  | 0 => false
  | 1 => someUnitZero 32 d res
  | 2 => someUnitZero 8 d res
  | 3 => someUnitZero 16 d res
  | 4 => someUnitCarries 4 d carries
  | 5 => someUnitCarries 32 d carries
  | 6 => someUnitCarries 8 d carries
  | _ => someUnitCarries 16 d carries) ^^ f

/-- Shift, extract and deposit conditions, word (d false) and doubleword (44_shift_extract_deposit.md R591). -/
def shiftCondition (c : BitVec 3) (d : Bool) (res : Dword) : Bool :=
  match c.toNat with
  | 0 => false
  | 1 => isZero d res
  | 2 => isNegative d res
  | 3 => bitAt res 63
  | 4 => true
  | 5 => !(isZero d res)
  | 6 => !(isNegative d res)
  | _ => !(bitAt res 63)

end Sys2Proof.Machine
end

