-- ==== Sys2Proof/Machine/Operands.lean ====
section
/-! DEFINITION. Operand forms: the immediates assembled from instruction fields (00_scope.md R15, 30_encoding.md R326
to R333), the choice of a space register, and the effective addresses of the memory reference formats
(40_memory_reference.md R402 to R404). -/

namespace Sys2Proof.Machine

/-! ### Immediates -/

/-- assemble_3 (R15). -/
def assemble3 (x : BitVec 3) : BitVec 3 := x.extractLsb' 0 1 ++ x.extractLsb' 1 2

/-- assemble_6, the length 32 x + 32 - y of an extract or deposit (R15). -/
def assemble6 (x : BitVec 1) (y : BitVec 5) : Nat := 32 * x.toNat + 32 - y.toNat

/-- assemble_12 (R15). -/
def assemble12 (x : BitVec 11) (y : BitVec 1) : BitVec 12 := y ++ x.extractLsb' 0 1 ++ x.extractLsb' 1 10

/-- assemble_16, of the s field and im14; PSW[W] gives the s field's bits to the displacement (R15). -/
def assemble16 (wide : Bool) (x : BitVec 2) (y : BitVec 14) : BitVec 16 :=
  let sign := y.extractLsb' 0 1
  let top := if wide then (sign ++ sign) ^^^ x else sign ++ sign
  sign ++ top ++ y.extractLsb' 1 13

/-- assemble_16a, of the s field, an 11-bit field and the sign bit; a multiple of 4 (R15). -/
def assemble16a (wide : Bool) (x : BitVec 2) (y : BitVec 11) (z : BitVec 1) : BitVec 16 :=
  let top := if wide then (z ++ z) ^^^ x else z ++ z
  z ++ top ++ y ++ 0#2

/-- assemble_17 (R15). -/
def assemble17 (x : BitVec 5) (y : BitVec 11) (z : BitVec 1) : BitVec 17 :=
  z ++ x ++ y.extractLsb' 0 1 ++ y.extractLsb' 1 10

/-- assemble_21 (R15). -/
def assemble21 (x : BitVec 21) : BitVec 21 :=
  field x 20 20 ++ field x 9 19 ++ field x 5 6 ++ field x 0 4 ++ field x 7 8

/-- assemble_22 (R15). -/
def assemble22 (a b : BitVec 5) (c : BitVec 11) (d : BitVec 1) : BitVec 22 :=
  d ++ a ++ b ++ c.extractLsb' 0 1 ++ c.extractLsb' 1 10

/-- The byte displacement of a word displacement (42_branch.md R475). -/
def wordDisp {n : Nat} (w : BitVec n) : Dword := (w.signExtend 64) <<< 2

/-- The immediate of LDIL and ADDIL (41_immediate.md R461, R462). -/
def leftImmediate (x : BitVec 21) : Dword := ((assemble21 x ++ 0#11 : BitVec 32)).signExtend 64

/-! ### Effective addresses -/

/-- Base register modification: none, before the access, after it (40_memory_reference.md R402). -/
inductive Modify where
  | none
  | before
  | after
deriving DecidableEq, Repr

/-- An effective address before its space is chosen: the base register and its value, the offset, the base register's
new value if it is modified, the s field, and whether the format is a long displacement (R402). -/
structure Ea where
  b : BitVec 5
  base : Dword
  offset : Dword
  newBase : Option Dword
  sField : BitVec 2
  long : Bool
deriving DecidableEq, Repr

/-- The address of base register b and displacement or index dx (R402 step 3). -/
def State.ea (s : State) (b : BitVec 5) (dx : Dword) (m : Modify) (sField : BitVec 2) (long : Bool) : Ea :=
  let base := s.readGr b
  { b, base, sField, long
    offset := match m with | .after => base | _ => base + dx
    newBase := match m with | .none => .none | _ => some (base + dx) }

/-- The completer of a short displacement; `O` is `after` with displacement 0 (R404). -/
def shortModify (a m : BitVec 1) : Modify := if m = 0#1 then .none else if a = 1#1 then .before else .after

/-- Formats 5 and 6, and 41 and 42 (R402). -/
def State.shortEa (s : State) (b im5 : BitVec 5) (sField : BitVec 2) (a m : BitVec 1) : Ea :=
  s.ea b (lowSignExt im5) (shortModify a m) sField false

/-- Formats 4, and 39 and 40; the index is shifted by `shift` when u = 1 (R402, R404). -/
def State.indexedEa (s : State) (b x : BitVec 5) (sField : BitVec 2) (u m : BitVec 1) (shift : Nat) : Ea :=
  let dx := if u = 1#1 then s.readGr x <<< shift else s.readGr x
  s.ea b dx (if m = 1#1 then .after else .none) sField false

/-- The displacement of Format 1 (R402). -/
def State.disp14 (s : State) (sField : BitVec 2) (im14 : BitVec 14) : Dword :=
  (assemble16 (s.flag Psw.W) sField im14).signExtend 64

/-- The displacement of Formats 2, 43 and 44 (R402). -/
def State.disp11 (s : State) (sField : BitVec 2) (im11a : BitVec 11) (iv : BitVec 1) : Dword :=
  (assemble16a (s.flag Psw.W) sField im11a iv).signExtend 64

/-- The displacement of Format 3 (R402). -/
def State.disp10 (s : State) (sField : BitVec 2) (im10a : BitVec 10) (iv : BitVec 1) : Dword :=
  s.disp11 sField (im10a ++ 0#1) iv

/-- Format 1 without base modification (R404). -/
def State.longEa (s : State) (b : BitVec 5) (sField : BitVec 2) (im14 : BitVec 14) : Ea :=
  s.ea b (s.disp14 sField im14) .none sField true

/-- Opcodes 13 and 1B: before when the displacement is negative, else after (R404). -/
def State.longModifyEa (s : State) (b : BitVec 5) (sField : BitVec 2) (im14 : BitVec 14) : Ea :=
  let dx := s.disp14 sField im14
  s.ea b dx (if dx.msb then .before else .after) sField true

/-- Format 2: before when the displacement is not negative, else after (R404). -/
def State.long11Ea (s : State) (b : BitVec 5) (sField : BitVec 2) (im11a : BitVec 11) (iv : BitVec 1) : Ea :=
  let dx := s.disp11 sField im11a iv
  s.ea b dx (if dx.msb then .after else .before) sField true

/-- Format 43, no modification, and Format 44, modification by its a bit (50_fp_instructions.md R871). -/
def State.fpLongEa (s : State) (b : BitVec 5) (sField : BitVec 2) (im11a : BitVec 11) (iv : BitVec 1) (m : Modify) : Ea :=
  s.ea b (s.disp11 sField im11a iv) m sField true

/-- Format 3 (R404). -/
def State.long10Ea (s : State) (b : BitVec 5) (sField : BitVec 2) (im10a : BitVec 10) (m a iv : BitVec 1) : Ea :=
  s.ea b (s.disp10 sField im10a iv) (shortModify a m) sField true

/-- The base register's new value written back (R402 step 4). -/
def Ea.writeBack (e : Ea) (s : State) : State :=
  match e.newBase with
  | none => s
  | some v => s.writeGr e.b v

/-- The space register that a base register's two selector bits choose, SR 4 to 7 (20_memory.md R157). -/
def State.implicitSpace (s : State) (base : Dword) : Dword :=
  s.readSr (1#1 ++ (if s.flag Psw.W then field base 0 1 else field base 32 33))

/-- space_select for an address that will be used (R157); an explicit space above privilege level 0 with PSW[W] = 1 is
undefined (90_conflicts.md C10). -/
def State.spaceSelect (s : State) (sField : BitVec 2) (base : Dword) (long : Bool) : Res Dword :=
  if sField = 0#2 || (long && s.flag Psw.W) then .ok (s.implicitSpace base)
  else if s.flag Psw.W && s.priv != 0#2 then .error (.refuse .explicitSpace)
  else .ok (s.readSr (0#1 ++ sField))

/-- The data address, its space chosen only when it is used, with PSW[D] = 1 (R157 d). -/
def Ea.resolve (e : Ea) (s : State) : Res DataAddr :=
  if s.flag Psw.D then do
    let space ← s.spaceSelect e.sField e.base e.long
    .ok ⟨space, e.offset, e.base⟩
  else .ok ⟨0, e.offset, e.base⟩

/-- The data address of an instruction that always translates (LPA, LCI and the probes, 21_translation.md R231). -/
def Ea.resolveVirtual (e : Ea) (s : State) : Res DataAddr := do
  let space ← s.spaceSelect e.sField e.base e.long
  .ok ⟨space, e.offset, e.base⟩

end Sys2Proof.Machine
end

