-- ==== Sys2Proof/Machine/Assist.lean ====
section
/-! DEFINITION. Special function units, coprocessors 2 to 7, the performance monitor (48_assist_sfu_copr.md). -/

namespace Sys2Proof.Machine

/-! ### The configuration bits (R754, R756) -/

/-- SCR{i} (R754). -/
def State.sfuEnabled (s : State) (unit : BitVec 3) : Bool := bitAt s.scr unit.toNat

/-- CCR{i} (R756). -/
def State.coprEnabled (s : State) (unit : BitVec 3) : Bool := bitAt s.ccr unit.toNat

/-- The assist emulation trap of an operation: ISR and IOR undefined (R758). -/
def emulationTrap : Stop := .trap .assistEmulation .instrUndefinedAddress

/-! ### Special function units (R760 to R763) -/

/-- The call of a unit with its present state. -/
def State.sfuCall (s : State) (form : Nat) (unit : BitVec 3) (opcode : Nat) (a b : Dword) : Config.SfuCall :=
  ⟨form, unit, opcode, s.priv, a, b, s.sfu[unit.toNat]'(by have := unit.isLt; omega)⟩

/-- IDENTIFY SFU raises no exception (R761). -/
def identifiesSfu (c : Config.SfuCall) : Bool := c.form == 1 && c.opcode == c.unit.toNat * 2

/-- Does the unit report an exception? State number 0 of a unit is one in which it has none to report; every unit's states
can be numbered from 1 on instead (log entry 9). -/
def sfuRaises (c : Config.SfuCall) : Bool := c.token != 0 && Config.sfuException c && !(identifiesSfu c)

/-- The unit's state after a call. -/
def State.afterSfu (s : State) (c : Config.SfuCall) : State :=
  { s with sfu := s.sfu.set c.unit.toNat (Config.sfuNext c) (by have := c.unit.isLt; omega) }

/-- A special operation: the configuration bit, the unit's exception, its effect, its condition; `t` is the target of
SPOP1 (R760 to R763). -/
def State.spopForm (s : State) (c : Config.SfuCall) (t : Option (BitVec 5)) (n : BitVec 1) : Res Done :=
  if !(s.sfuEnabled c.unit) then .error emulationTrap
  else if sfuRaises c then .error (trapInstr .assistException)
  else
    let s' := s.afterSfu c
    done s (match t with | some t => s'.writeGr t (Config.sfuResult c) | none => s') (isSet n && Config.sfuCondition c)

/-! ### Coprocessor operations (R764, R765) -/

/-- The registers of a coprocessor. -/
def State.coprRegs (s : State) (unit : BitVec 3) : Vector Dword 32 := s.cpr[unit.toNat]'(by have := unit.isLt; omega)

/-- Which coprocessor is fitted as this unit; no instruction changes it (log entry 9). -/
def State.coprFitted (s : State) (unit : BitVec 3) : Nat := s.copr[unit.toNat]'(by have := unit.isLt; omega)

/-- A coprocessor's registers replaced: they are all its state (R755). -/
def State.setCopr (s : State) (unit : BitVec 3) (regs : Vector Dword 32) : State :=
  { s with cpr := s.cpr.set unit.toNat regs (by have := unit.isLt; omega) }

/-- Does the coprocessor report an exception at an operation? Coprocessor number 0 is one that never does (log entry 9). -/
def coprRaises (c : Config.CoprCall) : Bool := c.fitted != 0 && Config.coprException c

/-- Does the coprocessor report an exception at a load or store (log entry 9)? -/
def transferRaises (c : Config.CoprTransfer) : Bool := c.fitted != 0 && Config.coprTransferException c

/-- CPR[unit][r] written. -/
def State.setCpr (s : State) (unit : BitVec 3) (r : BitVec 5) (v : Dword) : State :=
  s.setCopr unit ((s.coprRegs unit).set r.toNat v (by have := r.isLt; omega))

/-- COPR for the units 3 to 7: IDENTIFY for 4 to 7, else the unit's own operation (R764, R765). -/
def State.coprForm (s : State) (unit : BitVec 3) (sop1 : BitVec 17) (n : BitVec 1) (sop2 : BitVec 5) : Res Done :=
  let c : Config.CoprCall := ⟨unit, sop1 ++ sop2, n, s.priv, s.coprRegs unit, s.coprFitted unit⟩
  if !(s.coprEnabled unit) then .error emulationTrap
  else if 4 ≤ unit.toNat && sop1 ++ sop2 == 0#22 && n == 0#1 then
    done s (s.setCpr unit 0#5 (Config.coprIdentification unit)) false
  else if coprRaises c then .error (trapInstr .assistException)
  else done s (s.setCopr unit (Config.coprRegisters c)) (isSet n && Config.coprCondition c)

/-- COPR,1: the emulation trap when bit 1 is 0, undefined when the floating-point coprocessor is enabled, and with only
bit 1 set undefined as every floating-point instruction is (R756, R776). -/
def State.coprOneForm (s : State) : Res Done :=
  if !(s.coprEnabled 1#3) then .error emulationTrap
  else if s.coprEnabled 0#3 then .error (.refuse .coprUnitOne)
  else .error (.refuse .mixedFpEnable)

/-! ### Coprocessor loads and stores (R766 to R769, R774) -/

/-- What the coprocessor is told of a load or store. -/
def State.coprTransfer (s : State) (unit : BitVec 3) (r : BitVec 5) (store double : Bool) : Config.CoprTransfer :=
  ⟨unit, r, store, double, (s.coprRegs unit)[r.toNat]'(by have := r.isLt; omega), s.coprRegs unit, s.coprFitted unit⟩

/-- With the configuration bit 1 the unit's exception comes first; with it 0 the data reference is checked and then the
emulation trap is taken (R758). -/
def State.coprReference (s : State) (k : RefKind) (a : DataAddr) (size : Nat) (c : Config.CoprTransfer) : Res Place := do
  if s.coprEnabled c.unit && transferRaises c then .error (trapInstr .assistException)
  let p ← s.check k a size
  if s.coprEnabled c.unit then .ok p else .error (.trap .assistEmulation (.data a))

/-- CLDW and CLDD (R767, R768), of unit 2 as of the others when its bit is 1, where the source defines no load or store of the
performance monitor (R766). DESIGN CHOICE, log entry 9. -/
def State.coprLoadForm (s : State) (e : Ea) (unit : BitVec 3) (double : Bool) (t : BitVec 5) : Res Done := do
  let size := if double then 8 else 4
  let c := s.coprTransfer unit t false double
  let a ← e.resolve s
  let p ← s.coprReference .load a size c
  let v ← s.loadAt p.pa size
  let w := if double then v else Config.coprLoadWord c (v.extractLsb' 0 32)
  done s ((e.writeBack s).setCpr unit t w) false

/-- CSTW and CSTD (R769, R774), of unit 2 too (log entry 9). -/
def State.coprStoreForm (s : State) (e : Ea) (unit : BitVec 3) (double : Bool) (r : BitVec 5) : Res Done := do
  let size := if double then 8 else 4
  let c := s.coprTransfer unit r true double
  let a ← e.resolve s
  let p ← s.coprReference .store a size c
  let s' ← s.storeAt p.pa size (if double then c.value else (Config.coprStoreWord c).zeroExtend 64)
  done s (e.writeBack s') false

/-- The unit of the rows for units 2 and 3. -/
def unit2 (lo : BitVec 1) : BitVec 3 := 1#2 ++ lo

/-- The unit of the rows for units 4 to 7. -/
def unit4 (lo : BitVec 2) : BitVec 3 := 1#1 ++ lo

/-! ### The instructions -/

def execSpop0 (sop1 : BitVec 15) (sfu : BitVec 3) (n : BitVec 1) (sop2 : BitVec 5) (s : State) :
    Host.Outcome State Fault Refusal :=
  complete s (s.spopForm (s.sfuCall 0 sfu (sop1 ++ sfu ++ n ++ sop2).toNat 0 0) none n)

def execSpop1 (sop : BitVec 15) (sfu : BitVec 3) (n : BitVec 1) (t : BitVec 5) (s : State) :
    Host.Outcome State Fault Refusal :=
  complete s (s.spopForm (s.sfuCall 1 sfu (sop ++ sfu ++ n).toNat 0 0) (some t) n)

def execSpop2 (r : BitVec 5) (sop1 : BitVec 10) (sfu : BitVec 3) (n : BitVec 1) (sop2 : BitVec 5) (s : State) :
    Host.Outcome State Fault Refusal :=
  complete s (s.spopForm (s.sfuCall 2 sfu (sop1 ++ sfu ++ n ++ sop2).toNat (s.readGr r) 0) none n)

def execSpop3 (r2 r1 sop1 : BitVec 5) (sfu : BitVec 3) (n : BitVec 1) (sop2 : BitVec 5) (s : State) :
    Host.Outcome State Fault Refusal :=
  complete s (s.spopForm (s.sfuCall 3 sfu (sop1 ++ sfu ++ n ++ sop2).toNat (s.readGr r1) (s.readGr r2)) none n)

/-- PMDIS: the test is on the value before the instruction (R771). -/
def execPmdis (n : BitVec 1) (s : State) :
    Host.Outcome State Fault Refusal :=
  complete s (if s.coprEnabled 2#3 then
      done s { s with measurementEnabled := false } (isSet n && s.measurementEnabled)
    else .error emulationTrap)

/-- PMENB (R772). -/
def execPmenb (s : State) : Host.Outcome State Fault Refusal :=
  complete s (if s.coprEnabled 2#3 then done s { s with measurementEnabled := true } false else .error emulationTrap)

def execCopr1 (_sop1 : BitVec 17) (_n : BitVec 1) (_sop2 : BitVec 5) (s : State) :
    Host.Outcome State Fault Refusal :=
  complete s s.coprOneForm

def execCopr3 (sop1 : BitVec 17) (n : BitVec 1) (sop2 : BitVec 5) (s : State) :
    Host.Outcome State Fault Refusal :=
  complete s (s.coprForm 3#3 sop1 n sop2)

def execCopr4to7 (sop1 : BitVec 17) (uidlo : BitVec 2) (n : BitVec 1) (sop2 : BitVec 5) (s : State) :
    Host.Outcome State Fault Refusal :=
  complete s (s.coprForm (unit4 uidlo) sop1 n sop2)

def execCldwIndexed2 (b x : BitVec 5) (sr : BitVec 2) (u : BitVec 1) (_cc : BitVec 2) (uidlo m : BitVec 1) (t : BitVec 5) (s : State) :
    Host.Outcome State Fault Refusal :=
  complete s (s.coprLoadForm (s.indexedEa b x sr u m 2) (unit2 uidlo) false t)

def execCldwShort2 (b im5 : BitVec 5) (sr : BitVec 2) (a : BitVec 1) (_cc : BitVec 2) (uidlo m : BitVec 1) (t : BitVec 5) (s : State) :
    Host.Outcome State Fault Refusal :=
  complete s (s.coprLoadForm (s.shortEa b im5 sr a m) (unit2 uidlo) false t)

def execCstwIndexed2 (b x : BitVec 5) (sr : BitVec 2) (u : BitVec 1) (_cc : BitVec 2) (uidlo m : BitVec 1) (r : BitVec 5) (s : State) :
    Host.Outcome State Fault Refusal :=
  complete s (s.coprStoreForm (s.indexedEa b x sr u m 2) (unit2 uidlo) false r)

def execCstwShort2 (b im5 : BitVec 5) (sr : BitVec 2) (a : BitVec 1) (_cc : BitVec 2) (uidlo m : BitVec 1) (r : BitVec 5) (s : State) :
    Host.Outcome State Fault Refusal :=
  complete s (s.coprStoreForm (s.shortEa b im5 sr a m) (unit2 uidlo) false r)

def execCldwIndexed4 (b x : BitVec 5) (sr : BitVec 2) (u : BitVec 1) (_cc uidlo : BitVec 2) (m : BitVec 1) (t : BitVec 5) (s : State) :
    Host.Outcome State Fault Refusal :=
  complete s (s.coprLoadForm (s.indexedEa b x sr u m 2) (unit4 uidlo) false t)

def execCldwShort4 (b im5 : BitVec 5) (sr : BitVec 2) (a : BitVec 1) (_cc uidlo : BitVec 2) (m : BitVec 1) (t : BitVec 5) (s : State) :
    Host.Outcome State Fault Refusal :=
  complete s (s.coprLoadForm (s.shortEa b im5 sr a m) (unit4 uidlo) false t)

def execCstwIndexed4 (b x : BitVec 5) (sr : BitVec 2) (u : BitVec 1) (_cc uidlo : BitVec 2) (m : BitVec 1) (r : BitVec 5) (s : State) :
    Host.Outcome State Fault Refusal :=
  complete s (s.coprStoreForm (s.indexedEa b x sr u m 2) (unit4 uidlo) false r)

def execCstwShort4 (b im5 : BitVec 5) (sr : BitVec 2) (a : BitVec 1) (_cc uidlo : BitVec 2) (m : BitVec 1) (r : BitVec 5) (s : State) :
    Host.Outcome State Fault Refusal :=
  complete s (s.coprStoreForm (s.shortEa b im5 sr a m) (unit4 uidlo) false r)

def execClddIndexed2 (b x : BitVec 5) (sr : BitVec 2) (u : BitVec 1) (_cc : BitVec 2) (uidlo m : BitVec 1) (t : BitVec 5) (s : State) :
    Host.Outcome State Fault Refusal :=
  complete s (s.coprLoadForm (s.indexedEa b x sr u m 3) (unit2 uidlo) true t)

def execClddShort2 (b im5 : BitVec 5) (sr : BitVec 2) (a : BitVec 1) (_cc : BitVec 2) (uidlo m : BitVec 1) (t : BitVec 5) (s : State) :
    Host.Outcome State Fault Refusal :=
  complete s (s.coprLoadForm (s.shortEa b im5 sr a m) (unit2 uidlo) true t)

def execCstdIndexed2 (b x : BitVec 5) (sr : BitVec 2) (u : BitVec 1) (_cc : BitVec 2) (uidlo m : BitVec 1) (r : BitVec 5) (s : State) :
    Host.Outcome State Fault Refusal :=
  complete s (s.coprStoreForm (s.indexedEa b x sr u m 3) (unit2 uidlo) true r)

def execCstdShort2 (b im5 : BitVec 5) (sr : BitVec 2) (a : BitVec 1) (_cc : BitVec 2) (uidlo m : BitVec 1) (r : BitVec 5) (s : State) :
    Host.Outcome State Fault Refusal :=
  complete s (s.coprStoreForm (s.shortEa b im5 sr a m) (unit2 uidlo) true r)

def execClddIndexed4 (b x : BitVec 5) (sr : BitVec 2) (u : BitVec 1) (_cc uidlo : BitVec 2) (m : BitVec 1) (t : BitVec 5) (s : State) :
    Host.Outcome State Fault Refusal :=
  complete s (s.coprLoadForm (s.indexedEa b x sr u m 3) (unit4 uidlo) true t)

def execClddShort4 (b im5 : BitVec 5) (sr : BitVec 2) (a : BitVec 1) (_cc uidlo : BitVec 2) (m : BitVec 1) (t : BitVec 5) (s : State) :
    Host.Outcome State Fault Refusal :=
  complete s (s.coprLoadForm (s.shortEa b im5 sr a m) (unit4 uidlo) true t)

def execCstdIndexed4 (b x : BitVec 5) (sr : BitVec 2) (u : BitVec 1) (_cc uidlo : BitVec 2) (m : BitVec 1) (r : BitVec 5) (s : State) :
    Host.Outcome State Fault Refusal :=
  complete s (s.coprStoreForm (s.indexedEa b x sr u m 3) (unit4 uidlo) true r)

def execCstdShort4 (b im5 : BitVec 5) (sr : BitVec 2) (a : BitVec 1) (_cc uidlo : BitVec 2) (m : BitVec 1) (r : BitVec 5) (s : State) :
    Host.Outcome State Fault Refusal :=
  complete s (s.coprStoreForm (s.shortEa b im5 sr a m) (unit4 uidlo) true r)

end Sys2Proof.Machine
end

