-- ==== Sys2Proof/Machine/Branch.lean ====
section
/-! DEFINITION. The branches and the branch target stack instructions (42_branch.md). Queue advance, delay slot and
nullification are `State.advance` and `nullified` of Machine/Ops.lean (R470 to R472). -/

namespace Sys2Proof.Machine

/-! ### Targets and links -/

/-- An offset with the privilege level of its bits {62..63} replaced (R470, R477). -/
def atLevel (offset : Dword) (level : BitVec 2) : Dword := (offset &&& ~~~3#64) ||| level.zeroExtend 64

/-- The target of an IA-relative branch, at the level of the branch (R475, R477). -/
def State.relativeTarget (s : State) (disp : Dword) : Dword := atLevel (s.iaoqFront + disp + 8) s.priv

/-- The target of a base-relative branch: the base register can lower the privilege level (R477). -/
def State.baseTarget (s : State) (base disp : Dword) : Dword :=
  let level := base.extractLsb' 0 2
  atLevel (base + disp) (if s.priv < level then level else s.priv)

/-- A taken branch to `target` in the space `space`, leaving `t`; `past`: past the end of that space (R470, R472). -/
def branchTo (t : State) (n : BitVec 1) (past : Bool) (target space : Dword) : Res Done := .ok ⟨t, ⟨true, isSet n, target, space, past⟩⟩

/-- An address as a valid entry of the branch target stack (10_state.md R100, R102). -/
def btsEntry (offset : Dword) : BitVec 63 := field offset 0 61 ++ 1#1

/-- An entry with its valid bit cleared (10_state.md R101). -/
def btsInvalid (e : BitVec 63) : BitVec 63 := e &&& ~~~1#63

/-- The link value written to GR[t] and nominated (R476). -/
def State.linkTo (s : State) (t : BitVec 5) : State := { s.writeGr t s.link with bnr := btsEntry s.link }

/-- push_onto_BTS (10_state.md R101); nothing with BTS_DEPTH = 0. -/
def State.pushBts (s : State) (e : BitVec 63) : State := { s with bts := (e :: s.bts).take s.bts.length }

/-- pop_from_BTS on the stack: the bottom entry becomes invalid (10_state.md R101). -/
def popEntries (l : List (BitVec 63)) : List (BitVec 63) :=
  match l with
  | [] => []
  | e :: t => t ++ [btsInvalid (t.getLastD e)]

/-- `k` entries popped (R502). -/
def popTimes (k : Nat) (l : List (BitVec 63)) : List (BitVec 63) :=
  match k with
  | 0 => l
  | k + 1 => popTimes k (popEntries l)

/-- pop_from_BTS (10_state.md R101). -/
def State.popBts (s : State) : State := { s with bts := popEntries s.bts }

/-- The displacement of a conditional branch (R475). -/
def disp12 (w1 : BitVec 11) (w : BitVec 1) : Dword := wordDisp (assemble12 w1 w)

/-- The displacement of Formats 19 and 20 (R475). -/
def disp17 (w1 : BitVec 5) (w2 : BitVec 11) (w : BitVec 1) : Dword := wordDisp (assemble17 w1 w2 w)

/-- The displacement of B,L to GR 2 (R475). -/
def disp22 (w3 w1 : BitVec 5) (w2 : BitVec 11) (w : BitVec 1) : Dword := wordDisp (assemble22 w3 w1 w2 w)

/-- The tail of every conditional branch: taken iff the condition holds; with n, a backward branch nullifies when it is
not taken, a forward one when it is (R478, section 3). -/
def State.branchTail (s t : State) (disp : Dword) (n : BitVec 1) (cond : Bool) : Res Done :=
  let nullify := isSet n && (if disp.msb then !cond else cond)
  .ok ⟨t, if cond then ⟨true, nullify, s.relativeTarget disp, s.iasqBack, s.pastEnd s.iaoqFront disp 8⟩ else s.sequential nullify⟩

/-! ### Shared forms -/

/-- B,L, with its 17-bit or 22-bit displacement (R481). -/
def State.branchLinkForm (s : State) (t : BitVec 5) (disp : Dword) (n : BitVec 1) : Res Done :=
  branchTo (s.linkTo t) n (s.pastEnd s.iaoqFront disp 8) (s.relativeTarget disp) s.iasqBack

/-- The level B,GATE promotes to: 0 without code translation, else by the type of the page it was fetched from (R481; 21_translation.md
R255 speaks of no promotion without translation; log entry 56). -/
def State.gateLevel (s : State) : Res (BitVec 2) :=
  if s.flag Psw.C then
    match s.fetchEntry with
    | none => .error (.trap .instructionTlbMiss .none)
    | some e =>
      let type := field e.rights 0 2
      .ok (if bitAt type 0 && decide (type.extractLsb' 0 2 < s.priv) then type.extractLsb' 0 2 else s.priv)
  else .ok 0#2

/-- B,GATE (R481). -/
def State.gateForm (s : State) (t : BitVec 5) (disp : Dword) (n : BitVec 1) : Res Done :=
  if s.flag Psw.B then .error (trapInstr .illegalInstruction)
  else do
    let level ← s.gateLevel
    branchTo (s.writeGr t (atLevel (s.readGr t) s.priv)) n (s.pastEnd s.iaoqFront disp 8)
      (atLevel (s.iaoqFront + disp + 8) level) s.iasqBack

/-- BE (R484): with PSW[C] = 0 the target space is not defined. -/
def State.externalForm (s : State) (b : BitVec 5) (sr : BitVec 3) (disp : Dword) (n : BitVec 1) : Res Done :=
  let target := s.baseTarget (s.readGr b) disp
  let past := s.pastEnd (s.readGr b) disp 0
  if s.flag Psw.C then branchTo s n past target (s.readSr (assemble3 sr)) else branchTo (s.drawn 1) n past target (s.free 0)

/-- BE,L (R484): with PSW[C] = 0 the target space and SR 0 are not defined. -/
def State.externalLinkForm (s : State) (b : BitVec 5) (sr : BitVec 3) (disp : Dword) (n : BitVec 1) : Res Done :=
  let target := s.baseTarget (s.readGr b) disp
  let past := s.pastEnd (s.readGr b) disp 0
  if s.flag Psw.C then branchTo ((s.linkTo 31#5).writeSr 0#3 s.iasqBack) n past target (s.readSr (assemble3 sr))
  else branchTo (((s.linkTo 31#5).writeSr 0#3 (s.free 1)).drawn 2) n past target (s.free 0)

/-- BVE and BVE,L (R485), `t` the state with the link and the stack as they leave it: the target is GR[b], a popped entry
being equal to it in every defined case; with PSW[C] = 0 the target space is not defined. -/
def State.vectoredExternalForm (s t : State) (b : BitVec 5) (n : BitVec 1) : Res Done :=
  let base := s.readGr b
  if s.flag Psw.C then branchTo t n false (s.baseTarget base 0) (s.implicitSpace base)
  else branchTo (t.drawn 1) n false (s.baseTarget base 0) (s.free 0)

/-- ADDB and ADDIB: the sum x + GR[r] to GR[r], whether the branch is taken or not (R490, R491). -/
def State.addBranchForm (s : State) (x : Dword) (r : BitVec 5) (c : BitVec 3) (f : Bool) (disp : Dword) (n : BitVec 1) :
    Res Done :=
  let q := sum x (s.readGr r) false
  s.branchTail (s.writeGr r q.res) disp n (q.conditionAddBranch (s.flag Psw.W) c f)

/-- CMPB and CMPIB, word or doubleword (R492, R493). -/
def State.compareBranchForm (s : State) (x : Dword) (r : BitVec 5) (c : BitVec 3) (f d : Bool) (disp : Dword)
    (n : BitVec 1) : Res Done :=
  s.branchTail s disp n ((sum x (~~~(s.readGr r)) true).condition c f d)

/-- MOVB and MOVIB (R494, R495). -/
def State.moveBranchForm (s : State) (x : Dword) (r : BitVec 5) (c : BitVec 3) (disp : Dword) (n : BitVec 1) : Res Done :=
  s.branchTail (s.writeGr r x) disp n (shiftCondition c false x)

/-- BB: bit {i} of GR[r] (R496). -/
def State.bitBranchForm (s : State) (i : Nat) (r : BitVec 5) (c : BitVec 1) (disp : Dword) (n : BitVec 1) : Res Done :=
  s.branchTail s disp n (bitAt (s.readGr r) i ^^ isSet c)

/-! ### Unconditional branches (R481 to R485) -/

def execBl17 (t w1 : BitVec 5) (w2 : BitVec 11) (n w : BitVec 1) (s : State) :
    Host.Outcome State Fault Refusal :=
  complete s (s.branchLinkForm t (disp17 w1 w2 w) n)

def execBGate (t w1 : BitVec 5) (w2 : BitVec 11) (n w : BitVec 1) (s : State) :
    Host.Outcome State Fault Refusal :=
  complete s (s.gateForm t (disp17 w1 w2 w) n)

def execBl22 (w3 w1 : BitVec 5) (w2 : BitVec 11) (n w : BitVec 1) (s : State) :
    Host.Outcome State Fault Refusal :=
  complete s (s.branchLinkForm 2#5 (disp22 w3 w1 w2 w) n)

def execBlPush (w3 w1 : BitVec 5) (w2 : BitVec 11) (n w : BitVec 1) (s : State) :
    Host.Outcome State Fault Refusal :=
  complete s (branchTo ((s.linkTo 2#5).pushBts (btsEntry s.link)) n (s.pastEnd s.iaoqFront (disp22 w3 w1 w2 w) 8)
    (s.relativeTarget (disp22 w3 w1 w2 w)) s.iasqBack)

def execBlr (t x : BitVec 5) (n : BitVec 1) (s : State) :
    Host.Outcome State Fault Refusal :=
  complete s (s.branchLinkForm t (s.readGr x <<< 3) n)

def execBv (b x : BitVec 5) (n : BitVec 1) (s : State) :
    Host.Outcome State Fault Refusal :=
  complete s (branchTo s n (s.pastEnd (s.readGr b) (s.readGr x <<< 3) 0) (s.baseTarget (s.readGr b) (s.readGr x <<< 3)) s.iasqBack)

def execBe (b w1 : BitVec 5) (sr : BitVec 3) (w2 : BitVec 11) (n w : BitVec 1) (s : State) :
    Host.Outcome State Fault Refusal :=
  complete s (s.externalForm b sr (disp17 w1 w2 w) n)

def execBeL (b w1 : BitVec 5) (sr : BitVec 3) (w2 : BitVec 11) (n w : BitVec 1) (s : State) :
    Host.Outcome State Fault Refusal :=
  complete s (s.externalLinkForm b sr (disp17 w1 w2 w) n)

def execBve (b : BitVec 5) (n p : BitVec 1) (s : State) :
    Host.Outcome State Fault Refusal :=
  complete s (s.vectoredExternalForm (if isSet p then s.popBts else s) b n)

def execBveL (b : BitVec 5) (n p : BitVec 1) (s : State) :
    Host.Outcome State Fault Refusal :=
  complete s (s.vectoredExternalForm (if isSet p then (s.linkTo 2#5).pushBts (btsEntry s.link) else s.linkTo 2#5) b n)

/-! ### Conditional branches (R490 to R496) -/

def execAddbT (r2 r1 : BitVec 5) (c : BitVec 3) (w1 : BitVec 11) (n w : BitVec 1) (s : State) :
    Host.Outcome State Fault Refusal :=
  complete s (s.addBranchForm (s.readGr r1) r2 c false (disp12 w1 w) n)

def execAddibT (r im5 : BitVec 5) (c : BitVec 3) (w1 : BitVec 11) (n w : BitVec 1) (s : State) :
    Host.Outcome State Fault Refusal :=
  complete s (s.addBranchForm (lowSignExt im5) r c false (disp12 w1 w) n)

def execCmpbT (r2 r1 : BitVec 5) (c : BitVec 3) (w1 : BitVec 11) (n w : BitVec 1) (s : State) :
    Host.Outcome State Fault Refusal :=
  complete s (s.compareBranchForm (s.readGr r1) r2 c false false (disp12 w1 w) n)

def execCmpbDT (r2 r1 : BitVec 5) (c : BitVec 3) (w1 : BitVec 11) (n w : BitVec 1) (s : State) :
    Host.Outcome State Fault Refusal :=
  complete s (s.compareBranchForm (s.readGr r1) r2 c false true (disp12 w1 w) n)

def execCmpibT (r im5 : BitVec 5) (c : BitVec 3) (w1 : BitVec 11) (n w : BitVec 1) (s : State) :
    Host.Outcome State Fault Refusal :=
  complete s (s.compareBranchForm (lowSignExt im5) r c false false (disp12 w1 w) n)

def execAddbF (r2 r1 : BitVec 5) (c : BitVec 3) (w1 : BitVec 11) (n w : BitVec 1) (s : State) :
    Host.Outcome State Fault Refusal :=
  complete s (s.addBranchForm (s.readGr r1) r2 c true (disp12 w1 w) n)

def execAddibF (r im5 : BitVec 5) (c : BitVec 3) (w1 : BitVec 11) (n w : BitVec 1) (s : State) :
    Host.Outcome State Fault Refusal :=
  complete s (s.addBranchForm (lowSignExt im5) r c true (disp12 w1 w) n)

def execCmpbF (r2 r1 : BitVec 5) (c : BitVec 3) (w1 : BitVec 11) (n w : BitVec 1) (s : State) :
    Host.Outcome State Fault Refusal :=
  complete s (s.compareBranchForm (s.readGr r1) r2 c true false (disp12 w1 w) n)

def execCmpbDF (r2 r1 : BitVec 5) (c : BitVec 3) (w1 : BitVec 11) (n w : BitVec 1) (s : State) :
    Host.Outcome State Fault Refusal :=
  complete s (s.compareBranchForm (s.readGr r1) r2 c true true (disp12 w1 w) n)

def execCmpibF (r im5 : BitVec 5) (c : BitVec 3) (w1 : BitVec 11) (n w : BitVec 1) (s : State) :
    Host.Outcome State Fault Refusal :=
  complete s (s.compareBranchForm (lowSignExt im5) r c true false (disp12 w1 w) n)

def execCmpibD (r im5 : BitVec 5) (c : BitVec 3) (w1 : BitVec 11) (n w : BitVec 1) (s : State) :
    Host.Outcome State Fault Refusal :=
  complete s (s.branchTail s (disp12 w1 w) n ((sum (lowSignExt im5) (~~~(s.readGr r)) true).conditionCmpib64 c))

def execMovb (r2 r1 : BitVec 5) (c : BitVec 3) (w1 : BitVec 11) (n w : BitVec 1) (s : State) :
    Host.Outcome State Fault Refusal :=
  complete s (s.moveBranchForm (s.readGr r1) r2 c (disp12 w1 w) n)

def execMovib (r im5 : BitVec 5) (c : BitVec 3) (w1 : BitVec 11) (n w : BitVec 1) (s : State) :
    Host.Outcome State Fault Refusal :=
  complete s (s.moveBranchForm (lowSignExt im5) r c (disp12 w1 w) n)

def execBbFixed (p r : BitVec 5) (c d : BitVec 1) (w1 : BitVec 11) (n w : BitVec 1) (s : State) :
    Host.Outcome State Fault Refusal :=
  complete s (s.bitBranchForm (~~~d ++ p).toNat r c (disp12 w1 w) n)

def execBbSar (r : BitVec 5) (c d : BitVec 1) (w1 : BitVec 11) (n w : BitVec 1) (s : State) :
    Host.Outcome State Fault Refusal :=
  complete s (s.bitBranchForm (if isSet d then s.sar.toNat else 32 + s.sar.toNat % 32) r c (disp12 w1 w) n)

/-! ### Branch target stack (R500 to R503) -/

def execPushbts (r : BitVec 5) (s : State) :
    Host.Outcome State Fault Refusal :=
  complete s (done s (s.pushBts (btsEntry (s.readGr r))) false)

def execPushnom (s : State) : Host.Outcome State Fault Refusal :=
  complete s (done s (s.pushBts s.bnr) false)

def execPopbts (iv : BitVec 9) (s : State) :
    Host.Outcome State Fault Refusal :=
  complete s (done s { s with bts := popTimes iv.toNat s.bts } false)

def execClrbts (s : State) : Host.Outcome State Fault Refusal :=
  complete s (done s { s with bts := s.bts.map btsInvalid } false)

end Sys2Proof.Machine
end

