-- ==== Sys2Proof/Machine/CacheTlb.lean ====
section
/-! DEFINITION. Cache and TLB control, probes, LPA and LCI (47_cache_tlb.md). The model holds no cache contents: the cache
instructions form the address, translate it, take their interruptions, and do nothing else (R700, D5). -/

namespace Sys2Proof.Machine

/-! ### Addresses (R710) -/

/-- mm_offset: base plus unshifted index, or with M the base, which is then modified (R710 b). -/
def State.mmEa (s : State) (b x : BitVec 5) (sr : BitVec 2) (m : BitVec 1) : Ea := s.indexedEa b x sr 0#1 m 0

/-- The address of a Format 26 instruction, in an explicit space register (R710 c). -/
def Ea.inSpace (e : Ea) (s : State) (sr : BitVec 3) : DataAddr := ⟨s.readSr (assemble3 sr), e.offset, e.base⟩

/-- DTLB_search, or the non-access data TLB miss fault (21_translation.md R267). -/
def State.dataEntry (s : State) (a : DataAddr) (p : Params) : Res TlbEntry :=
  match tlbLookup s.dtlb (s.gva a.space a.offset) with
  | some e => .ok e
  | none => .error (.trap .nonAccessDataTlbMiss p)

/-- ITLB_search, or the non-access instruction TLB miss fault (R267). -/
def State.instructionEntry (s : State) (a : DataAddr) (p : Params) : Res TlbEntry :=
  match tlbLookup s.itlb (s.gva a.space a.offset) with
  | some e => .ok e
  | none => .error (.trap .nonAccessInstructionTlbMiss p)

/-! ### Cache control (R711 to R715) -/

/-- The five cache instructions are null instructions when the implementation has no cache (R700 a). -/
def State.cacheForm (s : State) (body : Res Done) : Res Done := if Config.cacheInstrNull then done s s false else body

/-- FDC: translated with PSW[D] = 1, no other check (R711). -/
def State.fdcForm (s : State) (e : Ea) : Res Done := s.cacheForm do
  let a ← e.resolveVirtual s
  if s.flag Psw.D then let _ ← s.dataEntry a (.data a)
  done s (e.writeBack s) false

/-- FDCE: no translation (R712). -/
def State.fdceForm (s : State) (e : Ea) : Res Done := s.cacheForm do
  let _ ← e.resolveVirtual s
  done s (e.writeBack s) false

/-- FIC, through the TLB that `FIC_USES_DTLB` names (R713). -/
def State.ficForm (s : State) (e : Ea) (a : DataAddr) : Res Done := do
  if s.flag Psw.D then
    let _ ← if Config.ficUsesDtlb then s.dataEntry a (.data a) else s.instructionEntry a (.data a)
  done s (e.writeBack s) false

/-- The page that nobody may execute, which PDC may purge (21_translation.md R256). -/
def purgeOnly (rights : BitVec 7) : Bool := rights &&& 0b1111010#7 == 0b1110010#7

/-- The checks of a PDC performed as a purge (R715). -/
def State.purgeChecks (s : State) (a : DataAddr) (e : TlbEntry) : Res Unit :=
  let stop (n : Interruption) : Res Unit := .error (.trap n (.data a))
  if !(rightsOk e.rights .write s.priv || purgeOnly e.rights) then stop .dataMemoryAccessRights
  else if !(s.pidOk e.accessId .write) then stop .dataMemoryProtectionId
  else if e.b && !(s.flag Psw.X) then stop .dataMemoryBreak
  else .ok ()

/-- PDC (R715). -/
def State.pdcForm (s : State) (e : Ea) : Res Done := s.cacheForm do
  let a ← e.resolveVirtual s
  if s.flag Psw.D then
    let t ← s.dataEntry a (.data a)
    if s.priv = 0#2 && Config.pdcPurges then s.purgeChecks a t
  done s (e.writeBack s) false

/-! ### TLB insertion and purge (R716 to R721; 21_translation.md R270, R271) -/

/-- Do two size-aligned pages overlap? (R271, 90_conflicts.md C13.) -/
def overlaps (g : BitVec 96) (size : BitVec 4) (e : TlbEntry) : Bool :=
  let k := max (pageBits size) (pageBits e.size)
  (g >>> k) == (e.gva >>> k)

/-- Every entry that overlaps the page removed. -/
def purgePage (tlb : List TlbEntry) (g : BitVec 96) (size : BitVec 4) : List TlbEntry := tlb.filter fun e => !(overlaps g size e)

/-- A page size code, 0 to 7 (R245). -/
def pageSize (code : BitVec 4) : Res (BitVec 4) := if code.toNat < 8 then .ok code else .error (.refuse .reservedPageSize)

/-- PDTLB: the size code is in the base register as it was read (R716, D20). One processor: local and global purges
are one (R709). -/
def State.pdtlbForm (s : State) (e : Ea) : Res Done := do
  s.privileged
  let a ← e.resolveVirtual s
  let size ← pageSize (e.base.extractLsb' 0 4)
  done s (e.writeBack { s with dtlb := purgePage s.dtlb (s.gva a.space a.offset) size }) false

/-- PITLB (R718). -/
def State.pitlbForm (s : State) (e : Ea) (a : DataAddr) : Res Done := do
  s.privileged
  let size ← pageSize (e.base.extractLsb' 0 4)
  done s (e.writeBack { s with itlb := purgePage s.itlb (s.gva a.space a.offset) size }) false

/-- PDTLBE: the entries an implementation-dependent function of the address selects (R717). -/
def State.pdtlbeForm (s : State) (e : Ea) : Res Done := do
  s.privileged
  let a ← e.resolveVirtual s
  done s (e.writeBack { s with dtlb := s.dtlb.filter fun t => !(Config.dtlbPurgeSelects a.space a.offset t.gva) }) false

/-- PITLBE (R719). -/
def State.pitlbeForm (s : State) (e : Ea) (a : DataAddr) : Res Done := do
  s.privileged
  done s (e.writeBack { s with itlb := s.itlb.filter fun t => !(Config.itlbPurgeSelects a.space a.offset t.gva) }) false

/-- The translation that GR[r1] and GR[r2] describe, for the address `g` (R720, R271); `data` keeps the fields of the
data TLB, otherwise those of the instruction TLB (split TLBs, D1). -/
def State.describedEntry (s : State) (g : BitVec 96) (r2 r1 : BitVec 5) (data : Bool) : TlbEntry :=
  let x := s.readGr r1
  let y := s.readGr r2
  { gva := g
    ppn := field x 7 58
    size := field x 60 63
    rights := field y 5 11
    accessId := field y 32 62
    t := data && bitAt y 2
    d := data && bitAt y 3
    b := data && bitAt y 4
    u := data && bitAt y 12
    o := data && bitAt y 13
    p := !data && bitAt y 14 }

/-- An entry inserted, what it overlaps removed (R271). -/
def insertEntry (tlb : List TlbEntry) (e : TlbEntry) : List TlbEntry := e :: purgePage tlb e.gva e.size

/-- The checks of an insertion (R720, D19, R245). -/
def State.insertAllowed (s : State) (r1 : BitVec 5) : Res Unit := do
  s.privileged
  if s.flag Psw.Q then .error (.refuse .insertWithQ)
  let _ ← pageSize (field (s.readGr r1) 60 63)

/-- IDTLBT: at the address in ISR and IOR (R720). -/
def State.idtlbtForm (s : State) (r2 r1 : BitVec 5) : Res Done := do
  s.insertAllowed r1
  let e := s.describedEntry (s.isr ++ s.ior.extractLsb' 0 32) r2 r1 true
  done s { s with dtlb := insertEntry s.dtlb e } false

/-- IITLBT: at the address at the front of the IIA queues (R721). -/
def State.iitlbtForm (s : State) (r2 r1 : BitVec 5) : Res Done := do
  s.insertAllowed r1
  let e := s.describedEntry (s.iiasqFront ++ s.iiaoqFront.extractLsb' 0 32) r2 r1 false
  done s { s with itlb := insertEntry s.itlb e } false

/-! ### LCI, LPA, probes (R722 to R725): translated whatever PSW[D] is -/

/-- LCI: the index is a function of the virtual page (R722). -/
def State.lciForm (s : State) (e : Ea) (t : BitVec 5) : Res Done := do
  s.privileged
  let a ← e.resolveVirtual s
  if !Config.coherentIo then .error (.refuse .noCoherentIo)
  else if Config.hasCache then done s (s.writeGr t (Config.coherenceIndex a.space (s.usedOffset a.offset >>> 12))) false
  else done s ((s.writeGr t (s.free 0)).drawn 1) false

/-- LPA (R723). -/
def State.lpaForm (s : State) (e : Ea) (t : BitVec 5) : Res Done := do
  s.privileged
  let a ← e.resolveVirtual s
  let x ← s.dataEntry a (.virtualData a)
  done s ((e.writeBack s).writeGr t (x.translate (s.usedOffset a.offset))) false

/-- read_access_allowed and write_access_allowed (21_translation.md R262). -/
def State.accessAllowed (s : State) (e : TlbEntry) (kind : AccessKind) (level : BitVec 2) : Bool :=
  rightsOk e.rights kind level && s.pidOk e.accessId kind

/-- PROBE and PROBEI (R724, R725): the level tested is the one the operand names, whatever the current level is (R724; 60_exceptions.md
R1050 e speaks of a bound; log entry 60). -/
def State.probeForm (s : State) (b : BitVec 5) (sr : BitVec 2) (kind : AccessKind) (level : BitVec 2) (t : BitVec 5) :
    Res Done := do
  let a ← (s.ea b 0 .none sr false).resolveVirtual s
  let e ← s.dataEntry a (.virtualData a)
  done s (s.writeGr t (if s.accessAllowed e kind level then 1 else 0)) false

/-! ### The instructions -/

def execFdcIndexed (b x : BitVec 5) (sr : BitVec 2) (m : BitVec 1) (s : State) :
    Host.Outcome State Fault Refusal :=
  complete s (s.fdcForm (s.mmEa b x sr m))

def execFdcShort (b im5 : BitVec 5) (sr : BitVec 2) (s : State) :
    Host.Outcome State Fault Refusal :=
  complete s (s.fdcForm (s.ea b (lowSignExt im5) .none sr false))

def execFdce (b x : BitVec 5) (sr : BitVec 2) (m : BitVec 1) (s : State) :
    Host.Outcome State Fault Refusal :=
  complete s (s.fdceForm (s.mmEa b x sr m))

def execFicExplicit (b x : BitVec 5) (sr : BitVec 3) (m : BitVec 1) (s : State) :
    Host.Outcome State Fault Refusal :=
  let e := s.mmEa b x 0#2 m
  complete s (s.cacheForm (s.ficForm e (e.inSpace s sr)))

def execFicImplicit (b x : BitVec 5) (sr : BitVec 2) (m : BitVec 1) (s : State) :
    Host.Outcome State Fault Refusal :=
  let e := s.mmEa b x sr m
  complete s (s.cacheForm (do let a ← e.resolveVirtual s; s.ficForm e a))

/-- FICE: no translation (R714); which lines it flushes is not visible. -/
def execFice (b x : BitVec 5) (_sr : BitVec 3) (m : BitVec 1) (s : State) :
    Host.Outcome State Fault Refusal :=
  complete s (s.cacheForm (done s ((s.mmEa b x 0#2 m).writeBack s) false))

def execPdc (b x : BitVec 5) (sr : BitVec 2) (m : BitVec 1) (s : State) :
    Host.Outcome State Fault Refusal :=
  complete s (s.pdcForm (s.mmEa b x sr m))

def execPdtlb (b x : BitVec 5) (sr : BitVec 2) (m : BitVec 1) (s : State) :
    Host.Outcome State Fault Refusal :=
  complete s (s.pdtlbForm (s.mmEa b x sr m))

def execPdtlbL (b x : BitVec 5) (sr : BitVec 2) (m : BitVec 1) (s : State) :
    Host.Outcome State Fault Refusal :=
  complete s (s.pdtlbForm (s.mmEa b x sr m))

def execPdtlbe (b x : BitVec 5) (sr : BitVec 2) (m : BitVec 1) (s : State) :
    Host.Outcome State Fault Refusal :=
  complete s (s.pdtlbeForm (s.mmEa b x sr m))

def execPitlb (b x : BitVec 5) (sr : BitVec 3) (m : BitVec 1) (s : State) :
    Host.Outcome State Fault Refusal :=
  let e := s.mmEa b x 0#2 m
  complete s (s.pitlbForm e (e.inSpace s sr))

def execPitlbL (b x : BitVec 5) (sr : BitVec 3) (m : BitVec 1) (s : State) :
    Host.Outcome State Fault Refusal :=
  let e := s.mmEa b x 0#2 m
  complete s (s.pitlbForm e (e.inSpace s sr))

def execPitlbe (b x : BitVec 5) (sr : BitVec 3) (m : BitVec 1) (s : State) :
    Host.Outcome State Fault Refusal :=
  let e := s.mmEa b x 0#2 m
  complete s (s.pitlbeForm e (e.inSpace s sr))

def execIdtlbt (r2 r1 : BitVec 5) (s : State) :
    Host.Outcome State Fault Refusal :=
  complete s (s.idtlbtForm r2 r1)

def execIitlbt (r2 r1 : BitVec 5) (s : State) :
    Host.Outcome State Fault Refusal :=
  complete s (s.iitlbtForm r2 r1)

def execLci (b x : BitVec 5) (sr : BitVec 2) (t : BitVec 5) (s : State) :
    Host.Outcome State Fault Refusal :=
  complete s (s.lciForm (s.mmEa b x sr 0#1) t)

def execLpa (b x : BitVec 5) (sr : BitVec 2) (m : BitVec 1) (t : BitVec 5) (s : State) :
    Host.Outcome State Fault Refusal :=
  complete s (s.lpaForm (s.mmEa b x sr m) t)

def execProbeR (b r : BitVec 5) (sr : BitVec 2) (t : BitVec 5) (s : State) :
    Host.Outcome State Fault Refusal :=
  complete s (s.probeForm b sr .read ((s.readGr r).extractLsb' 0 2) t)

def execProbeiR (b iv : BitVec 5) (sr : BitVec 2) (t : BitVec 5) (s : State) :
    Host.Outcome State Fault Refusal :=
  complete s (s.probeForm b sr .read (iv.extractLsb' 0 2) t)

def execProbeW (b r : BitVec 5) (sr : BitVec 2) (t : BitVec 5) (s : State) :
    Host.Outcome State Fault Refusal :=
  complete s (s.probeForm b sr .write ((s.readGr r).extractLsb' 0 2) t)

def execProbeiW (b iv : BitVec 5) (sr : BitVec 2) (t : BitVec 5) (s : State) :
    Host.Outcome State Fault Refusal :=
  complete s (s.probeForm b sr .write (iv.extractLsb' 0 2) t)

end Sys2Proof.Machine
end

