-- ==== Sys2Proof/Machine/Computation.lean ====
section
/-! DEFINITION. The computation instructions (43_computation.md) and LDO, LDIL, ADDIL (41_immediate.md). -/

namespace Sys2Proof.Machine

/-! ### Shared forms -/

/-- What an arithmetic instruction does besides its sum: trap on signed overflow, trap on condition, set C/B. -/
structure ArithKind where
  trapOverflow : Bool
  trapCondition : Bool
  setsCarries : Bool
deriving DecidableEq, Repr

/-- The end of an arithmetic instruction: its traps, then target, C/B and nullification (R543 to R548). -/
def State.arith (s : State) (k : ArithKind) (t : BitVec 5) (res : Dword) (carries : BitVec 16) (overflow cond : Bool) :
    Res Done :=
  if k.trapOverflow && overflow then .error (trapInstr .overflow)
  else if k.trapCondition && cond then .error (trapInstr .conditional)
  else done s (if k.setsCarries then (s.writeGr t res).setCarryBorrow carries else s.writeGr t res) cond

/-- An add or subtract, x + y + cin, with the arithmetic conditions (R544, R545, R547, R548). -/
def State.sumForm (s : State) (k : ArithKind) (x y : Dword) (cin : Bool) (c : BitVec 3) (f d : BitVec 1) (t : BitVec 5) :
    Res Done :=
  let r := sum x y cin
  s.arith k t r.res r.carries (r.overflow (isSet d)) (r.condition c (isSet f) (isSet d))

/-- The carry or borrow bit that d selects, PSW[C/B]{8} or {0} (R544, R547). -/
def State.carryIn (s : State) (d : BitVec 1) : Bool := bitAt s.carryBorrow (if isSet d then 0 else 8)

/-- ADD (R544). -/
def State.addForm (s : State) (k : ArithKind) (cin : Bool) (r2 r1 : BitVec 5) (c : BitVec 3) (f d : BitVec 1) (t : BitVec 5) :
    Res Done :=
  s.sumForm k (s.readGr r1) (s.readGr r2) cin c f d t

/-- SUB (R547). -/
def State.subForm (s : State) (k : ArithKind) (cin : Bool) (r2 r1 : BitVec 5) (c : BitVec 3) (f d : BitVec 1) (t : BitVec 5) :
    Res Done :=
  s.sumForm k (s.readGr r1) (~~~(s.readGr r2)) cin c f d t

/-- The sa bits shifted out of a word or doubleword, and the leftmost bit after the shift, all agree (R533, R546). -/
def shiftKeepsSign (x : Dword) (sa : Nat) (d : Bool) : Bool :=
  let top := if d then 0 else 32
  (List.range sa).all fun i => bitAt x (top + i) == bitAt x (top + sa)

/-- Some bit shifted out is 1 (R533, R546). -/
def shiftLosesOne (x : Dword) (sa : Nat) (d : Bool) : Bool :=
  let top := if d then 0 else 32
  (List.range sa).any fun i => bitAt x (top + i)

/-- Conditions of DS and SHLADD: r the sum, signed and unsigned overflow with their shift parts; when the shift itself
overflowed, conditions 2 and 3 are not predictable and `free` stands for them (R539). -/
def shiftedCondition (c : BitVec 3) (f d : Bool) (r : Sum) (shiftOverflow u free : Bool) : Bool :=
  if shiftOverflow && (c == 2#3 || c == 3#3) then free
  else baseCondition c (isZero d r.res) (isNegative d r.res) (shiftOverflow || r.overflow d) u (bitAt r.res 63) ^^ f

/-- Is the outcome of a condition of DS or SHLADD a free value (R539)? -/
def openCondition (c : BitVec 3) (shiftOverflow : Bool) : Bool := shiftOverflow && (c == 2#3 || c == 3#3)

/-- The state the free condition value, if one was needed, is drawn from. -/
def State.drawnIf (s : State) (b : Bool) : State := if b then s.drawn 1 else s

/-- SHLADD (R546). -/
def State.shladdForm (s : State) (k : ArithKind) (r2 r1 : BitVec 5) (c : BitVec 3) (f : BitVec 1) (sa : BitVec 2) (d : BitVec 1)
    (t : BitVec 5) : Res Done :=
  let x := s.readGr r1
  let r := sum (x <<< sa.toNat) (s.readGr r2) false
  let shiftOverflow := !(shiftKeepsSign x sa.toNat (isSet d))
  let u := !(shiftLosesOne x sa.toNat (isSet d) || r.carry (isSet d))
  let cond := shiftedCondition c (isSet f) (isSet d) r shiftOverflow u ((s.free 0).getLsbD 0)
  (s.drawnIf (openCondition c shiftOverflow)).arith k t r.res r.carries (shiftOverflow || r.overflow (isSet d)) cond

/-- DS (R551). -/
def State.dsForm (s : State) (r2 r1 : BitVec 5) (c : BitVec 3) (f : BitVec 1) (t : BitVec 5) : Res Done :=
  let a := s.readGr r1
  let b := s.readGr r2
  let opd := (a <<< 1) ||| (bitOf (bitAt s.carryBorrow 8)).zeroExtend 64
  let subtract := s.flag Psw.V
  let r := if subtract then sum opd (~~~b) true else sum opd b false
  let shiftOverflow := bitAt a 32 != bitAt opd 32
  let u := if subtract then bitAt a 32 || !(r.carry false) else !(bitAt a 32 || r.carry false)
  let cond := shiftedCondition c (isSet f) false r shiftOverflow u ((s.free 0).getLsbD 0)
  let s' := s.drawnIf (openCondition c shiftOverflow)
  done s' (((s'.writeGr t r.res).setCarryBorrow r.carries).setFlag Psw.V (bitAt r.carries 8 ^^ bitAt b 32)) cond

/-- AND, ANDCM, OR, XOR: a result, and a condition on it (R552 to R555). -/
def State.logicalForm (s : State) (res : Dword) (c : BitVec 3) (f d : BitVec 1) (t : BitVec 5) : Res Done :=
  done s (s.writeGr t res) (logicalCondition c (isSet f) (isSet d) res)

/-- CMPCLR and CMPICLR: the target cleared, the comparison x - y tested (R558, R559). -/
def State.compareClearForm (s : State) (x y : Dword) (c : BitVec 3) (f d : BitVec 1) (t : BitVec 5) : Res Done :=
  done s (s.writeGr t 0) ((sum x (~~~y) true).condition c (isSet f) (isSet d))

/-- UADDCM (R561). -/
def State.uaddcmForm (s : State) (trap : Bool) (r2 r1 : BitVec 5) (c : BitVec 3) (f d : BitVec 1) (t : BitVec 5) : Res Done :=
  let r := sum (s.readGr r1) (~~~(s.readGr r2)) false
  s.arith ⟨false, trap, false⟩ t r.res r.carries false (unitCondition c (isSet f) (isSet d) r.res r.carries)

/-- Sixteen digits, 6 where `bits` has a 1 (R562). -/
def sixes (bits : BitVec 16) : Dword :=
  (List.range 16).foldl (fun acc i => (acc <<< 4) ||| (if bitAt bits i then 6 else 0)) 0

/-- DCOR and DCOR,I (R562). -/
def State.dcorForm (s : State) (intermediate : Bool) (r : BitVec 5) (c : BitVec 3) (f d : BitVec 1) (t : BitVec 5) : Res Done :=
  let a := s.readGr r
  let q := if intermediate then sum a (sixes s.carryBorrow) false else sum a (~~~(sixes (~~~s.carryBorrow))) true
  done s (s.writeGr t q.res) (unitCondition c (isSet f) (isSet d) q.res q.carries)

/-! ### ADD, SUB (R544, R547) -/

def execAdd (r2 r1 : BitVec 5) (c : BitVec 3) (f d : BitVec 1) (t : BitVec 5) (s : State) : Host.Outcome State Fault Refusal :=
  complete s (s.addForm ⟨false, false, true⟩ false r2 r1 c f d t)

def execAddC (r2 r1 : BitVec 5) (c : BitVec 3) (f d : BitVec 1) (t : BitVec 5) (s : State) : Host.Outcome State Fault Refusal :=
  complete s (s.addForm ⟨false, false, true⟩ (s.carryIn d) r2 r1 c f d t)

def execAddL (r2 r1 : BitVec 5) (c : BitVec 3) (f d : BitVec 1) (t : BitVec 5) (s : State) : Host.Outcome State Fault Refusal :=
  complete s (s.addForm ⟨false, false, false⟩ false r2 r1 c f d t)

def execAddTsv (r2 r1 : BitVec 5) (c : BitVec 3) (f d : BitVec 1) (t : BitVec 5) (s : State) : Host.Outcome State Fault Refusal :=
  complete s (s.addForm ⟨true, false, true⟩ false r2 r1 c f d t)

def execAddCTsv (r2 r1 : BitVec 5) (c : BitVec 3) (f d : BitVec 1) (t : BitVec 5) (s : State) : Host.Outcome State Fault Refusal :=
  complete s (s.addForm ⟨true, false, true⟩ (s.carryIn d) r2 r1 c f d t)

def execSub (r2 r1 : BitVec 5) (c : BitVec 3) (f d : BitVec 1) (t : BitVec 5) (s : State) : Host.Outcome State Fault Refusal :=
  complete s (s.subForm ⟨false, false, true⟩ true r2 r1 c f d t)

def execSubTc (r2 r1 : BitVec 5) (c : BitVec 3) (f d : BitVec 1) (t : BitVec 5) (s : State) : Host.Outcome State Fault Refusal :=
  complete s (s.subForm ⟨false, true, true⟩ true r2 r1 c f d t)

def execSubB (r2 r1 : BitVec 5) (c : BitVec 3) (f d : BitVec 1) (t : BitVec 5) (s : State) : Host.Outcome State Fault Refusal :=
  complete s (s.subForm ⟨false, false, true⟩ (s.carryIn d) r2 r1 c f d t)

def execSubTsv (r2 r1 : BitVec 5) (c : BitVec 3) (f d : BitVec 1) (t : BitVec 5) (s : State) : Host.Outcome State Fault Refusal :=
  complete s (s.subForm ⟨true, false, true⟩ true r2 r1 c f d t)

def execSubTsvTc (r2 r1 : BitVec 5) (c : BitVec 3) (f d : BitVec 1) (t : BitVec 5) (s : State) : Host.Outcome State Fault Refusal :=
  complete s (s.subForm ⟨true, true, true⟩ true r2 r1 c f d t)

def execSubBTsv (r2 r1 : BitVec 5) (c : BitVec 3) (f d : BitVec 1) (t : BitVec 5) (s : State) : Host.Outcome State Fault Refusal :=
  complete s (s.subForm ⟨true, false, true⟩ (s.carryIn d) r2 r1 c f d t)

/-! ### SHLADD, DS (R546, R551) -/

def execShladd (r2 r1 : BitVec 5) (c : BitVec 3) (f : BitVec 1) (sa : BitVec 2) (d : BitVec 1) (t : BitVec 5) (s : State) :
    Host.Outcome State Fault Refusal :=
  complete s (s.shladdForm ⟨false, false, true⟩ r2 r1 c f sa d t)

def execShladdL (r2 r1 : BitVec 5) (c : BitVec 3) (f : BitVec 1) (sa : BitVec 2) (d : BitVec 1) (t : BitVec 5) (s : State) :
    Host.Outcome State Fault Refusal :=
  complete s (s.shladdForm ⟨false, false, false⟩ r2 r1 c f sa d t)

def execShladdTsv (r2 r1 : BitVec 5) (c : BitVec 3) (f : BitVec 1) (sa : BitVec 2) (d : BitVec 1) (t : BitVec 5) (s : State) :
    Host.Outcome State Fault Refusal :=
  complete s (s.shladdForm ⟨true, false, true⟩ r2 r1 c f sa d t)

def execDs (r2 r1 : BitVec 5) (c : BitVec 3) (f : BitVec 1) (t : BitVec 5) (s : State) : Host.Outcome State Fault Refusal :=
  complete s (s.dsForm r2 r1 c f t)

/-! ### Logical, compare and clear, unit (R552 to R562) -/

def execAnd (r2 r1 : BitVec 5) (c : BitVec 3) (f d : BitVec 1) (t : BitVec 5) (s : State) : Host.Outcome State Fault Refusal :=
  complete s (s.logicalForm (s.readGr r1 &&& s.readGr r2) c f d t)

def execAndcm (r2 r1 : BitVec 5) (c : BitVec 3) (f d : BitVec 1) (t : BitVec 5) (s : State) : Host.Outcome State Fault Refusal :=
  complete s (s.logicalForm (s.readGr r1 &&& ~~~(s.readGr r2)) c f d t)

def execOr (r2 r1 : BitVec 5) (c : BitVec 3) (f d : BitVec 1) (t : BitVec 5) (s : State) : Host.Outcome State Fault Refusal :=
  complete s (s.logicalForm (s.readGr r1 ||| s.readGr r2) c f d t)

def execXor (r2 r1 : BitVec 5) (c : BitVec 3) (f d : BitVec 1) (t : BitVec 5) (s : State) : Host.Outcome State Fault Refusal :=
  complete s (s.logicalForm (s.readGr r1 ^^^ s.readGr r2) c f d t)

def execCmpclr (r2 r1 : BitVec 5) (c : BitVec 3) (f d : BitVec 1) (t : BitVec 5) (s : State) : Host.Outcome State Fault Refusal :=
  complete s (s.compareClearForm (s.readGr r1) (s.readGr r2) c f d t)

def execUxor (r2 r1 : BitVec 5) (c : BitVec 3) (f d : BitVec 1) (t : BitVec 5) (s : State) : Host.Outcome State Fault Refusal :=
  let res := s.readGr r1 ^^^ s.readGr r2
  complete s (done s (s.writeGr t res) (unitCondition c (isSet f) (isSet d) res 0))

def execUaddcm (r2 r1 : BitVec 5) (c : BitVec 3) (f d : BitVec 1) (t : BitVec 5) (s : State) : Host.Outcome State Fault Refusal :=
  complete s (s.uaddcmForm false r2 r1 c f d t)

def execUaddcmTc (r2 r1 : BitVec 5) (c : BitVec 3) (f d : BitVec 1) (t : BitVec 5) (s : State) : Host.Outcome State Fault Refusal :=
  complete s (s.uaddcmForm true r2 r1 c f d t)

def execDcor (r : BitVec 5) (c : BitVec 3) (f d : BitVec 1) (t : BitVec 5) (s : State) : Host.Outcome State Fault Refusal :=
  complete s (s.dcorForm false r c f d t)

def execDcorI (r : BitVec 5) (c : BitVec 3) (f d : BitVec 1) (t : BitVec 5) (s : State) : Host.Outcome State Fault Refusal :=
  complete s (s.dcorForm true r c f d t)

/-! ### Immediate arithmetic (R545, R548, R559) -/

def execAddi (r t : BitVec 5) (c : BitVec 3) (f e1 : BitVec 1) (im11 : BitVec 11) (s : State) : Host.Outcome State Fault Refusal :=
  complete s (s.sumForm ⟨isSet e1, false, true⟩ (lowSignExt im11) (s.readGr r) false c f 0#1 t)

def execAddiTc (r t : BitVec 5) (c : BitVec 3) (f e1 : BitVec 1) (im11 : BitVec 11) (s : State) : Host.Outcome State Fault Refusal :=
  complete s (s.sumForm ⟨isSet e1, true, true⟩ (lowSignExt im11) (s.readGr r) false c f 0#1 t)

def execSubi (r t : BitVec 5) (c : BitVec 3) (f e1 : BitVec 1) (im11 : BitVec 11) (s : State) : Host.Outcome State Fault Refusal :=
  complete s (s.sumForm ⟨isSet e1, false, true⟩ (lowSignExt im11) (~~~(s.readGr r)) true c f 0#1 t)

def execCmpiclr (r t : BitVec 5) (c : BitVec 3) (f d : BitVec 1) (im11 : BitVec 11) (s : State) : Host.Outcome State Fault Refusal :=
  complete s (s.compareClearForm (lowSignExt im11) (s.readGr r) c f d t)

/-! ### LDO, LDIL, ADDIL (41_immediate.md R460 to R462) -/

def execLdo (b t : BitVec 5) (iv : BitVec 2) (im14 : BitVec 14) (s : State) : Host.Outcome State Fault Refusal :=
  complete s (done s (s.writeGr t (s.readGr b + s.disp14 iv im14)) false)

def execLdil (t : BitVec 5) (im21 : BitVec 21) (s : State) : Host.Outcome State Fault Refusal :=
  complete s (done s (s.writeGr t (leftImmediate im21)) false)

def execAddil (r : BitVec 5) (im21 : BitVec 21) (s : State) : Host.Outcome State Fault Refusal :=
  complete s (done s (s.writeGr 1#5 (leftImmediate im21 + s.readGr r)) false)

end Sys2Proof.Machine
end

