-- ==== Sys2Proof/Machine/FloatLoadStore.lean ====
section
/-! DEFINITION. The floating-point coprocessor's enabling, its Status Register, and the floating-point loads and stores
(49_floating_point.md R818, R821; 50_fp_instructions.md R871 to R875; 51_fp_exceptions.md R941, R960). -/

namespace Sys2Proof.Machine

/-! ### Enabling (R756, R818) -/

/-- CCR{0} and CCR{1} differ: every floating-point instruction is undefined (R756). -/
def State.fpMixed (s : State) : Bool := s.coprEnabled 0#3 != s.coprEnabled 1#3

/-- CCR{0..1} = 0: every floating-point instruction takes the assist emulation trap (R818). -/
def State.fpOff (s : State) : Bool := !(s.coprEnabled 0#3) && !(s.coprEnabled 1#3)

/-! ### The Status Register, FPR[0]{0..31} (R821, D25) -/

namespace Fpsr
/-- Bit numbers of the Status Register, which are those of FPR[0] (R821). -/
def C : Nat := 5
def T : Nat := 25
def D : Nat := 26
/-- The undefined bits {6..9} and {23..24} as FPR[0] holds them (R821, R830). -/
def undefinedBits : Dword := 0x03C0018000000000
end Fpsr

/-- The delayed trap bit (R828). -/
def State.fpTrap (s : State) : Bool := bitAt (s.readFpr 0#5) Fpsr.T

/-- The state with the delayed trap bit set to `v` (R828). -/
def State.setFpTrap (s : State) (v : Bool) : State := s.writeFpr 0#5 (withBit (s.readFpr 0#5) Fpsr.T v)

/-- FPR[r] as a store reads it: in register 0 the undefined bits are any value and the unimplemented D bit is 0 (R829,
R830; 00_scope.md R19). An exception register reads as it was written (51_fp_exceptions.md R932), its field ei too when its code is "no
exception", where R933 calls that field undefined. DESIGN CHOICE, log entry 63. -/
def State.fpStored (s : State) (r : BitVec 5) : Dword :=
  if r = 0#5 then
    withBit ((s.readFpr 0#5 &&& ~~~Fpsr.undefinedBits) ||| (s.free 0 &&& Fpsr.undefinedBits)) Fpsr.D
      (Config.fpDBit && bitAt (s.readFpr 0#5) Fpsr.D)
  else s.readFpr r

/-- The state after `fpStored`: a free value is drawn for register 0. -/
def State.fpStoredFrom (s : State) (r : BitVec 5) : State := if r = 0#5 then s.drawn 1 else s

/-! ### What a floating-point instruction leaves for the next (50_fp_instructions.md R880, R898) -/

/-- The state after a floating-point instruction, its place beside FID noted (R880). -/
def State.fpDid (s : State) (q : FpSequence) : State := { s with fpSequence := q }

/-- The state after a load of register `r`: the Status Register's compare results are all defined (R898), and a doubleword load of
register 0 ends a restore (R880; 51_fp_exceptions.md R962). -/
def State.fpLoaded (s : State) (r : BitVec 5) (double : Bool) : State :=
  if r = 0#5 then { s with fpQueue := 12, fpArray := 0x7F, fpSequence := if double then .stored else .other } else s.fpDid .other

/-- FID has executed, and the next floating-point instruction is no doubleword store of register 0 (R880). -/
def State.fpAfterFid (s : State) : Bool := s.fpSequence = .identified

/-! ### Halves (10_state.md R81; 49_floating_point.md R805) -/

/-- The half of a register that the L/R bit names. -/
def half (h : BitVec 1) (v : Dword) : BitVec 32 := if h = 0#1 then v.extractLsb' 32 32 else v.extractLsb' 0 32

/-- The register with one half replaced. -/
def withHalf (h : BitVec 1) (v : Dword) (w : BitVec 32) : Dword :=
  if h = 0#1 then w ++ v.extractLsb' 0 32 else v.extractLsb' 32 32 ++ w

/-! ### Loads and stores -/

/-- A word load or store of 0R or of an exception register's half 1L to 3R is undefined (R871, R873). -/
def fpWordRegister (r : BitVec 5) (h : BitVec 1) : Bool := r.toNat ≥ 4 || (r == 0#5 && h == 0#1)

/-- What comes before a floating-point load or store's access: a mixed configuration is undefined; then with the
coprocessor on a use between FID and the doubleword store of register 0, the delayed trap, unless the instruction cancels it, and the
undefined registers; then the data reference's checks; with the coprocessor off the emulation trap, last as R758 has it, where R875 has
it first (48_assist_sfu_copr.md R758, 60_exceptions.md R1037; 50_fp_instructions.md R875; log entry 27). -/
def State.fpReference (s : State) (k : RefKind) (e : Ea) (size : Nat) (cancels allowed : Bool) : Res Place := do
  if s.fpMixed then .error (.refuse .mixedFpEnable)
  if !s.fpOff && s.fpAfterFid && !cancels then .error (.refuse .fpIdentifyAlone)
  if !s.fpOff && s.fpTrap && !cancels then .error (trapInstr .assistException)
  if !s.fpOff && !allowed then .error (.refuse .fpExceptionWord)
  let a ← e.resolve s
  let p ← s.check k a size
  if s.fpOff then .error (.trap .assistEmulation (.data a)) else .ok p

/-- FLDW (R871). -/
def State.fpLoadWord (s : State) (e : Ea) (t : BitVec 5) (h : BitVec 1) : Res Done := do
  let p ← s.fpReference .load e 4 false (fpWordRegister t h)
  let v ← s.loadAt p.pa 4
  if t = 0#5 && bitAt v (32 + Fpsr.T) then .error (.refuse .fpLoadOfTrapBit)
  done s (((e.writeBack s).writeFpr t (withHalf h (s.readFpr t) (v.extractLsb' 0 32))).fpLoaded t false) false

/-- FLDD (R872). A Status Register with T = 1 is loaded whatever the exception registers hold, and the delayed trap is taken at the next
instruction of the unit also when all of them are 0, a state that 70_reset_and_hazards.md R1117 e calls undefined. DESIGN CHOICE, log
entry 61. -/
def State.fpLoadDouble (s : State) (e : Ea) (t : BitVec 5) : Res Done := do
  let p ← s.fpReference .load e 8 false true
  let v ← s.loadAt p.pa 8
  done s (((e.writeBack s).writeFpr t v).fpLoaded t true) false

/-- FSTW (R873). -/
def State.fpStoreWord (s : State) (e : Ea) (r : BitVec 5) (h : BitVec 1) : Res Done := do
  let p ← s.fpReference .store e 4 false (fpWordRegister r h)
  let s' ← (s.fpStoredFrom r).storeAt p.pa 4 ((half h (s.fpStored r)).zeroExtend 64)
  done s ((e.writeBack s').fpDid .other) false

/-- FSTD; of register 0 it executes with T = 1 and clears T after the store (R874). -/
def State.fpStoreDouble (s : State) (e : Ea) (r : BitVec 5) : Res Done := do
  let p ← s.fpReference .store e 8 (r = 0#5) true
  let s' ← (s.fpStoredFrom r).storeAt p.pa 8 (s.fpStored r)
  let s'' := e.writeBack s'
  done s (if r = 0#5 then (s''.setFpTrap false).fpDid .stored else s''.fpDid .other) false

/-- Format 44's completer: MB with a = 1, MA with a = 0 (R871). -/
def longMod (a : BitVec 1) : Modify := if a = 1#1 then .before else .after

/-! ### The instructions -/

def execFldwLong (b t : BitVec 5) (sr : BitVec 2) (im11a : BitVec 11) (h iv : BitVec 1) (s : State) :
    Host.Outcome State Fault Refusal :=
  complete s (s.fpLoadWord (s.fpLongEa b sr im11a iv .none) t h)

def execFldwLongMod (b t : BitVec 5) (sr : BitVec 2) (im11a : BitVec 11) (a h iv : BitVec 1) (s : State) :
    Host.Outcome State Fault Refusal :=
  complete s (s.fpLoadWord (s.fpLongEa b sr im11a iv (longMod a)) t h)

def execFldwShort (b im5 : BitVec 5) (sr : BitVec 2) (a : BitVec 1) (_cc : BitVec 2) (h m : BitVec 1) (t : BitVec 5) (s : State) :
    Host.Outcome State Fault Refusal :=
  complete s (s.fpLoadWord (s.shortEa b im5 sr a m) t h)

def execFldwIndexed (b x : BitVec 5) (sr : BitVec 2) (u : BitVec 1) (_cc : BitVec 2) (h m : BitVec 1) (t : BitVec 5) (s : State) :
    Host.Outcome State Fault Refusal :=
  complete s (s.fpLoadWord (s.indexedEa b x sr u m 2) t h)

def execFstwLong (b r : BitVec 5) (sr : BitVec 2) (im11a : BitVec 11) (h iv : BitVec 1) (s : State) :
    Host.Outcome State Fault Refusal :=
  complete s (s.fpStoreWord (s.fpLongEa b sr im11a iv .none) r h)

def execFstwLongMod (b r : BitVec 5) (sr : BitVec 2) (im11a : BitVec 11) (a h iv : BitVec 1) (s : State) :
    Host.Outcome State Fault Refusal :=
  complete s (s.fpStoreWord (s.fpLongEa b sr im11a iv (longMod a)) r h)

def execFstwShort (b im5 : BitVec 5) (sr : BitVec 2) (a : BitVec 1) (_cc : BitVec 2) (h m : BitVec 1) (r : BitVec 5) (s : State) :
    Host.Outcome State Fault Refusal :=
  complete s (s.fpStoreWord (s.shortEa b im5 sr a m) r h)

def execFstwIndexed (b x : BitVec 5) (sr : BitVec 2) (u : BitVec 1) (_cc : BitVec 2) (h m : BitVec 1) (r : BitVec 5) (s : State) :
    Host.Outcome State Fault Refusal :=
  complete s (s.fpStoreWord (s.indexedEa b x sr u m 2) r h)

def execFlddLong (b t : BitVec 5) (sr : BitVec 2) (im10a : BitVec 10) (m a iv : BitVec 1) (s : State) :
    Host.Outcome State Fault Refusal :=
  complete s (s.fpLoadDouble (s.long10Ea b sr im10a m a iv) t)

def execFlddShort (b im5 : BitVec 5) (sr : BitVec 2) (a : BitVec 1) (_cc : BitVec 2) (m : BitVec 1) (t : BitVec 5) (s : State) :
    Host.Outcome State Fault Refusal :=
  complete s (s.fpLoadDouble (s.shortEa b im5 sr a m) t)

def execFlddIndexed (b x : BitVec 5) (sr : BitVec 2) (u : BitVec 1) (_cc : BitVec 2) (m : BitVec 1) (t : BitVec 5) (s : State) :
    Host.Outcome State Fault Refusal :=
  complete s (s.fpLoadDouble (s.indexedEa b x sr u m 3) t)

def execFstdLong (b r : BitVec 5) (sr : BitVec 2) (im10a : BitVec 10) (m a iv : BitVec 1) (s : State) :
    Host.Outcome State Fault Refusal :=
  complete s (s.fpStoreDouble (s.long10Ea b sr im10a m a iv) r)

def execFstdShort (b im5 : BitVec 5) (sr : BitVec 2) (a : BitVec 1) (_cc : BitVec 2) (m : BitVec 1) (r : BitVec 5) (s : State) :
    Host.Outcome State Fault Refusal :=
  complete s (s.fpStoreDouble (s.shortEa b im5 sr a m) r)

def execFstdIndexed (b x : BitVec 5) (sr : BitVec 2) (u : BitVec 1) (_cc : BitVec 2) (m : BitVec 1) (r : BitVec 5) (s : State) :
    Host.Outcome State Fault Refusal :=
  complete s (s.fpStoreDouble (s.indexedEa b x sr u m 3) r)

end Sys2Proof.Machine
end

