-- ==== Sys2Proof/Machine/Float.lean ====
section
/-! DEFINITION. Floating-point formats, exact arithmetic and rounding, and the result procedure (49_floating_point.md
sections 3 and 10; 51_fp_exceptions.md section 6). A bit pattern is a natural number; a finite value is a sign, a natural
mantissa and an integer exponent, so every result is computed exactly and narrowed once. -/

namespace Sys2Proof.Machine

/-! ### Formats (R810 to R813) -/

/-- A floating-point format by its precision p, its exponent width, and its bias adjustment (R811). -/
structure Fmt where
  p : Nat
  ew : Nat
  adjust : Nat
deriving DecidableEq, Repr

/-- The data sizes of Tables 8-10 and 8-11 (R839, R840). -/
inductive FpSize where
  | single
  | double
  | quad
deriving DecidableEq, Repr

/-- The size a two-bit format code names; code 2 is no instruction (R839). -/
def sizeOf2 (c : BitVec 2) : FpSize := if c = 0#2 then .single else if c = 1#2 then .double else .quad

/-- The size a one-bit format code names (R839, R845). -/
def sizeOf1 (f : BitVec 1) : FpSize := if f = 0#1 then .single else .double

/-- The width in bits. -/
def FpSize.bits (z : FpSize) : Nat :=
  match z with
  | .single => 32
  | .double => 64
  | .quad => 128

/-- Table 8-3 (R811). -/
def FpSize.fmt (z : FpSize) : Fmt :=
  match z with
  | .single => ⟨24, 8, 192⟩
  | .double => ⟨53, 11, 1536⟩
  | .quad => ⟨113, 15, 24576⟩

/-- Emax, which is also the bias (R811). -/
def Fmt.emax (f : Fmt) : Int := 2 ^ (f.ew - 1) - 1

/-- Emin (R811). -/
def Fmt.emin (f : Fmt) : Int := 1 - f.emax

/-- The exponent field of infinities and NaNs. -/
def Fmt.topExponent (f : Fmt) : Nat := 2 ^ f.ew - 1

/-- The sign bit of a pattern. -/
def Fmt.negative (f : Fmt) (w : Nat) : Bool := w.testBit (f.p - 1 + f.ew)

/-- The exponent field. -/
def Fmt.exponent (f : Fmt) (w : Nat) : Nat := (w >>> (f.p - 1)) % 2 ^ f.ew

/-- The fraction field. -/
def Fmt.fraction (f : Fmt) (w : Nat) : Nat := w % 2 ^ (f.p - 1)

/-- A pattern from its fields. -/
def Fmt.assemble (f : Fmt) (neg : Bool) (exponent fraction : Nat) : Nat :=
  ((neg.toNat <<< f.ew) + exponent) <<< (f.p - 1) ||| fraction

/-- The value of a bit pattern (R812): (-1)^neg · m · 2^e when finite. -/
inductive FpVal where
  | nan
  | inf (neg : Bool)
  | fin (neg : Bool) (m : Nat) (e : Int)
deriving DecidableEq, Repr

/-- R812. -/
def Fmt.value (f : Fmt) (w : Nat) : FpVal :=
  let x := f.exponent w
  let y := f.fraction w
  if x = f.topExponent then (if y = 0 then .inf (f.negative w) else .nan)
  else if x = 0 then .fin (f.negative w) y (f.emin - (f.p - 1))
  else .fin (f.negative w) (y + 2 ^ (f.p - 1)) (x - f.emax - (f.p - 1))

/-- A NaN (R812). -/
def Fmt.isNan (f : Fmt) (w : Nat) : Bool := f.exponent w == f.topExponent && f.fraction w != 0

/-- A signaling NaN: the leftmost fraction bit is 1 (R813). -/
def Fmt.isSignaling (f : Fmt) (w : Nat) : Bool := f.isNan w && (f.fraction w).testBit (f.p - 2)

/-- A zero of either sign. -/
def Fmt.zero (f : Fmt) (neg : Bool) : Nat := f.assemble neg 0 0

/-- An infinity. -/
def Fmt.infinity (f : Fmt) (neg : Bool) : Nat := f.assemble neg f.topExponent 0

/-- The largest finite number of either sign. -/
def Fmt.largest (f : Fmt) (neg : Bool) : Nat := f.assemble neg (f.topExponent - 1) (2 ^ (f.p - 1) - 1)

/-- The quiet NaN made when no operand is a NaN (R856, D31). -/
def Fmt.newNan (f : Fmt) : Nat := f.assemble false f.topExponent (2 ^ (f.p - 3))

/-- Quieting: b1 cleared, b2 set if nothing else is, or by the implementation's option (R854, D30). -/
def Fmt.quiet (f : Fmt) (w : Nat) : Nat :=
  let y := f.fraction w % 2 ^ (f.p - 2)
  f.assemble (f.negative w) f.topExponent (if y = 0 || Config.fpQuietSetsB2 then y ||| 2 ^ (f.p - 3) else y)

/-! ### Rounding (R850, R851) -/

/-- 2^i, 0 for a negative exponent's use as a shift count. -/
def pow2 (i : Int) : Nat := 2 ^ i.toNat

/-- m · 2^e is a multiple of 2^q. -/
def exactAt (m : Nat) (e q : Int) : Bool := q ≤ e || m % pow2 (q - e) == 0

/-- Does rounding mode `rm` round the magnitude up, given the integer part's parity and twice the remainder against 2^n? (R851) -/
def roundsUp (rm : BitVec 2) (neg odd : Bool) (rest half2 : Nat) : Bool :=
  match rm.toNat with
  | 0 => decide (half2 < 2 * rest) || (2 * rest == half2 && odd)
  | 1 => false
  | 2 => rest != 0 && !neg
  | _ => rest != 0 && neg

/-- m · 2^e rounded to a multiple of 2^q: the multiplier (R851). -/
def roundAt (rm : BitVec 2) (neg : Bool) (m : Nat) (e q : Int) : Nat :=
  if q ≤ e then m * pow2 (e - q)
  else
    let unit := pow2 (q - e)
    m / unit + (roundsUp rm neg (m / unit % 2 == 1) (m % unit) unit).toNat

/-- The value k · 2^q as a normalized number of the format (k not 0, of at most p significant bits). -/
def Fmt.pack (f : Fmt) (neg : Bool) (k : Nat) (q : Int) : Nat :=
  let n := k.log2
  let m := if n ≤ f.p - 1 then k <<< (f.p - 1 - n) else k >>> (n - (f.p - 1))
  f.assemble neg ((n : Int) + q + f.emax).toNat (m % 2 ^ (f.p - 1))

/-! ### How an operation ends (R943, R944, R956) -/

/-- The rounding mode and the trap enables of the Status Register (R822, R823). -/
structure FpEnv where
  rm : BitVec 2
  enables : BitVec 5
deriving DecidableEq, Repr

/-- The exceptions, in the order of the flag and enable bits (R821). -/
def fpV : BitVec 5 := 0b10000
def fpZ : BitVec 5 := 0b01000
def fpO : BitVec 5 := 0b00100
def fpU : BitVec 5 := 0b00010
def fpI : BitVec 5 := 0b00001

/-- The trap of an exception is enabled (R931, D32). -/
def FpEnv.traps (env : FpEnv) (x : BitVec 5) : Bool :=
  env.enables &&& x != 0#5 || (x == fpO && Config.fpAlwaysTrapOverflow) || (x == fpU && Config.fpAlwaysTrapUnderflow)

/-- What an operation delivers. -/
inductive Delivery where
  /-- It completes: the destination's bits and the flags it sets. -/
  | value (bits : Nat) (flags : BitVec 5)
  /-- A delayed trap: the exception code, the destination's bits if one is delivered, the flags of exceptions whose traps
  are disabled. -/
  | trapped (code : BitVec 6) (bits : Option Nat) (flags : BitVec 5)
  /-- An unimplemented exception (R947). -/
  | unimplemented
deriving DecidableEq, Repr

/-- A result with an exception set `x` of which only inexact may trap, as R956 ends its untrapped branches. -/
def FpEnv.inexactly (env : FpEnv) (bits : Nat) (x : BitVec 5) : Delivery :=
  if env.traps fpI then .trapped 0b000010#6 (some bits) x else .value bits (x ||| fpI)

/-- An invalid operation whose untrapped result is `bits` (R950). -/
def FpEnv.invalid (env : FpEnv) (bits : Nat) : Delivery := if env.traps fpV then .trapped 0b100000#6 none 0#5 else .value bits fpV

/-- The untrapped result of an overflow (R954). -/
def Fmt.overflowValue (f : Fmt) (rm : BitVec 2) (neg : Bool) : Nat :=
  match rm.toNat with
  | 0 => f.infinity neg
  | 1 => f.largest neg
  | 2 => if neg then f.largest true else f.infinity false
  | _ => if neg then f.infinity true else f.largest false

/-- The code of a trapped underflow: RA, I, and the inexact bit when that trap is enabled too (R955, D37). -/
def underflowCode (away inexact both : Bool) : BitVec 6 := bitOf away ++ bitOf inexact ++ 0b01#2 ++ bitOf both ++ 0#1

/-- The overflow branch of R956; k · 2^q is the rounded result, of exponent `eu`. -/
def Fmt.deliverOverflow (f : Fmt) (env : FpEnv) (conversion neg inexact : Bool) (k : Nat) (q eu : Int) : Delivery :=
  if env.traps fpO then
    if conversion && decide (f.emax + f.adjust + 1 ≤ eu) then .unimplemented
    else
      .trapped (if inexact && env.traps fpI then 0b001010#6 else 0b001000#6) (some (f.pack neg k (q - f.adjust)))
        (if inexact && !(env.traps fpI) then fpI else 0#5)
  else env.inexactly (f.overflowValue env.rm neg) fpO

/-- The tiny branch of R956; m · 2^e is the exact result and k · 2^q the rounded one, of exponent `eu`. -/
def Fmt.deliverTiny (f : Fmt) (env : FpEnv) (conversion neg inexact : Bool) (m : Nat) (e : Int) (k : Nat) (q eu : Int) :
    Delivery :=
  if env.traps fpU then
    if conversion && decide (eu < f.emin - f.adjust) then .unimplemented
    else
      .trapped (underflowCode (inexact && decide (m / pow2 (q - e) < k)) inexact (inexact && env.traps fpI))
        (some (f.pack neg k (q + f.adjust))) (if inexact && !(env.traps fpI) then fpI else 0#5)
  else
    let grid := f.emin - (f.p - 1)
    let d := f.zero neg + roundAt env.rm neg m e grid
    if exactAt m e grid then .value d 0#5 else env.inexactly d fpU

/-- `deliver`, R956: the exact non-zero result (-1)^neg · m · 2^e rounded into the format. -/
def Fmt.deliver (f : Fmt) (env : FpEnv) (conversion neg : Bool) (m : Nat) (e : Int) : Delivery :=
  let q := (m.log2 : Int) + 1 + e - f.p
  let k := roundAt env.rm neg m e q
  let inexact := !(exactAt m e q)
  let eu := (k.log2 : Int) + q
  if f.emax < eu then f.deliverOverflow env conversion neg inexact k q eu
  else if eu < f.emin then f.deliverTiny env conversion neg inexact m e k q eu
  else if inexact then env.inexactly (f.pack neg k q) 0#5
  else .value (f.pack neg k q) 0#5

/-- `deliver`, or an exact zero of the given sign (R857). -/
def Fmt.deliverOrZero (f : Fmt) (env : FpEnv) (conversion neg zeroNeg : Bool) (m : Nat) (e : Int) : Delivery :=
  if m = 0 then .value (f.zero zeroNeg) 0#5 else f.deliver env conversion neg m e

/-- The result when an operand is a NaN: the first signaling one quieted, else the first quiet one (R854, R899). -/
def Fmt.nanResult (f : Fmt) (env : FpEnv) (ops : List Nat) : Option Delivery :=
  match ops.find? f.isSignaling with
  | some w => some (env.invalid (f.quiet w))
  | none => (ops.find? f.isNan).map fun w => .value w 0#5

/-! ### The arithmetic (R885, R886, R899 to R909) -/

/-- The sum of two finite values, exactly: sign, magnitude and exponent; a zero takes the sign R857 gives it. -/
def exactSum (rm : BitVec 2) (n1 : Bool) (m1 : Nat) (e1 : Int) (n2 : Bool) (m2 : Nat) (e2 : Int) : Bool × Nat × Int :=
  let e := min e1 e2
  let a : Int := m1 * pow2 (e1 - e)
  let b : Int := m2 * pow2 (e2 - e)
  let v := (if n1 then -a else a) + (if n2 then -b else b)
  (if v = 0 then (if n1 = n2 then n1 else rm == 3#2) else decide (v < 0), v.natAbs, e)

/-- A sum of non-NaN values (R900). -/
def Fmt.sumOf (f : Fmt) (env : FpEnv) (x y : FpVal) : Delivery :=
  match x, y with
  | .inf n1, .inf n2 => if n1 = n2 then .value (f.infinity n1) 0#5 else env.invalid f.newNan
  | .inf n, _ => .value (f.infinity n) 0#5
  | _, .inf n => .value (f.infinity n) 0#5
  | .fin n1 m1 e1, .fin n2 m2 e2 =>
    let v := exactSum env.rm n1 m1 e1 n2 m2 e2
    f.deliverOrZero env false v.1 v.1 v.2.1 v.2.2
  | _, _ => .value f.newNan 0#5

/-- A value with the other sign. -/
def FpVal.negate (x : FpVal) : FpVal :=
  match x with
  | .nan => .nan
  | .inf n => .inf !n
  | .fin n m e => .fin (!n) m e

/-- The exact product of non-NaN values; nothing for 0 · ∞ (R902). -/
def FpVal.times (x y : FpVal) : Option FpVal :=
  match x, y with
  | .fin n1 m1 e1, .fin n2 m2 e2 => some (.fin (n1 ^^ n2) (m1 * m2) (e1 + e2))
  | .inf n1, .inf n2 => some (.inf (n1 ^^ n2))
  | .inf n1, .fin n2 m _ => if m = 0 then none else some (.inf (n1 ^^ n2))
  | .fin n1 m _, .inf n2 => if m = 0 then none else some (.inf (n1 ^^ n2))
  | _, _ => some .nan

/-- FADD (R900). -/
def Fmt.add (f : Fmt) (env : FpEnv) (a b : Nat) : Delivery :=
  (f.nanResult env [a, b]).getD (f.sumOf env (f.value a) (f.value b))

/-- FSUB: x + (-y), a NaN unchanged (R901). -/
def Fmt.sub (f : Fmt) (env : FpEnv) (a b : Nat) : Delivery :=
  (f.nanResult env [a, b]).getD (f.sumOf env (f.value a) (f.value b).negate)

/-- FMPY (R902). -/
def Fmt.mul (f : Fmt) (env : FpEnv) (a b : Nat) : Delivery :=
  (f.nanResult env [a, b]).getD <|
    match (f.value a).times (f.value b) with
    | some (.inf n) => .value (f.infinity n) 0#5
    | some (.fin n m e) => f.deliverOrZero env false n n m e
    | _ => env.invalid f.newNan

/-- The quotient of two non-zero mantissas to more than p + 1 bits, the remainder kept as a last bit that is 1 when it is
not 0, so that every rounding of it is that of the exact quotient. -/
def quotient (p m1 m2 : Nat) : Nat × Int :=
  let k := p + 3 + m2.log2
  let x := m1 <<< k
  (2 * (x / m2) + (if x % m2 = 0 then 0 else 1), -(k : Int) - 1)

/-- FDIV (R903, R952). -/
def Fmt.div (f : Fmt) (env : FpEnv) (a b : Nat) : Delivery :=
  (f.nanResult env [a, b]).getD <|
    match f.value a, f.value b with
    | .inf _, .inf _ => env.invalid f.newNan
    | .inf n1, .fin n2 _ _ => .value (f.infinity (n1 ^^ n2)) 0#5
    | .fin n1 _ _, .inf n2 => .value (f.zero (n1 ^^ n2)) 0#5
    | .fin n1 m1 e1, .fin n2 m2 e2 =>
      if m2 = 0 then
        if m1 = 0 then env.invalid f.newNan
        else if env.traps fpZ then .trapped 0b010000#6 none 0#5
        else .value (f.infinity (n1 ^^ n2)) fpZ
      else if m1 = 0 then .value (f.zero (n1 ^^ n2)) 0#5
      else
        let v := quotient f.p m1 m2
        f.deliver env false (n1 ^^ n2) v.1 (e1 - e2 + v.2)
    | _, _ => .value f.newNan 0#5

/-- The integer square root of x, its bits found from bit `n` down. -/
def isqrt (n x : Nat) (acc : Nat) : Nat :=
  match n with
  | 0 => if (acc + 1) * (acc + 1) ≤ x then acc + 1 else acc
  | n + 1 =>
    let c := acc + 2 ^ (n + 1)
    isqrt n x (if c * c ≤ x then c else acc)

/-- The square root of m · 2^e, e even, to more than p + 1 bits, with the remainder as in `quotient`. -/
def squareRoot (p m : Nat) (e : Int) : Nat × Int :=
  let k := p + 3
  let x := m <<< (2 * k)
  let r := isqrt (x.log2 / 2 + 1) x 0
  (2 * r + (if r * r = x then 0 else 1), e / 2 - k - 1)

/-- FSQRT (R885). -/
def Fmt.sqrt (f : Fmt) (env : FpEnv) (a : Nat) : Delivery :=
  (f.nanResult env [a]).getD <|
    match f.value a with
    | .inf neg => if neg then env.invalid f.newNan else .value a 0#5
    | .fin neg m e =>
      if m = 0 then .value a 0#5
      else if neg then env.invalid f.newNan
      else
        let v := if e % 2 = 0 then squareRoot f.p m e else squareRoot f.p (2 * m) (e - 1)
        f.deliver env false false v.1 v.2
    | .nan => .value a 0#5

/-- FRND: a zero result keeps the operand's sign (R886). -/
def Fmt.round (f : Fmt) (env : FpEnv) (a : Nat) : Delivery :=
  (f.nanResult env [a]).getD <|
    match f.value a with
    | .fin neg m e =>
      if exactAt m e 0 then .value a 0#5
      else
        let k := roundAt env.rm neg m e 0
        env.inexactly (if k = 0 then f.zero neg else f.pack neg k 0) 0#5
    | _ => .value a 0#5

/-- FMPYFADD and FMPYNFADD, one rounding; NaNs in the order rm1, rm2, ra (R908, R909). With a quiet NaN in ra a product of 0 and
infinity is not looked at: the NaN is the result and nothing is signaled (49_floating_point.md R854). DEDUCED, log entry 59. -/
def Fmt.fused (f : Fmt) (env : FpEnv) (negate : Bool) (a b c : Nat) : Delivery :=
  (f.nanResult env [a, b, c]).getD <|
    match (f.value a).times (f.value b) with
    | none => env.invalid f.newNan
    | some v => f.sumOf env (if negate then v.negate else v) (f.value c)

/-! ### Conversions (R889 to R895) -/

/-- A NaN's fraction in another format (R856). -/
def convertNan (f g : Fmt) (w : Nat) : Nat :=
  let y := if g.p ≤ f.p then f.fraction w >>> (f.p - g.p) else f.fraction w <<< (g.p - f.p)
  g.assemble (f.negative w) g.topExponent (if y = 0 then 2 ^ (g.p - 3) else y)

/-- Floating-point to floating-point (R889). -/
def convertFloat (f g : Fmt) (env : FpEnv) (a : Nat) : Delivery :=
  match f.value a with
  | .nan => if f.isSignaling a then env.invalid (convertNan f g (f.quiet a)) else .value (convertNan f g a) 0#5
  | .inf neg => .value (g.infinity neg) 0#5
  | .fin neg m e => g.deliverOrZero env true neg neg m e

/-- Fixed-point to floating-point; `beyond` stands for the result the spec does not state, when an unsigned quad-word does
not fit the single format (R890, R893; 93_implementation_defined.md section 3). -/
def convertInteger (g : Fmt) (env : FpEnv) (v : Int) (beyond : Nat) : Delivery :=
  let m := v.natAbs
  let q := (m.log2 : Int) + 1 - g.p
  if v ≠ 0 ∧ g.emax < ((roundAt env.rm (decide (v < 0)) m 0 q).log2 : Int) + q then .value beyond 0#5
  else g.deliverOrZero env true (decide (v < 0)) false m 0

/-- The integers of a fixed-point format of `n` bits (R951). -/
def integerRange (signed : Bool) (n : Nat) : Int × Int :=
  if signed then (-(2 ^ (n - 1)), 2 ^ (n - 1) - 1) else (0, 2 ^ n - 1)

/-- An integer's bits in `n` bits. -/
def integerBits (n : Nat) (v : Int) : Nat := (v % 2 ^ n).toNat

/-- Floating-point to fixed-point, by the rounding mode `rm` (R891, R892, R894, R895, R948 item 3, R951). -/
def convertToInteger (f : Fmt) (env : FpEnv) (rm : BitVec 2) (signed : Bool) (n : Nat) (a : Nat) : Delivery :=
  let range := integerRange signed n
  match f.value a with
  | .nan => .unimplemented
  | .inf neg => env.invalid (integerBits n (if neg then range.1 else range.2))
  | .fin neg m e =>
    let k : Int := roundAt rm neg m e 0
    let v := if neg then -k else k
    if v < range.1 then env.invalid (integerBits n range.1)
    else if range.2 < v then env.invalid (integerBits n range.2)
    else if exactAt m e 0 then .value (integerBits n v) 0#5
    else env.inexactly (integerBits n v) 0#5

/-! ### Comparison (R841, R897) -/

/-- The four relations. -/
inductive Relation where
  | greater
  | less
  | equal
  | unordered
deriving DecidableEq, Repr

/-- A finite value as an integer multiple of 2^q. -/
def scaled (neg : Bool) (m : Nat) (e q : Int) : Int := if neg then -(m * pow2 (e - q)) else m * pow2 (e - q)

/-- The relation of two values (R841). -/
def FpVal.relation (x y : FpVal) : Relation :=
  let order (a b : Int) : Relation := if a = b then .equal else if a < b then .less else .greater
  match x, y with
  | .nan, _ => .unordered
  | _, .nan => .unordered
  | .inf n1, .inf n2 => order (if n1 then -1 else 1) (if n2 then -1 else 1)
  | .inf n, .fin _ _ _ => if n then .less else .greater
  | .fin _ _ _, .inf n => if n then .greater else .less
  | .fin n1 m1 e1, .fin n2 m2 e2 => order (scaled n1 m1 e1 (min e1 e2)) (scaled n2 m2 e2 (min e1 e2))

/-- The bit of the condition code for a relation (R841). -/
def Relation.holds (r : Relation) (c : BitVec 5) : Bool :=
  match r with
  | .greater => bitAt c 0
  | .less => bitAt c 1
  | .equal => bitAt c 2
  | .unordered => bitAt c 3

/-- FCMP's result and whether it is an invalid operation (R897). -/
def Fmt.compare (f : Fmt) (a b : Nat) (c : BitVec 5) : Bool × Bool :=
  let r := (f.value a).relation (f.value b)
  (r.holds c, f.isSignaling a || f.isSignaling b || (r == .unordered && bitAt c 4))

end Sys2Proof.Machine
end

