-- ==== Sys2Proof/Machine/FloatOperation.lean ====
section
/-! DEFINITION. The floating-point operations (50_fp_instructions.md R878 to R909) and how they end (51_fp_exceptions.md
R933 to R956). -/

namespace Sys2Proof.Machine

/-! ### Operands (49_floating_point.md R805, R806) -/

/-- An operand: its register, the L/R bit of a single word, its size. -/
structure FpReg where
  n : BitVec 5
  h : BitVec 1
  size : FpSize
deriving DecidableEq, Repr

/-- An operand of opcode 0C: the left half (R805). -/
def reg0C (n : BitVec 5) (fmt : BitVec 2) : FpReg := ⟨n, 0#1, sizeOf2 fmt⟩

/-- An operand of opcodes 0E and 2E with its sixth bit (R805). -/
def reg0E (n : BitVec 5) (h f : BitVec 1) : FpReg := ⟨n, h, sizeOf1 f⟩

/-- An operand of opcodes 06 and 26, by Table 8-17 for single words (R848). -/
def regMulti (v : BitVec 5) (f : BitVec 1) : FpReg :=
  if f = 1#1 then ⟨1#1 ++ v.extractLsb' 0 4, v.extractLsb' 4 1, .single⟩ else ⟨v, 0#1, .double⟩

/-- The ra operand of opcode 2E from its two parts (R846; log entry 51). -/
def regFused (hi lo : BitVec 3) (f : BitVec 1) : FpReg := ⟨hi ++ lo.extractLsb' 1 2, lo.extractLsb' 0 1, sizeOf1 f⟩

/-- A source operand's bits; register 0 reads zero (R806). -/
def State.fpRead (s : State) (r : FpReg) : Nat :=
  if r.n = 0#5 then 0
  else
    match r.size with
    | .single => (half r.h (s.readFpr r.n)).toNat
    | .double => (s.readFpr r.n).toNat
    | .quad => (s.readFpr r.n ++ s.readFpr (r.n + 1)).toNat

/-- A destination written; a single word leaves the other half (R805). -/
def State.fpWrite (s : State) (r : FpReg) (v : Nat) : State :=
  match r.size with
  | .single => s.writeFpr r.n (withHalf r.h (s.readFpr r.n) (BitVec.ofNat 32 v))
  | .double => s.writeFpr r.n (BitVec.ofNat 64 v)
  | .quad => (s.writeFpr r.n (BitVec.ofNat 64 (v >>> 64))).writeFpr (r.n + 1) (BitVec.ofNat 64 v)

/-- The specifier rules for both kinds of operand: an even register for a quad, no extension bit but on a single word (10_state.md
R81, D27). -/
def FpReg.shape (r : FpReg) : Res Unit :=
  if r.size = .quad && r.n.getLsbD 0 then .error (.refuse .fpOddQuad)
  else if r.size ≠ .single && r.h = 1#1 then .error (.refuse .fpExtensionBit)
  else .ok ()

/-- A source: not an exception register (R806). -/
def FpReg.source (r : FpReg) : Res Unit :=
  if (r.n ≠ 0#5 && r.n.toNat < 4) || (r.size = .quad && r.n = 0#5) then .error (.refuse .fpRegister) else r.shape

/-- A destination: a data register (R806). -/
def FpReg.destination (r : FpReg) : Res Unit := if r.n.toNat < 4 then .error (.refuse .fpRegister) else r.shape

/-! ### Before an operation (R878) -/

/-- An exception register's exception field is not zero (R936). -/
def State.fpPending (s : State) : Bool :=
  field (s.readFpr 0#5) 32 37 != 0#6 ||
    [s.readFpr 1#5, s.readFpr 2#5, s.readFpr 3#5].any fun r => field r 0 5 != 0#6 || field r 32 37 != 0#6

/-- The configuration, a use between FID and the doubleword store of register 0 (R880), the delayed trap, then with T = 0 the exception
fields (R878 steps 1 to 3). -/
def State.fpGate (s : State) : Res Unit := do
  if s.fpMixed then .error (.refuse .mixedFpEnable)
  if s.fpOff then .error emulationTrap
  if s.fpAfterFid then .error (.refuse .fpIdentifyAlone)
  if s.fpTrap then .error (trapInstr .assistException)
  if s.fpPending then .error (.refuse .fpPendingField)

/-- RM and the enables (49_floating_point.md R821). -/
def State.fpEnv (s : State) : FpEnv := ⟨field (s.readFpr 0#5) 21 22, field (s.readFpr 0#5) 27 31⟩

/-! ### After an operation (51_fp_exceptions.md R943, R947, R956) -/

/-- Flags set in the Status Register; they are sticky (49_floating_point.md R824). -/
def State.fpFlags (s : State) (x : BitVec 5) : State :=
  s.writeFpr 0#5 (s.readFpr 0#5 ||| ((x.zeroExtend 64) <<< 59))

/-- A trapping exception recorded: exception register 1 takes the code and the instruction word, T becomes 1 (R933, R956). -/
def State.fpTrapped (s : State) (code : BitVec 6) : State :=
  s.writeFpr 0#5 (withBit ((s.readFpr 0#5).extractLsb' 32 32 ++ (code ++ s.iword.extractLsb' 0 26)) Fpsr.T true)

/-- The exceptions an IEEE code names (R934), whose flags FP_FLAG_ON_TRAP sets too (D28). -/
def codeFlags (code : BitVec 6) : BitVec 5 :=
  let first := if bitAt code 3 then fpU else if bitAt code 0 then fpV else if bitAt code 1 then fpZ else if bitAt code 2 then fpO else 0#5
  if Config.fpFlagOnTrap then first ||| (if bitAt code 4 then fpI else 0#5) else 0#5

/-- A source register's present bits written back. -/
def State.fpKeep (s old : State) (r : FpReg) : State := if r.n = 0#5 then s else s.fpWrite r (old.fpRead r)

/-- The destination after a trapped invalid, division-by-zero or unimplemented exception: undefined where it is no source, the
operands preserved (R943). -/
def State.fpLose (s : State) (d : FpReg) (srcs : List FpReg) : State :=
  match d.destination with
  | .error _ => s
  | .ok _ => srcs.foldl (fun t r => t.fpKeep s r) ((s.fpWrite d (s.free 0 ++ s.free 1).toNat).drawn 2)

/-- The state after an operation that delivered `r` to `d`; `code` is the opcode's unimplemented code (R934, D33). -/
def State.fpDeliver (s : State) (code : BitVec 6) (d : FpReg) (srcs : List FpReg) (r : Delivery) : State :=
  match r with
  | .value bits x => (s.fpWrite d bits).fpFlags x
  | .trapped c (some bits) x => ((s.fpWrite d bits).fpFlags (x ||| codeFlags c)).fpTrapped c
  | .trapped c none x => ((s.fpLose d srcs).fpFlags (x ||| codeFlags c)).fpTrapped c
  | .unimplemented => (s.fpLose d srcs).fpTrapped code

/-- The unimplemented codes (R934, D33). -/
def code0C : BitVec 6 := 0b001001
def code0E : BitVec 6 := 0b001011
def code06 : BitVec 6 := 0b000011
def code26 : BitVec 6 := 0b100011
def code2E : BitVec 6 := 0b101011

/-- One of the operands is a quad, which this implementation leaves to software (R947, D36). -/
def quadToSoftware (regs : List FpReg) : Bool := !Config.fpQuadImplemented && regs.any (fun r => r.size = .quad)

/-- The operation goes to software: a quad, or one that FP_UNIMPLEMENTED names (R947). -/
def State.fpToSoftware (s : State) (regs srcs : List FpReg) : Bool :=
  quadToSoftware regs || Config.fpUnimplemented s.iword (srcs.map s.fpRead)

/-- An operation with a destination (R878). -/
def State.fpOperation (s : State) (code : BitVec 6) (d : FpReg) (srcs : List FpReg) (r : Delivery) : Res Done := do
  s.fpGate
  if s.fpToSoftware (d :: srcs) srcs then done s ((s.fpDeliver code d srcs .unimplemented).fpDid .other) false
  else
    srcs.forM FpReg.source
    d.destination
    done s (((s.drawn (if srcs.any (fun x => x.size = .quad) then 1 else 0)).fpDeliver code d srcs r).fpDid .other) false

/-- One source, its size the destination's (classes 0). -/
def State.fpUnary (s : State) (code : BitVec 6) (r d : FpReg) (op : Fmt → FpEnv → Nat → Delivery) : Res Done :=
  s.fpOperation code d [r] (op d.size.fmt s.fpEnv (s.fpRead r))

/-- Two sources (class 3). -/
def State.fpBinary (s : State) (code : BitVec 6) (r1 r2 d : FpReg) (op : Fmt → FpEnv → Nat → Nat → Delivery) : Res Done :=
  s.fpOperation code d [r1, r2] (op d.size.fmt s.fpEnv (s.fpRead r1) (s.fpRead r2))

/-! ### Copies and sign operations (R881 to R884), which are not arithmetic -/

/-- The sign bit's weight. -/
def signWeight (f : Fmt) : Nat := 2 ^ (f.p - 1 + f.ew)

/-- FCPY. -/
def copyBits (_f : Fmt) (_env : FpEnv) (a : Nat) : Delivery := .value a 0#5

/-- FABS. -/
def absBits (f : Fmt) (_env : FpEnv) (a : Nat) : Delivery := .value (a % signWeight f) 0#5

/-- FNEG. -/
def negBits (f : Fmt) (_env : FpEnv) (a : Nat) : Delivery := .value (a ^^^ signWeight f) 0#5

/-- FNEGABS. -/
def negAbsBits (f : Fmt) (_env : FpEnv) (a : Nat) : Delivery := .value (a ||| signWeight f) 0#5

/-! ### Conversions (R888 to R895) -/

/-- Rounding toward zero, for the truncating conversions (R888). -/
def towardZero : BitVec 2 := 1

/-- A two's complement integer of `n` bits. -/
def signedInt (n a : Nat) : Int := if 2 ^ (n - 1) ≤ a then (a : Int) - 2 ^ n else a

/-- FCNV sub-op 0 (R889). -/
def State.fpConvert (s : State) (code : BitVec 6) (r d : FpReg) : Res Done :=
  s.fpOperation code d [r] (convertFloat r.size.fmt d.size.fmt s.fpEnv (s.fpRead r))

/-- FCNV sub-ops 1 and 5 (R890, R893). -/
def State.fpFromInteger (s : State) (code : BitVec 6) (signed : Bool) (r d : FpReg) : Res Done :=
  let a := s.fpRead r
  s.fpOperation code d [r]
    (convertInteger d.size.fmt s.fpEnv (if signed then signedInt r.size.bits a else a) (s.free 0).toNat)

/-- FCNV sub-ops 2, 3, 6, 7 (R891, R892, R894, R895). -/
def State.fpToInteger (s : State) (code : BitVec 6) (signed truncate : Bool) (r d : FpReg) : Res Done :=
  s.fpOperation code d [r]
    (convertToInteger r.size.fmt s.fpEnv (if truncate then towardZero else s.fpEnv.rm) signed d.size.bits (s.fpRead r))

/-! ### Compare and test (R897, R898) -/

/-- The bits of FPR[0] that hold CQ. -/
def cqMask : Dword := 0x003FF80000000000

/-- The bits a targeted compare leaves undefined: C and CQ{7..10} (49_floating_point.md R825, R826). -/
def lostByTarget : Dword := 0x0400780000000000

/-- The result of a compare stored: queued with y = 0, else in CA{y-1} (R897); one kind replaces the other's results (R898). -/
def State.fpCompareResult (s : State) (y : BitVec 3) (result : Bool) : State :=
  let f := s.readFpr 0#5
  if y = 0#3 then
    let q : BitVec 11 := bitOf (bitAt f Fpsr.C) ++ field f 10 19
    { s.writeFpr 0#5 (withBit ((f &&& ~~~cqMask) ||| ((q.zeroExtend 64) <<< 43)) Fpsr.C result) with
      fpQueue := min 12 (s.fpQueue + 1), fpArray := 0 }
  else
    { (s.writeFpr 0#5 (withBit ((f &&& ~~~lostByTarget) ||| (s.free 0 &&& lostByTarget)) (9 + y.toNat) result)).drawn 1 with
      fpQueue := 0, fpArray := s.fpArray ||| ((64 : BitVec 7) >>> (y.toNat - 1)) }

/-- FCMP (R897): a trapped invalid operation and an unimplemented one leave C, CQ and CA. -/
def State.fpCompare (s : State) (code : BitVec 6) (r1 r2 : FpReg) (y : BitVec 3) (c : BitVec 5) : Res Done := do
  s.fpGate
  if s.fpToSoftware [r1, r2] [r1, r2] then done s ((s.fpTrapped code).fpDid .other) false
  else
    r1.source
    r2.source
    let v := r1.size.fmt.compare (s.fpRead r1) (s.fpRead r2) c
    if v.2 && s.fpEnv.traps fpV then done s (((s.fpFlags (codeFlags 0b100000#6)).fpTrapped 0b100000#6).fpDid .other) false
    else done s (((s.fpCompareResult y v.1).fpFlags (if v.2 then fpV else 0#5)).fpDid .other) false

/-- CQ{0..k-1} are all 0 and so is C: the accepts of Table 8-13 (49_floating_point.md R843). -/
def acceptTest (f : Dword) (k : Nat) : Bool := !(bitAt f Fpsr.C) && (List.range k).all fun i => !(bitAt f (10 + i))

/-- The rejects of Table 8-13: of the last 2k compares, two that lie k apart are both true (R843). -/
def rejectTest (f : Dword) (k : Nat) : Bool :=
  (bitAt f Fpsr.C && bitAt f (10 + k - 1)) || (List.range (k - 1)).any fun i => bitAt f (10 + i) && bitAt f (10 + k + i)

/-- The queue test conditions, Table 8-13 (R843). -/
def queueTest (f : Dword) (c : BitVec 5) : Bool :=
  match c.toNat with
  | 0 => bitAt f Fpsr.C
  | 1 => acceptTest f 11
  | 5 => acceptTest f 7
  | 9 => acceptTest f 5
  | 13 => acceptTest f 3
  | 17 => acceptTest f 1
  | 2 => rejectTest f 6
  | 6 => rejectTest f 4
  | _ => false

/-- How many entries of C followed by CQ a queue test reads (Table 8-13). -/
def queueReads (c : BitVec 5) : Nat :=
  match c.toNat with
  | 1 => 12
  | 5 => 8
  | 9 => 6
  | 13 => 4
  | 17 => 2
  | 2 => 12
  | 6 => 8
  | _ => 1

/-- The test reads a result that a compare of the other kind has replaced (R898). -/
def State.fpMixes (s : State) (y : BitVec 3) (c : BitVec 5) : Bool :=
  if y = 1#3 then decide (s.fpQueue < queueReads c) else !(bitAt s.fpArray ((y ^^^ 1#3).toNat - 1))

/-- FTEST (R898). -/
def State.fpTest (s : State) (y : BitVec 3) (c : BitVec 5) : Res Done := do
  s.fpGate
  if s.fpMixes y c then .error (.refuse .fpMixedTest)
  let f := s.readFpr 0#5
  done s (s.fpDid .other) (if y = 1#3 then queueTest f c else bitAt f (10 + (y ^^^ 1#3).toNat - 1))

/-! ### Identify (R880) -/

/-- The bits of FPR[0] that hold model and revision. -/
def identityMask : Dword := 0x003FF80000000000

/-- FID: model and revision become defined, the rest of the Status Register undefined; it must follow a doubleword store of register 0. -/
def State.fpIdentify (s : State) : Res Done := do
  s.fpGate
  if s.fpSequence ≠ .stored then .error (.refuse .fpIdentifyAlone)
  let identity : Dword := (((Config.fpModel ++ Config.fpRevision : BitVec 11)).zeroExtend 64) <<< 43
  let status := (s.free 0 &&& ~~~identityMask) ||| identity
  let t := (s.writeFpr 0#5 (status.extractLsb' 32 32 ++ (s.readFpr 0#5).extractLsb' 0 32)).drawn 1
  done s { t with fpQueue := 12, fpArray := 0x7F, fpSequence := .identified } false

/-! ### Multiple and fused operations (R906 to R909) -/

/-- The operand rules of FMPYADD and FMPYSUB (49_floating_point.md R847, R848): no overlap, and no specifier 0 in either format
(93_implementation_defined.md section 2, with D44 and C40). R847 and R906 name ra alone: DEDUCED, log entry 57. -/
def multiOperands (rm1 rm2 ta ra tm : BitVec 5) : Res Unit :=
  if ra = tm ∨ ta = rm1 ∨ ta = rm2 ∨ ta = tm ∨ (∃ v ∈ [rm1, rm2, ta, ra, tm], v = 0#5) then .error (.refuse .fpMultiOperands)
  else .ok ()

/-- FMPYADD and FMPYSUB: an exception whose trap is enabled makes the whole instruction unimplemented (51_fp_exceptions.md
R935, D34). -/
def State.fpMulti (s : State) (code : BitVec 6) (rm1 rm2 ta ra tm : BitVec 5) (f : BitVec 1)
    (op : Fmt → FpEnv → Nat → Nat → Delivery) : Res Done := do
  let reg (v : BitVec 5) : FpReg := regMulti v f
  s.fpGate
  multiOperands rm1 rm2 ta ra tm
  [reg rm1, reg rm2, reg ra].forM FpReg.source
  (reg ta).destination
  (reg tm).destination
  let fmt := (sizeOf1 (~~~f)).fmt
  match fmt.mul s.fpEnv (s.fpRead (reg rm1)) (s.fpRead (reg rm2)), op fmt s.fpEnv (s.fpRead (reg ta)) (s.fpRead (reg ra)) with
  | .value m x, .value a y =>
    if Config.fpUnimplemented s.iword ([reg rm1, reg rm2, reg ta, reg ra].map s.fpRead) then
      done s ((s.fpDeliver code (reg tm) [reg rm1, reg rm2, reg ta, reg ra] .unimplemented).fpDid .other) false
    else done s ((((s.fpWrite (reg tm) m).fpWrite (reg ta) a).fpFlags (x ||| y)).fpDid .other) false
  | _, _ => done s ((s.fpDeliver code (reg tm) [reg rm1, reg rm2, reg ta, reg ra] .unimplemented).fpDid .other) false

/-- The fused operations report a trapping exception as unimplemented (R935). -/
def Delivery.fusedOnly (r : Delivery) : Delivery :=
  match r with
  | .value bits x => .value bits x
  | _ => .unimplemented

/-- FMPYFADD and FMPYNFADD (R908, R909). -/
def State.fpFused (s : State) (negate : Bool) (r1 r2 r3 d : FpReg) : Res Done :=
  s.fpOperation code2E d [r1, r2, r3]
    (d.size.fmt.fused s.fpEnv negate (s.fpRead r1) (s.fpRead r2) (s.fpRead r3)).fusedOnly

/-! ### The instructions -/

def execFid  (s : State) :
    Host.Outcome State Fault Refusal :=
  complete s s.fpIdentify

def execFcpy (r : BitVec 5) (fmt : BitVec 2) (t : BitVec 5) (s : State) :
    Host.Outcome State Fault Refusal :=
  complete s (s.fpUnary code0C (reg0C r fmt) (reg0C t fmt) copyBits)

def execFcpyE (r : BitVec 5) (f rx tx : BitVec 1) (t : BitVec 5) (s : State) :
    Host.Outcome State Fault Refusal :=
  complete s (s.fpUnary code0E (reg0E r rx f) (reg0E t tx f) copyBits)

def execFabs (r : BitVec 5) (fmt : BitVec 2) (t : BitVec 5) (s : State) :
    Host.Outcome State Fault Refusal :=
  complete s (s.fpUnary code0C (reg0C r fmt) (reg0C t fmt) absBits)

def execFabsE (r : BitVec 5) (f rx tx : BitVec 1) (t : BitVec 5) (s : State) :
    Host.Outcome State Fault Refusal :=
  complete s (s.fpUnary code0E (reg0E r rx f) (reg0E t tx f) absBits)

def execFsqrt (r : BitVec 5) (fmt : BitVec 2) (t : BitVec 5) (s : State) :
    Host.Outcome State Fault Refusal :=
  complete s (s.fpUnary code0C (reg0C r fmt) (reg0C t fmt) Fmt.sqrt)

def execFsqrtE (r : BitVec 5) (f rx tx : BitVec 1) (t : BitVec 5) (s : State) :
    Host.Outcome State Fault Refusal :=
  complete s (s.fpUnary code0E (reg0E r rx f) (reg0E t tx f) Fmt.sqrt)

def execFrnd (r : BitVec 5) (fmt : BitVec 2) (t : BitVec 5) (s : State) :
    Host.Outcome State Fault Refusal :=
  complete s (s.fpUnary code0C (reg0C r fmt) (reg0C t fmt) Fmt.round)

def execFrndE (r : BitVec 5) (f rx tx : BitVec 1) (t : BitVec 5) (s : State) :
    Host.Outcome State Fault Refusal :=
  complete s (s.fpUnary code0E (reg0E r rx f) (reg0E t tx f) Fmt.round)

def execFneg (r : BitVec 5) (fmt : BitVec 2) (t : BitVec 5) (s : State) :
    Host.Outcome State Fault Refusal :=
  complete s (s.fpUnary code0C (reg0C r fmt) (reg0C t fmt) negBits)

def execFnegE (r : BitVec 5) (f rx tx : BitVec 1) (t : BitVec 5) (s : State) :
    Host.Outcome State Fault Refusal :=
  complete s (s.fpUnary code0E (reg0E r rx f) (reg0E t tx f) negBits)

def execFnegabs (r : BitVec 5) (fmt : BitVec 2) (t : BitVec 5) (s : State) :
    Host.Outcome State Fault Refusal :=
  complete s (s.fpUnary code0C (reg0C r fmt) (reg0C t fmt) negAbsBits)

def execFnegabsE (r : BitVec 5) (f rx tx : BitVec 1) (t : BitVec 5) (s : State) :
    Host.Outcome State Fault Refusal :=
  complete s (s.fpUnary code0E (reg0E r rx f) (reg0E t tx f) negAbsBits)

def execFcnvFF (r : BitVec 5) (df sf : BitVec 2) (t : BitVec 5) (s : State) :
    Host.Outcome State Fault Refusal :=
  complete s (s.fpConvert code0C (reg0C r sf) (reg0C t df))

def execFcnvFFE (r : BitVec 5) (df sf rx tx : BitVec 1) (t : BitVec 5) (s : State) :
    Host.Outcome State Fault Refusal :=
  complete s (s.fpConvert code0E (reg0E r rx sf) (reg0E t tx df))

def execFcnvXF (r : BitVec 5) (df sf : BitVec 2) (t : BitVec 5) (s : State) :
    Host.Outcome State Fault Refusal :=
  complete s (s.fpFromInteger code0C true (reg0C r sf) (reg0C t df))

def execFcnvXFE (r : BitVec 5) (df sf rx tx : BitVec 1) (t : BitVec 5) (s : State) :
    Host.Outcome State Fault Refusal :=
  complete s (s.fpFromInteger code0E true (reg0E r rx sf) (reg0E t tx df))

def execFcnvFX (r : BitVec 5) (df sf : BitVec 2) (t : BitVec 5) (s : State) :
    Host.Outcome State Fault Refusal :=
  complete s (s.fpToInteger code0C true false (reg0C r sf) (reg0C t df))

def execFcnvFXE (r : BitVec 5) (df sf rx tx : BitVec 1) (t : BitVec 5) (s : State) :
    Host.Outcome State Fault Refusal :=
  complete s (s.fpToInteger code0E true false (reg0E r rx sf) (reg0E t tx df))

def execFcnvFXT (r : BitVec 5) (df sf : BitVec 2) (t : BitVec 5) (s : State) :
    Host.Outcome State Fault Refusal :=
  complete s (s.fpToInteger code0C true true (reg0C r sf) (reg0C t df))

def execFcnvFXTE (r : BitVec 5) (df sf rx tx : BitVec 1) (t : BitVec 5) (s : State) :
    Host.Outcome State Fault Refusal :=
  complete s (s.fpToInteger code0E true true (reg0E r rx sf) (reg0E t tx df))

def execFcnvUF (r : BitVec 5) (df sf : BitVec 2) (t : BitVec 5) (s : State) :
    Host.Outcome State Fault Refusal :=
  complete s (s.fpFromInteger code0C false (reg0C r sf) (reg0C t df))

def execFcnvUFE (r : BitVec 5) (df sf rx tx : BitVec 1) (t : BitVec 5) (s : State) :
    Host.Outcome State Fault Refusal :=
  complete s (s.fpFromInteger code0E false (reg0E r rx sf) (reg0E t tx df))

def execFcnvFU (r : BitVec 5) (df sf : BitVec 2) (t : BitVec 5) (s : State) :
    Host.Outcome State Fault Refusal :=
  complete s (s.fpToInteger code0C false false (reg0C r sf) (reg0C t df))

def execFcnvFUE (r : BitVec 5) (df sf rx tx : BitVec 1) (t : BitVec 5) (s : State) :
    Host.Outcome State Fault Refusal :=
  complete s (s.fpToInteger code0E false false (reg0E r rx sf) (reg0E t tx df))

def execFcnvFUT (r : BitVec 5) (df sf : BitVec 2) (t : BitVec 5) (s : State) :
    Host.Outcome State Fault Refusal :=
  complete s (s.fpToInteger code0C false true (reg0C r sf) (reg0C t df))

def execFcnvFUTE (r : BitVec 5) (df sf rx tx : BitVec 1) (t : BitVec 5) (s : State) :
    Host.Outcome State Fault Refusal :=
  complete s (s.fpToInteger code0E false true (reg0E r rx sf) (reg0E t tx df))

def execFcmp (r1 r2 : BitVec 5) (y : BitVec 3) (fmt : BitVec 2) (c : BitVec 5) (s : State) :
    Host.Outcome State Fault Refusal :=
  complete s (s.fpCompare code0C (reg0C r1 fmt) (reg0C r2 fmt) y c)

def execFcmpE (r1 r2 : BitVec 5) (y : BitVec 3) (x2 f x1 : BitVec 1) (c : BitVec 5) (s : State) :
    Host.Outcome State Fault Refusal :=
  complete s (s.fpCompare code0E (reg0E r1 x1 f) (reg0E r2 x2 f) y c)

def execFtest (y : BitVec 3) (c : BitVec 5) (s : State) :
    Host.Outcome State Fault Refusal :=
  complete s (s.fpTest y c)

def execFadd (r1 r2 : BitVec 5) (fmt : BitVec 2) (t : BitVec 5) (s : State) :
    Host.Outcome State Fault Refusal :=
  complete s (s.fpBinary code0C (reg0C r1 fmt) (reg0C r2 fmt) (reg0C t fmt) Fmt.add)

def execFaddE (r1 r2 : BitVec 5) (x2 f x1 tx : BitVec 1) (t : BitVec 5) (s : State) :
    Host.Outcome State Fault Refusal :=
  complete s (s.fpBinary code0E (reg0E r1 x1 f) (reg0E r2 x2 f) (reg0E t tx f) Fmt.add)

def execFsub (r1 r2 : BitVec 5) (fmt : BitVec 2) (t : BitVec 5) (s : State) :
    Host.Outcome State Fault Refusal :=
  complete s (s.fpBinary code0C (reg0C r1 fmt) (reg0C r2 fmt) (reg0C t fmt) Fmt.sub)

def execFsubE (r1 r2 : BitVec 5) (x2 f x1 tx : BitVec 1) (t : BitVec 5) (s : State) :
    Host.Outcome State Fault Refusal :=
  complete s (s.fpBinary code0E (reg0E r1 x1 f) (reg0E r2 x2 f) (reg0E t tx f) Fmt.sub)

def execFmpy (r1 r2 : BitVec 5) (fmt : BitVec 2) (t : BitVec 5) (s : State) :
    Host.Outcome State Fault Refusal :=
  complete s (s.fpBinary code0C (reg0C r1 fmt) (reg0C r2 fmt) (reg0C t fmt) Fmt.mul)

def execFmpyE (r1 r2 : BitVec 5) (x2 f x1 tx : BitVec 1) (t : BitVec 5) (s : State) :
    Host.Outcome State Fault Refusal :=
  complete s (s.fpBinary code0E (reg0E r1 x1 f) (reg0E r2 x2 f) (reg0E t tx f) Fmt.mul)

def execFdiv (r1 r2 : BitVec 5) (fmt : BitVec 2) (t : BitVec 5) (s : State) :
    Host.Outcome State Fault Refusal :=
  complete s (s.fpBinary code0C (reg0C r1 fmt) (reg0C r2 fmt) (reg0C t fmt) Fmt.div)

def execFdivE (r1 r2 : BitVec 5) (x2 f x1 tx : BitVec 1) (t : BitVec 5) (s : State) :
    Host.Outcome State Fault Refusal :=
  complete s (s.fpBinary code0E (reg0E r1 x1 f) (reg0E r2 x2 f) (reg0E t tx f) Fmt.div)

/-- XMPYU: 32 by 32 bits, a doubleword destination (R904). -/
def execXmpyu (r1 r2 : BitVec 5) (x2 x1 : BitVec 1) (t : BitVec 5) (s : State) :
    Host.Outcome State Fault Refusal :=
  complete s (s.fpOperation code0E ⟨t, 0#1, .double⟩ [⟨r1, x1, .single⟩, ⟨r2, x2, .single⟩]
    (.value (s.fpRead ⟨r1, x1, .single⟩ * s.fpRead ⟨r2, x2, .single⟩) 0#5))

def execFmpyadd (rm1 rm2 ta ra : BitVec 5) (f : BitVec 1) (tm : BitVec 5) (s : State) :
    Host.Outcome State Fault Refusal :=
  complete s (s.fpMulti code06 rm1 rm2 ta ra tm f Fmt.add)

def execFmpysub (rm1 rm2 ta ra : BitVec 5) (f : BitVec 1) (tm : BitVec 5) (s : State) :
    Host.Outcome State Fault Refusal :=
  complete s (s.fpMulti code26 rm1 rm2 ta ra tm f Fmt.sub)

def execFmpyfadd (rm1 rm2 : BitVec 5) (raHi : BitVec 3) (x2 f : BitVec 1) (raLo : BitVec 3) (x1 tx : BitVec 1) (t : BitVec 5) (s : State) :
    Host.Outcome State Fault Refusal :=
  complete s (s.fpFused false (reg0E rm1 x1 f) (reg0E rm2 x2 f) (regFused raHi raLo f) (reg0E t tx f))

def execFmpynfadd (rm1 rm2 : BitVec 5) (raHi : BitVec 3) (x2 f : BitVec 1) (raLo : BitVec 3) (x1 tx : BitVec 1) (t : BitVec 5) (s : State) :
    Host.Outcome State Fault Refusal :=
  complete s (s.fpFused true (reg0E rm1 x1 f) (reg0E rm2 x2 f) (regFused raHi raLo f) (reg0E t tx f))

end Sys2Proof.Machine
end

