-- ==== Sys2Proof/Machine/Halfword.lean ====
section
/-! DEFINITION. The parallel halfword instructions (45_multimedia.md): four 16-bit lanes of a general register, no flag,
no condition, no exception (R620). -/

namespace Sys2Proof.Machine

/-- Halfword i of x, 0 the leftmost (45_multimedia.md, opening). -/
def lane (x : Dword) (i : Nat) : BitVec 16 := x.extractLsb' (48 - 16 * i) 16

/-- Four lanes, computed from the sources as they were (R620). -/
def lanes (f : Nat → BitVec 16) : Dword := f 0 ++ f 1 ++ f 2 ++ f 3

/-- sat_s, signed saturation of an exact result (R621). -/
def satSigned (v : Int) : BitVec 16 := if 32767 < v then 0x7FFF#16 else if v < -32768 then 0x8000#16 else BitVec.ofInt 16 v

/-- sat_u, unsigned saturation of an exact result (R621). -/
def satUnsigned (v : Int) : BitVec 16 := if 65535 < v then 0xFFFF#16 else if v < 0 then 0#16 else BitVec.ofInt 16 v

/-- The average of two unsigned halfwords, rounded to odd (R624). -/
def laneAverage (a b : BitVec 16) : BitVec 16 :=
  let total := a.toNat + b.toNat
  BitVec.ofNat 16 (total / 2 ||| total % 2)

/-- HSHLADD's lane: the shifted operand saturates before the addition does (R625). -/
def laneShiftLeftAdd (a b : BitVec 16) (sa : Nat) : BitVec 16 :=
  let v := a.toInt * 2 ^ sa
  if 32767 < v || v < -32768 then satSigned v else satSigned (v + b.toInt)

/-- HSHRADD's lane: the quotient rounds toward minus infinity (R626). -/
def laneShiftRightAdd (a b : BitVec 16) (sa : Nat) : BitVec 16 := satSigned ((a.sshiftRight sa).toInt + b.toInt)

/-- The end of every instruction of the family (R620). -/
def State.lanesForm (s : State) (t : BitVec 5) (f : Nat → BitVec 16) : Res Done := done s (s.writeGr t (lanes f)) false

/-- A two-operand instruction, lane by lane (R622 to R626). -/
def State.lanePairForm (s : State) (r2 r1 t : BitVec 5) (f : BitVec 16 → BitVec 16 → BitVec 16) : Res Done :=
  s.lanesForm t fun i => f (lane (s.readGr r1) i) (lane (s.readGr r2) i)

/-- A one-operand instruction, lane by lane (R627, R628). -/
def State.laneForm (s : State) (r t : BitVec 5) (f : BitVec 16 → BitVec 16) : Res Done :=
  s.lanesForm t fun i => f (lane (s.readGr r) i)

/-! ### Arithmetic (R622 to R626) -/

def execHadd (r2 r1 t : BitVec 5) (s : State) :
    Host.Outcome State Fault Refusal :=
  complete s (s.lanePairForm r2 r1 t fun a b => a + b)

def execHaddSs (r2 r1 t : BitVec 5) (s : State) :
    Host.Outcome State Fault Refusal :=
  complete s (s.lanePairForm r2 r1 t fun a b => satSigned (a.toInt + b.toInt))

def execHaddUs (r2 r1 t : BitVec 5) (s : State) :
    Host.Outcome State Fault Refusal :=
  complete s (s.lanePairForm r2 r1 t fun a b => satUnsigned ((a.toNat : Int) + b.toInt))

def execHsub (r2 r1 t : BitVec 5) (s : State) :
    Host.Outcome State Fault Refusal :=
  complete s (s.lanePairForm r2 r1 t fun a b => a - b)

def execHsubSs (r2 r1 t : BitVec 5) (s : State) :
    Host.Outcome State Fault Refusal :=
  complete s (s.lanePairForm r2 r1 t fun a b => satSigned (a.toInt - b.toInt))

def execHsubUs (r2 r1 t : BitVec 5) (s : State) :
    Host.Outcome State Fault Refusal :=
  complete s (s.lanePairForm r2 r1 t fun a b => satUnsigned ((a.toNat : Int) - b.toInt))

def execHavg (r2 r1 t : BitVec 5) (s : State) :
    Host.Outcome State Fault Refusal :=
  complete s (s.lanePairForm r2 r1 t fun a b => laneAverage a b)

def execHshladd (r2 r1 : BitVec 5) (sa : BitVec 2) (t : BitVec 5) (s : State) :
    Host.Outcome State Fault Refusal :=
  complete s (s.lanePairForm r2 r1 t fun a b => laneShiftLeftAdd a b sa.toNat)

def execHshradd (r2 r1 : BitVec 5) (sa : BitVec 2) (t : BitVec 5) (s : State) :
    Host.Outcome State Fault Refusal :=
  complete s (s.lanePairForm r2 r1 t fun a b => laneShiftRightAdd a b sa.toNat)

/-! ### Shifts (R627, R628) -/

def execHshl (r : BitVec 5) (sa : BitVec 4) (t : BitVec 5) (s : State) :
    Host.Outcome State Fault Refusal :=
  complete s (s.laneForm r t fun a => a <<< sa.toNat)

def execHshrU (r : BitVec 5) (sa : BitVec 4) (t : BitVec 5) (s : State) :
    Host.Outcome State Fault Refusal :=
  complete s (s.laneForm r t fun a => a >>> sa.toNat)

def execHshrS (r : BitVec 5) (sa : BitVec 4) (t : BitVec 5) (s : State) :
    Host.Outcome State Fault Refusal :=
  complete s (s.laneForm r t fun a => a.sshiftRight sa.toNat)

/-! ### Rearrangement (R629 to R631) -/

def execMixhL (r2 r1 t : BitVec 5) (s : State) :
    Host.Outcome State Fault Refusal :=
  complete s (done s (s.writeGr t ((s.readGr r1).extractLsb' 48 16 ++ (s.readGr r2).extractLsb' 48 16 ++ (s.readGr r1).extractLsb' 16 16 ++ (s.readGr r2).extractLsb' 16 16)) false)

def execMixhR (r2 r1 t : BitVec 5) (s : State) :
    Host.Outcome State Fault Refusal :=
  complete s (done s (s.writeGr t ((s.readGr r1).extractLsb' 32 16 ++ (s.readGr r2).extractLsb' 32 16 ++ (s.readGr r1).extractLsb' 0 16 ++ (s.readGr r2).extractLsb' 0 16)) false)

def execMixwL (r2 r1 t : BitVec 5) (s : State) :
    Host.Outcome State Fault Refusal :=
  complete s (done s (s.writeGr t ((s.readGr r1).extractLsb' 32 32 ++ (s.readGr r2).extractLsb' 32 32)) false)

def execMixwR (r2 r1 t : BitVec 5) (s : State) :
    Host.Outcome State Fault Refusal :=
  complete s (done s (s.writeGr t ((s.readGr r1).extractLsb' 0 32 ++ (s.readGr r2).extractLsb' 0 32)) false)

/-- PERMH: two different source fields are an undefined operation (R631, D14). -/
def execPermh (r rb : BitVec 5) (c0 c1 c2 c3 : BitVec 2) (t : BitVec 5) (s : State) :
    Host.Outcome State Fault Refusal :=
  let pick (k : BitVec 2) : BitVec 16 := lane (s.readGr r) k.toNat
  complete s (if r = rb then done s (s.writeGr t (pick c0 ++ pick c1 ++ pick c2 ++ pick c3)) false
    else .error (.refuse .permhRegisters))

end Sys2Proof.Machine
end

