-- ==== Sys2Proof/Machine/MemoryReference.lean ====
section
/-! DEFINITION. The loads and stores of the general registers (40_memory_reference.md). The cache hint `cc` is ignored
but that of a semaphore (R403, D15) and the ordered completer has no effect on one processor (R407). -/

namespace Sys2Proof.Machine

/-! ### Shared forms -/

/-- A load: base register first, target last (R402, R410 to R413). -/
def State.loadForm (s : State) (e : Ea) (size : Nat) (t : BitVec 5) : Res Done := do
  let a ← e.resolve s
  let v ← s.memLoad a size
  done s ((e.writeBack s).writeGr t v) false

/-- LDB, LDH, LDW, LDD: with t = 0 a data prefetch, which only modifies the base and never traps (R405). -/
def State.loadOrPrefetch (s : State) (e : Ea) (size : Nat) (t : BitVec 5) : Res Done :=
  if t = 0#5 then done s (e.writeBack s) false else s.loadForm e size t

/-- A store of GR[r]'s rightmost bytes, then the base register (R402, R415 to R418). -/
def State.storeForm (s : State) (e : Ea) (size : Nat) (r : BitVec 5) : Res Done := do
  let a ← e.resolve s
  let s' ← s.memStore a size (s.readGr r)
  done s (e.writeBack s') false

/-- LDWA, LDDA (R420, R421). -/
def State.loadAbsoluteForm (s : State) (e : Ea) (size : Nat) (t : BitVec 5) : Res Done := do
  s.privileged
  let p ← s.checkAbsolute e.offset size
  let v ← s.loadAt p.pa size
  done s ((e.writeBack s).writeGr t v) false

/-- STWA, STDA (R422, R423). -/
def State.storeAbsoluteForm (s : State) (e : Ea) (size : Nat) (r : BitVec 5) : Res Done := do
  s.privileged
  let p ← s.checkAbsolute e.offset size
  let s' ← s.storeAt p.pa size (s.readGr r)
  done s (e.writeBack s') false

/-- A semaphore's place: 16-byte aligned, cacheable memory (20_memory.md R146 c, R166 a). -/
def State.semaphorePlace (s : State) (a : DataAddr) (size : Nat) : Res Place := do
  if (s.usedOffset a.offset).toNat % 16 != 0 then .error (.refuse .unalignedSemaphore)
  let p ← s.check .semaphore a size
  if p.uncacheable || region p.pa = .io then .error (.refuse .uncacheableSemaphore) else .ok p

/-- The hint that the cc field of LDCW and LDCD gives: Coherent Operation, or no hint, as which the Reserved codes are treated where Coherent
Operation is not implemented (R403; 93_implementation_defined.md section 1; log entry 58). -/
def semaphoreHint (cc : BitVec 2) : BitVec 2 := if cc = 0b01#2 then 0b01#2 else 0b00#2

/-- The state after a semaphore at `pa` is used with the hint of `cc`; with another hint than before it is undefined (R403, 20_memory.md
R210 e, D44). -/
def State.noteSemaphore (s : State) (pa : Dword) (cc : BitVec 2) : Res State :=
  match s.semaphores.lookup pa.toNat with
  | none => .ok { s with semaphores := (pa.toNat, semaphoreHint cc) :: s.semaphores }
  | some h => if h = semaphoreHint cc then .ok s else .error (.refuse .mixedSemaphoreHints)

/-- LDCW, LDCD: read, clear to zero (R430 to R432). The cache hint has no other effect than `noteSemaphore`. -/
def State.semaphoreForm (s : State) (e : Ea) (cc : BitVec 2) (size : Nat) (t : BitVec 5) : Res Done :=
  if t = 0#5 && Config.ldcGr0IsPrefetch then done s (e.writeBack s) false
  else do
    let a ← e.resolve s
    let p ← s.semaphorePlace a size
    let v ← s.loadAt p.pa size
    let s' ← s.storeAt p.pa size 0
    let s'' ← s'.noteSemaphore p.pa cc
    done s ((e.writeBack s'').writeGr t v) false

/-- The bytes STBY (n = 4) and STDBY (n = 8) store and the address of the first: of the image an aligned store would
write, those from the addressed byte on (begin) or those below it (end) (R435, R436). -/
def partialBytes (little : Bool) (n pa : Nat) (ending : Bool) (v : Dword) : Nat × List Byte :=
  let k := pa % n
  let image := swapIf little (toBytes n v.toNat)
  if ending then (pa - k, image.take k) else (pa, image.drop k)

/-- The effective address of STBY and STDBY: B,M post-modifies, the others add the displacement; the base register's new
value is truncated to the datum's alignment (R435, R436). -/
def State.partialEa (s : State) (n : Dword) (b im5 : BitVec 5) (sField : BitVec 2) (a m : BitVec 1) : Ea :=
  let e := s.ea b (lowSignExt im5) (if m = 0#1 then .none else if a = 1#1 then .before else .after) sField false
  { e with newBase := e.newBase.map (· &&& ~~~(n - 1)) }

/-- STBY, STDBY (R435, R436): checked as a byte store at the unmasked offset, also in the ending case that stores nothing, which completes
wherever the address is. At the address of IO_EIR no
partial store is the word store of D40, not one that happens to write a whole word: it faults like any other access to I/O space. DESIGN
CHOICE, log entry 48. -/
def State.storeBytesForm (s : State) (e : Ea) (n : Nat) (ending : Bool) (r : BitVec 5) : Res Done := do
  let a ← e.resolve s
  let p ← s.check .store a 1
  if ending && p.pa.toNat % n == 0 then done s (e.writeBack s) false
  else do
    let pa ← inMemory p.pa
    let w := partialBytes (s.flag Psw.E) n pa ending (s.readGr r)
    done s (e.writeBack { s with mem := s.mem.setBytes w.1 w.2 }) false

/-! ### Loads (R410 to R413) -/

def execLdbLong (b t : BitVec 5) (sr : BitVec 2) (im14 : BitVec 14) (s : State) :
    Host.Outcome State Fault Refusal :=
  complete s (s.loadOrPrefetch (s.longEa b sr im14) 1 t)

def execLdhLong (b t : BitVec 5) (sr : BitVec 2) (im14 : BitVec 14) (s : State) :
    Host.Outcome State Fault Refusal :=
  complete s (s.loadOrPrefetch (s.longEa b sr im14) 2 t)

def execLdwLong (b t : BitVec 5) (sr : BitVec 2) (im14 : BitVec 14) (s : State) :
    Host.Outcome State Fault Refusal :=
  complete s (s.loadOrPrefetch (s.longEa b sr im14) 4 t)

def execLdwLongMod (b t : BitVec 5) (sr : BitVec 2) (im14 : BitVec 14) (s : State) :
    Host.Outcome State Fault Refusal :=
  complete s (s.loadOrPrefetch (s.longModifyEa b sr im14) 4 t)

def execLdwLong11 (b t : BitVec 5) (sr : BitVec 2) (im11a : BitVec 11) (iv : BitVec 1) (s : State) :
    Host.Outcome State Fault Refusal :=
  complete s (s.loadOrPrefetch (s.long11Ea b sr im11a iv) 4 t)

def execLddLong (b t : BitVec 5) (sr : BitVec 2) (im10a : BitVec 10) (m a iv : BitVec 1) (s : State) :
    Host.Outcome State Fault Refusal :=
  complete s (s.loadOrPrefetch (s.long10Ea b sr im10a m a iv) 8 t)

def execLdbShort (b im5 : BitVec 5) (sr : BitVec 2) (a : BitVec 1) (_cc : BitVec 2) (m : BitVec 1) (t : BitVec 5) (s : State) :
    Host.Outcome State Fault Refusal :=
  complete s (s.loadOrPrefetch (s.shortEa b im5 sr a m) 1 t)

def execLdbIndexed (b x : BitVec 5) (sr : BitVec 2) (u : BitVec 1) (_cc : BitVec 2) (m : BitVec 1) (t : BitVec 5) (s : State) :
    Host.Outcome State Fault Refusal :=
  complete s (s.loadOrPrefetch (s.indexedEa b x sr u m 0) 1 t)

def execLdhShort (b im5 : BitVec 5) (sr : BitVec 2) (a : BitVec 1) (_cc : BitVec 2) (m : BitVec 1) (t : BitVec 5) (s : State) :
    Host.Outcome State Fault Refusal :=
  complete s (s.loadOrPrefetch (s.shortEa b im5 sr a m) 2 t)

def execLdhIndexed (b x : BitVec 5) (sr : BitVec 2) (u : BitVec 1) (_cc : BitVec 2) (m : BitVec 1) (t : BitVec 5) (s : State) :
    Host.Outcome State Fault Refusal :=
  complete s (s.loadOrPrefetch (s.indexedEa b x sr u m 1) 2 t)

def execLdwShort (b im5 : BitVec 5) (sr : BitVec 2) (a : BitVec 1) (_cc : BitVec 2) (m : BitVec 1) (t : BitVec 5) (s : State) :
    Host.Outcome State Fault Refusal :=
  complete s (s.loadOrPrefetch (s.shortEa b im5 sr a m) 4 t)

def execLdwIndexed (b x : BitVec 5) (sr : BitVec 2) (u : BitVec 1) (_cc : BitVec 2) (m : BitVec 1) (t : BitVec 5) (s : State) :
    Host.Outcome State Fault Refusal :=
  complete s (s.loadOrPrefetch (s.indexedEa b x sr u m 2) 4 t)

def execLddShort (b im5 : BitVec 5) (sr : BitVec 2) (a : BitVec 1) (_cc : BitVec 2) (m : BitVec 1) (t : BitVec 5) (s : State) :
    Host.Outcome State Fault Refusal :=
  complete s (s.loadOrPrefetch (s.shortEa b im5 sr a m) 8 t)

def execLddIndexed (b x : BitVec 5) (sr : BitVec 2) (u : BitVec 1) (_cc : BitVec 2) (m : BitVec 1) (t : BitVec 5) (s : State) :
    Host.Outcome State Fault Refusal :=
  complete s (s.loadOrPrefetch (s.indexedEa b x sr u m 3) 8 t)

/-! ### Stores (R415 to R418) -/

def execStbLong (b r : BitVec 5) (sr : BitVec 2) (im14 : BitVec 14) (s : State) :
    Host.Outcome State Fault Refusal :=
  complete s (s.storeForm (s.longEa b sr im14) 1 r)

def execSthLong (b r : BitVec 5) (sr : BitVec 2) (im14 : BitVec 14) (s : State) :
    Host.Outcome State Fault Refusal :=
  complete s (s.storeForm (s.longEa b sr im14) 2 r)

def execStwLong (b r : BitVec 5) (sr : BitVec 2) (im14 : BitVec 14) (s : State) :
    Host.Outcome State Fault Refusal :=
  complete s (s.storeForm (s.longEa b sr im14) 4 r)

def execStwLongMod (b r : BitVec 5) (sr : BitVec 2) (im14 : BitVec 14) (s : State) :
    Host.Outcome State Fault Refusal :=
  complete s (s.storeForm (s.longModifyEa b sr im14) 4 r)

def execStwLong11 (b r : BitVec 5) (sr : BitVec 2) (im11a : BitVec 11) (iv : BitVec 1) (s : State) :
    Host.Outcome State Fault Refusal :=
  complete s (s.storeForm (s.long11Ea b sr im11a iv) 4 r)

def execStdLong (b r : BitVec 5) (sr : BitVec 2) (im10a : BitVec 10) (m a iv : BitVec 1) (s : State) :
    Host.Outcome State Fault Refusal :=
  complete s (s.storeForm (s.long10Ea b sr im10a m a iv) 8 r)

def execStbShort (b r : BitVec 5) (sr : BitVec 2) (a : BitVec 1) (_cc : BitVec 2) (m : BitVec 1) (im5 : BitVec 5) (s : State) :
    Host.Outcome State Fault Refusal :=
  complete s (s.storeForm (s.shortEa b im5 sr a m) 1 r)

def execSthShort (b r : BitVec 5) (sr : BitVec 2) (a : BitVec 1) (_cc : BitVec 2) (m : BitVec 1) (im5 : BitVec 5) (s : State) :
    Host.Outcome State Fault Refusal :=
  complete s (s.storeForm (s.shortEa b im5 sr a m) 2 r)

def execStwShort (b r : BitVec 5) (sr : BitVec 2) (a : BitVec 1) (_cc : BitVec 2) (m : BitVec 1) (im5 : BitVec 5) (s : State) :
    Host.Outcome State Fault Refusal :=
  complete s (s.storeForm (s.shortEa b im5 sr a m) 4 r)

def execStdShort (b r : BitVec 5) (sr : BitVec 2) (a : BitVec 1) (_cc : BitVec 2) (m : BitVec 1) (im5 : BitVec 5) (s : State) :
    Host.Outcome State Fault Refusal :=
  complete s (s.storeForm (s.shortEa b im5 sr a m) 8 r)

/-! ### Absolute accesses (R420 to R423) -/

def execLdwaShort (b im5 : BitVec 5) (a : BitVec 1) (_cc : BitVec 2) (m : BitVec 1) (t : BitVec 5) (s : State) :
    Host.Outcome State Fault Refusal :=
  complete s (s.loadAbsoluteForm (s.shortEa b im5 0#2 a m) 4 t)

def execLdwaIndexed (b x : BitVec 5) (u : BitVec 1) (_cc : BitVec 2) (m : BitVec 1) (t : BitVec 5) (s : State) :
    Host.Outcome State Fault Refusal :=
  complete s (s.loadAbsoluteForm (s.indexedEa b x 0#2 u m 2) 4 t)

def execLddaShort (b im5 : BitVec 5) (a : BitVec 1) (_cc : BitVec 2) (m : BitVec 1) (t : BitVec 5) (s : State) :
    Host.Outcome State Fault Refusal :=
  complete s (s.loadAbsoluteForm (s.shortEa b im5 0#2 a m) 8 t)

def execLddaIndexed (b x : BitVec 5) (u : BitVec 1) (_cc : BitVec 2) (m : BitVec 1) (t : BitVec 5) (s : State) :
    Host.Outcome State Fault Refusal :=
  complete s (s.loadAbsoluteForm (s.indexedEa b x 0#2 u m 3) 8 t)

def execStwa (b r : BitVec 5) (a : BitVec 1) (_cc : BitVec 2) (m : BitVec 1) (im5 : BitVec 5) (s : State) :
    Host.Outcome State Fault Refusal :=
  complete s (s.storeAbsoluteForm (s.shortEa b im5 0#2 a m) 4 r)

def execStda (b r : BitVec 5) (a : BitVec 1) (_cc : BitVec 2) (m : BitVec 1) (im5 : BitVec 5) (s : State) :
    Host.Outcome State Fault Refusal :=
  complete s (s.storeAbsoluteForm (s.shortEa b im5 0#2 a m) 8 r)

/-! ### Semaphores (R430 to R432): the index shift is three for both -/

def execLdcwShort (b im5 : BitVec 5) (sr : BitVec 2) (a : BitVec 1) (cc : BitVec 2) (m : BitVec 1) (t : BitVec 5) (s : State) :
    Host.Outcome State Fault Refusal :=
  complete s (s.semaphoreForm (s.shortEa b im5 sr a m) cc 4 t)

def execLdcwIndexed (b x : BitVec 5) (sr : BitVec 2) (u : BitVec 1) (cc : BitVec 2) (m : BitVec 1) (t : BitVec 5) (s : State) :
    Host.Outcome State Fault Refusal :=
  complete s (s.semaphoreForm (s.indexedEa b x sr u m 3) cc 4 t)

def execLdcdShort (b im5 : BitVec 5) (sr : BitVec 2) (a : BitVec 1) (cc : BitVec 2) (m : BitVec 1) (t : BitVec 5) (s : State) :
    Host.Outcome State Fault Refusal :=
  complete s (s.semaphoreForm (s.shortEa b im5 sr a m) cc 8 t)

def execLdcdIndexed (b x : BitVec 5) (sr : BitVec 2) (u : BitVec 1) (cc : BitVec 2) (m : BitVec 1) (t : BitVec 5) (s : State) :
    Host.Outcome State Fault Refusal :=
  complete s (s.semaphoreForm (s.indexedEa b x sr u m 3) cc 8 t)

/-! ### Store bytes (R435, R436) -/

def execStby (b r : BitVec 5) (sr : BitVec 2) (a : BitVec 1) (_cc : BitVec 2) (m : BitVec 1) (im5 : BitVec 5) (s : State) :
    Host.Outcome State Fault Refusal :=
  complete s (s.storeBytesForm (s.partialEa 4 b im5 sr a m) 4 (isSet a) r)

def execStdby (b r : BitVec 5) (sr : BitVec 2) (a : BitVec 1) (_cc : BitVec 2) (m : BitVec 1) (im5 : BitVec 5) (s : State) :
    Host.Outcome State Fault Refusal :=
  complete s (s.storeBytesForm (s.partialEa 8 b im5 sr a m) 8 (isSet a) r)

end Sys2Proof.Machine
end

