-- ==== Sys2Proof/Machine/ShiftDeposit.lean ====
section
/-! DEFINITION. Shift pair, extract and deposit (44_shift_extract_deposit.md). -/

namespace Sys2Proof.Machine

/-! ### Shared forms -/

/-- The end of a doubleword form: target, and the doubleword condition on the result (R591). -/
def State.shiftDone (s : State) (t : BitVec 5) (res : Dword) (c : BitVec 3) : Res Done :=
  done s (s.writeGr t res) (shiftCondition c true res)

/-- A word result: its upper half is undefined (R601 b, D13). -/
def State.wordResult (s : State) (res : Dword) : Dword := (s.free 0).extractLsb' 32 32 ++ res.extractLsb' 0 32

/-- The end of a word form (R591, R601 b). -/
def State.shiftDoneWord (s : State) (t : BitVec 5) (res : Dword) (c : BitVec 3) : Res Done :=
  done s ((s.writeGr t (s.wordResult res)).drawn 1) (shiftCondition c false res)

/-- SAR as a word form uses it: its leftmost bit ignored (R593, R595, R598). -/
def State.sarWord (s : State) : Nat := s.sar.toNat % 32

/-- SHRPD (R592). -/
def shiftPair (hi lo : Dword) (sa : Nat) : Dword := ((hi ++ lo : BitVec 128) >>> sa).extractLsb' 0 64

/-- SHRPW (R593), right-aligned. -/
def shiftPairWord (hi lo : Dword) (sa : Nat) : Dword :=
  (((hi.extractLsb' 0 32 ++ lo.extractLsb' 0 32 : BitVec 64) >>> sa).extractLsb' 0 32).zeroExtend 64

/-- The rightmost `n` bits of x, zero- or sign-extended (00_scope.md R16). -/
def extendFrom (signed : Bool) (x : Dword) (n : Nat) : Dword :=
  if signed then (x <<< (64 - n)).sshiftRight (64 - n) else (x <<< (64 - n)) >>> (64 - n)

/-- The field of `len` bits whose rightmost bit is bit {pos} of the `width` rightmost bits, cut at their left end (R594, R595). -/
def extractField (width : Nat) (signed : Bool) (x : Dword) (pos len : Nat) : Dword :=
  extendFrom signed (x >>> (width - 1 - pos)) (min len (pos + 1))

/-- `v`'s rightmost `len` bits deposited into `old` with their rightmost bit at bit {pos} of its `width` rightmost bits,
cut at their left end (R596, R598). -/
def depositField (width : Nat) (old v : Dword) (pos len : Nat) : Dword :=
  let sh := width - 1 - pos
  let mask := (((1 : Dword) <<< min len (pos + 1)) - 1) <<< sh
  (old &&& ~~~mask) ||| ((v <<< sh) &&& mask)

/-- A fixed field must not run off the left end (R601 a, D12). -/
def fixedField (pos len : Nat) : Res Unit := if len ≤ pos + 1 then .ok () else .error (.refuse .fieldOffEnd)

/-- EXTRD (R594). -/
def State.extractForm (s : State) (r t : BitVec 5) (c : BitVec 3) (se : BitVec 1) (pos len : Nat) : Res Done :=
  s.shiftDone t (extractField 64 (isSet se) (s.readGr r) pos len) c

/-- EXTRW (R595). -/
def State.extractWordForm (s : State) (r t : BitVec 5) (c : BitVec 3) (se : BitVec 1) (pos len : Nat) : Res Done :=
  s.shiftDoneWord t (extractField 32 (isSet se) (s.readGr r) pos len) c

/-- What a deposit merges into: the old target, or zeros with nz = 0 (R596, R598). -/
def State.depositInto (s : State) (t : BitVec 5) (nz : BitVec 1) : Dword := if isSet nz then s.readGr t else 0

/-- DEPD, DEPDI (R596, R597). -/
def State.depositForm (s : State) (t : BitVec 5) (v : Dword) (c : BitVec 3) (nz : BitVec 1) (pos len : Nat) : Res Done :=
  s.shiftDone t (depositField 64 (s.depositInto t nz) v pos len) c

/-- DEPW, DEPWI (R598, R599). -/
def State.depositWordForm (s : State) (t : BitVec 5) (v : Dword) (c : BitVec 3) (nz : BitVec 1) (pos len : Nat) : Res Done :=
  s.shiftDoneWord t (depositField 32 (s.depositInto t nz) v pos len) c

/-- The fixed position of a deposit or shift pair, stored complemented (R592, R596). -/
def complementPos (cp : BitVec 1) (cpos : BitVec 5) : Nat := 63 - (cp ++ cpos : BitVec 6).toNat

/-- The same for a word form (R593, R598). -/
def complementPosWord (cpos : BitVec 5) : Nat := 31 - cpos.toNat

/-- The length of a word field (R595). -/
def wordLen (clen : BitVec 5) : Nat := assemble6 0#1 clen

/-! ### Shift pair (R592, R593) -/

def execShrpdSar (r2 r1 : BitVec 5) (c : BitVec 3) (t : BitVec 5) (s : State) :
    Host.Outcome State Fault Refusal :=
  complete s (s.shiftDone t (shiftPair (s.readGr r1) (s.readGr r2) s.sar.toNat) c)

def execShrpdFixed (r2 r1 : BitVec 5) (c : BitVec 3) (cp : BitVec 1) (cpos t : BitVec 5) (s : State) :
    Host.Outcome State Fault Refusal :=
  complete s (s.shiftDone t (shiftPair (s.readGr r1) (s.readGr r2) (complementPos cp cpos)) c)

def execShrpwSar (r2 r1 : BitVec 5) (c : BitVec 3) (t : BitVec 5) (s : State) :
    Host.Outcome State Fault Refusal :=
  complete s (s.shiftDoneWord t (shiftPairWord (s.readGr r1) (s.readGr r2) s.sarWord) c)

def execShrpwFixed (r2 r1 : BitVec 5) (c : BitVec 3) (cpos t : BitVec 5) (s : State) :
    Host.Outcome State Fault Refusal :=
  complete s (s.shiftDoneWord t (shiftPairWord (s.readGr r1) (s.readGr r2) (complementPosWord cpos)) c)

/-! ### Extract (R594, R595) -/

def execExtrdSar (r t : BitVec 5) (c : BitVec 3) (se cl : BitVec 1) (clen : BitVec 5) (s : State) :
    Host.Outcome State Fault Refusal :=
  complete s (s.extractForm r t c se s.sar.toNat (assemble6 cl clen))

def execExtrwSar (r t : BitVec 5) (c : BitVec 3) (se : BitVec 1) (clen : BitVec 5) (s : State) :
    Host.Outcome State Fault Refusal :=
  complete s (s.extractWordForm r t c se s.sarWord (wordLen clen))

def execExtrdFixed (r t : BitVec 5) (c : BitVec 3) (cl p se : BitVec 1) (pos clen : BitVec 5) (s : State) :
    Host.Outcome State Fault Refusal :=
  let place := (p ++ pos : BitVec 6).toNat
  complete s (do fixedField place (assemble6 cl clen); s.extractForm r t c se place (assemble6 cl clen))

def execExtrwFixed (r t : BitVec 5) (c : BitVec 3) (se : BitVec 1) (pos clen : BitVec 5) (s : State) :
    Host.Outcome State Fault Refusal :=
  complete s (do fixedField pos.toNat (wordLen clen); s.extractWordForm r t c se pos.toNat (wordLen clen))

/-! ### Deposit (R596 to R599): the first register field is the target -/

def execDepdSar (t r : BitVec 5) (c : BitVec 3) (nz cl : BitVec 1) (clen : BitVec 5) (s : State) :
    Host.Outcome State Fault Refusal :=
  complete s (s.depositForm t (s.readGr r) c nz s.sar.toNat (assemble6 cl clen))

def execDepdFixed (t r : BitVec 5) (c : BitVec 3) (cl cp nz : BitVec 1) (cpos clen : BitVec 5) (s : State) :
    Host.Outcome State Fault Refusal :=
  complete s (do
    fixedField (complementPos cp cpos) (assemble6 cl clen)
    s.depositForm t (s.readGr r) c nz (complementPos cp cpos) (assemble6 cl clen))

def execDepdiSar (t im5 : BitVec 5) (c : BitVec 3) (nz cl : BitVec 1) (clen : BitVec 5) (s : State) :
    Host.Outcome State Fault Refusal :=
  complete s (s.depositForm t (lowSignExt im5) c nz s.sar.toNat (assemble6 cl clen))

def execDepdiFixed (t im5 : BitVec 5) (c : BitVec 3) (cl cp nz : BitVec 1) (cpos clen : BitVec 5) (s : State) :
    Host.Outcome State Fault Refusal :=
  complete s (do
    fixedField (complementPos cp cpos) (assemble6 cl clen)
    s.depositForm t (lowSignExt im5) c nz (complementPos cp cpos) (assemble6 cl clen))

def execDepwSar (t r : BitVec 5) (c : BitVec 3) (nz : BitVec 1) (clen : BitVec 5) (s : State) :
    Host.Outcome State Fault Refusal :=
  complete s (s.depositWordForm t (s.readGr r) c nz s.sarWord (wordLen clen))

def execDepwFixed (t r : BitVec 5) (c : BitVec 3) (nz : BitVec 1) (cpos clen : BitVec 5) (s : State) :
    Host.Outcome State Fault Refusal :=
  complete s (do
    fixedField (complementPosWord cpos) (wordLen clen)
    s.depositWordForm t (s.readGr r) c nz (complementPosWord cpos) (wordLen clen))

def execDepwiSar (t im5 : BitVec 5) (c : BitVec 3) (nz : BitVec 1) (clen : BitVec 5) (s : State) :
    Host.Outcome State Fault Refusal :=
  complete s (s.depositWordForm t (lowSignExt im5) c nz s.sarWord (wordLen clen))

def execDepwiFixed (t im5 : BitVec 5) (c : BitVec 3) (nz : BitVec 1) (cpos clen : BitVec 5) (s : State) :
    Host.Outcome State Fault Refusal :=
  complete s (do
    fixedField (complementPosWord cpos) (wordLen clen)
    s.depositWordForm t (lowSignExt im5) c nz (complementPosWord cpos) (wordLen clen))

end Sys2Proof.Machine
end

