-- ==== Sys2Proof/Machine/SystemControl.lean ====
section
/-! DEFINITION. System control: register moves, the system mask, return from interruption, BREAK, SYNC, DIAG
(46_system_control.md). -/

namespace Sys2Proof.Machine

/-! ### Control registers (R657, R659; 10_state.md R60 to R79) -/

/-- A privileged register, or the privileged register trap (60_exceptions.md R1002, interruption 11). -/
def registerAccess (allowed : Bool) : Res Unit := if allowed then .ok () else .error (trapInstr .privilegedRegister)

/-- The value a control register reads as, right-aligned (10_state.md R61). -/
def State.readCr (s : State) (r : BitVec 5) : Dword :=
  match r.toNat with
  | 0 => s.rctr.zeroExtend 64
  | 8 => s.pid12
  | 9 => s.pid34
  | 10 => (s.scr ++ s.ccr).zeroExtend 64
  | 11 => s.sar.zeroExtend 64
  | 12 => s.pid56
  | 13 => s.pid78
  | 14 => s.iva
  | 15 => s.eiem
  | 16 => s.itmr
  | 17 => s.iiasqFront
  | 18 => s.iiaoqFront
  | 19 => s.iir.zeroExtend 64
  | 20 => s.isr
  | 21 => s.ior
  | 22 => s.ipsw
  | 23 => s.eirr
  | n => if h : 24 ≤ n ∧ n < 32 then s.tr[n - 24]'(by omega) else 0

/-- A control register written; bits the register does not have are dropped (10_state.md R61, R657), reserved bits are zero here
(`reservedMask`). -/
def State.writeCr (s : State) (r : BitVec 5) (v : Dword) : State :=
  match r.toNat with
  | 0 => { s with rctr := v.extractLsb' 0 32 }
  | 8 => { s with pid12 := v }
  | 9 => { s with pid34 := v }
  | 10 => { s with scr := field v 48 55, ccr := field v 56 63 }
  | 11 => { s with sar := field v 58 63 }
  | 12 => { s with pid56 := v }
  | 13 => { s with pid78 := v }
  | 14 => { s with iva := v &&& ~~~0x7FF#64 }
  | 15 => { s with eiem := v }
  | 16 => { s with itmrCompare := v.extractLsb' 0 32 }
  | 17 => { s with iiasqFront := s.iiasqBack, iiasqBack := v &&& Config.sidMask }
  | 18 => { s with iiaoqFront := s.iiaoqBack, iiaoqBack := v }
  | 20 => { s with isr := v &&& Config.sidMask }
  | 21 => { s with ior := v }
  | 22 => { s with ipsw := v &&& Psw.defined }
  | 23 => { s with eirr := s.eirr &&& ~~~v }
  | n => if h : 24 ≤ n ∧ n < 32 then { s with tr := s.tr.set (n - 24) v (by omega) } else s

/-- CR 1 to 7 (R60). -/
def reservedCr (r : BitVec 5) : Bool := 1 ≤ r.toNat && r.toNat ≤ 7

/-- Units whose configuration bit `v` would set although they are absent (R64, R65). -/
def setsAbsentUnit (v : Dword) : Bool :=
  field v 48 55 &&& ~~~Config.sfusPresent != 0#8 || field v 56 63 &&& ~~~Config.coprocessorsPresent != 0#8

/-- The reserved bits of a control register (00_scope.md R19 class 1; 10_state.md R63, R64, R67, R76). -/
def reservedMask (t : BitVec 5) : Dword :=
  match t.toNat with
  | 8 | 9 | 12 | 13 => ~~~Config.pidMask
  | 10 => ~~~0xFFFF#64
  | 14 => 0x7FF#64
  | 22 => ~~~Psw.defined
  | _ => 0

/-- What MTCTL may not do (R657); ones to reserved bits by R19, D44. -/
def State.mtctlStop (s : State) (t : BitVec 5) (v : Dword) : Option Refusal :=
  if t = 0#5 && s.flag Psw.R then some .recoveryCounterRunning
  else if t = 19#5 then some .writeOfIir
  else if (t = 17#5 || t = 18#5 || t = 20#5 || t = 21#5 || t = 22#5) && s.flag Psw.Q then some .interruptionRegisterLive
  else if v &&& reservedMask t != 0#64 then some .reservedBits
  else if t = 10#5 && setsAbsentUnit v then some .absentUnit
  else none

/-- MTCTL (R657). -/
def State.mtctlForm (s : State) (t r : BitVec 5) : Res Done := do
  if reservedCr t then .error (.refuse .reservedControlRegister)
  registerAccess (t = 11#5 || s.priv = 0#2)
  match s.mtctlStop t (s.readGr r) with
  | some x => .error (.refuse x)
  | none => done s (s.writeCr t (s.readGr r)) false

/-- Control registers readable above privilege level 0 (R659; 10_state.md R79). -/
def State.publicCr (s : State) (r : BitVec 5) : Bool :=
  r = 11#5 || r = 26#5 || r = 27#5 || (r = 16#5 && !(s.flag Psw.S))

/-- Reading this control register now gives an undefined value (R659, D18). -/
def State.openCr (s : State) (r : BitVec 5) : Bool :=
  (r = 0#5 && s.flag Psw.R) || (19 ≤ r.toNat && r.toNat ≤ 22 && s.flag Psw.Q)

/-- MFCTL (R659): without W, SAR reads as its five rightmost bits. R659 and 10_state.md R79 give the undefined case of W with another register
(D17) no place among their checks: it stands after the privilege and before the Q and R cases. DESIGN CHOICE, log entry 46. -/
def State.mfctlForm (s : State) (r : BitVec 5) (e : BitVec 1) (t : BitVec 5) : Res Done := do
  if reservedCr r then .error (.refuse .reservedControlRegister)
  registerAccess (s.priv = 0#2 || s.publicCr r)
  if isSet e && r ≠ 11#5 then .error (.refuse .wideMoveNotSar)
  if (r = 17#5 || r = 18#5) && s.flag Psw.Q then .error (.refuse .interruptionRegisterLive)
  if s.openCr r then done s ((s.writeGr t (s.free 0)).drawn 1) false
  else if r = 11#5 && !(isSet e) then done s (s.writeGr t (s.readCr r &&& 31#64)) false
  else done s (s.writeGr t (s.readCr r)) false

/-! ### System mask (R661 to R664) -/

/-- The PSW bits that the 10-bit immediate of SSM and RSM names (R661). -/
def maskImage (iv : BitVec 10) : Dword :=
  ((iv.extractLsb' 8 2).zeroExtend 64 <<< 26) ||| (iv.extractLsb' 0 8).zeroExtend 64

/-- The system mask with the rest of the PSW as it was; clearing Q loses the interruption state (R663, R664). -/
def State.setMask (s : State) (mask : Dword) : State :=
  let t := { s with psw := (s.psw &&& ~~~Psw.systemMask) ||| (mask &&& Psw.systemMask) }
  if s.flag Psw.Q && !(bitAt mask Psw.Q) then t.loseInterruptionState else t

/-- Only RFI sets Q (10_state.md R50). -/
def State.keepsQ (s : State) (mask : Dword) : Res Unit :=
  if !(s.flag Psw.Q) && bitAt mask Psw.Q then .error (.refuse .settingQ) else .ok ()

/-- SSM (R662). -/
def State.ssmForm (s : State) (iv : BitVec 10) (t : BitVec 5) : Res Done := do
  s.privileged
  s.keepsQ (maskImage iv)
  done s ((s.writeGr t (s.psw &&& Psw.systemMask)).setMask (s.psw ||| maskImage iv)) false

/-- RSM (R663). -/
def State.rsmForm (s : State) (iv : BitVec 10) (t : BitVec 5) : Res Done := do
  s.privileged
  done s ((s.writeGr t (s.psw &&& Psw.systemMask)).setMask (s.psw &&& ~~~(maskImage iv))) false

/-- MTSM (R664). -/
def State.mtsmForm (s : State) (r : BitVec 5) : Res Done := do
  s.privileged
  s.keepsQ (s.readGr r)
  done s (s.setMask (s.readGr r)) false

/-! ### Space registers (R654 to R656) -/

/-- LDSID: undefined value where `space_select` is undefined (R654). -/
def State.ldsidForm (s : State) (b : BitVec 5) (sr : BitVec 2) (t : BitVec 5) : Res Done :=
  match s.spaceSelect sr (s.readGr b) false with
  | .ok v => done s (s.writeGr t v) false
  | .error _ => done s ((s.writeGr t (s.free 0)).drawn 1) false

/-- MTSP (R655): with PSW[W] = 0 the upper half keeps its value. -/
def State.mtspForm (s : State) (r : BitVec 5) (field3 : BitVec 3) : Res Done := do
  let n := assemble3 field3
  registerAccess (n.toNat < 5 || s.priv = 0#2)
  let v := s.readGr r
  done s (s.writeSr n (if s.flag Psw.W then v else (s.readSr n).extractLsb' 32 32 ++ v.extractLsb' 0 32)) false

/-! ### Return from interruption (R665) -/

/-- The IIA queues are not what an interruption could have saved with this IPSW (R665 g): with B = 0 the two elements are consecutive
words of one space at one level. The spaces count only with code translation on, and but for the bits that an offset can have set
in them (10_state.md R72). DEDUCED, log entry 35. -/
def State.brokenQueues (s : State) : Bool :=
  !(bitAt s.ipsw Psw.B) &&
    (s.iiaoqBack != s.iiaoqFront + 4 ||
      (bitAt s.ipsw Psw.C &&
        recoverSpace (recoverSpace s.iiasqFront s.iiaoqFront) s.iiaoqBack != recoverSpace (recoverSpace s.iiasqBack s.iiaoqFront) s.iiaoqBack))

/-- When RFI is an undefined operation (R665 a, b, g), after its privilege check. With PSW[L] = 1 that is a return to another level than 0
(R665 b), where 93_implementation_defined.md section 2 speaks of a more privileged one. DEDUCED, log entry 35. -/
def State.rfiAllowed (s : State) : Res Unit := do
  s.privileged
  if s.flag Psw.Q || s.flag Psw.I || s.flag Psw.R then .error (.refuse .returnNotAllowed)
  if s.flag Psw.L && s.iiaoqFront.extractLsb' 0 2 != 0#2 then .error (.refuse .returnNotAllowed)
  if s.brokenQueues then .error (.refuse .inconsistentQueues)

/-- RFI from the state `t` its register restore left: no queue advance, no group 4 trap (R665 h). -/
def State.rfiForm (s t : State) : Host.Outcome State Fault Refusal :=
  match s.rfiAllowed with
  | .error e => complete s (.error e)
  | .ok _ => .next (returnFromInterruption t).tick

/-! ### The instructions -/

/-- BREAK (R652). -/
def execBrk (_im13 : BitVec 13) (_im5 : BitVec 5) (s : State) :
    Host.Outcome State Fault Refusal :=
  complete s (.error (trapInstr .breakInstruction))

/-- DIAG (R653): at privilege level 0 what the implementation says, DIAG_EFFECT (D16). -/
def execDiag (_im26 : BitVec 26) (s : State) :
    Host.Outcome State Fault Refusal :=
  complete s (do
    s.privileged
    if Config.diagRefused then .error (.refuse .diagnose) else done s s false)

def execLdsid (b : BitVec 5) (sr : BitVec 2) (t : BitVec 5) (s : State) :
    Host.Outcome State Fault Refusal :=
  complete s (s.ldsidForm b sr t)

def execMtsp (r : BitVec 5) (sr : BitVec 3) (s : State) :
    Host.Outcome State Fault Refusal :=
  complete s (s.mtspForm r sr)

/-- MFSP (R656). -/
def execMfsp (sr : BitVec 3) (t : BitVec 5) (s : State) :
    Host.Outcome State Fault Refusal :=
  complete s (done s (s.writeGr t (s.readSr (assemble3 sr))) false)

def execMtctl (t r : BitVec 5) (s : State) :
    Host.Outcome State Fault Refusal :=
  complete s (s.mtctlForm t r)

/-- MTSARCM (R658). -/
def execMtsarcm (r : BitVec 5) (s : State) :
    Host.Outcome State Fault Refusal :=
  complete s (done s { s with sar := ~~~(field (s.readGr r) 58 63) } false)

def execMfctl (r : BitVec 5) (e : BitVec 1) (t : BitVec 5) (s : State) :
    Host.Outcome State Fault Refusal :=
  complete s (s.mfctlForm r e t)

/-- MFIA (R660). -/
def execMfia (t : BitVec 5) (s : State) :
    Host.Outcome State Fault Refusal :=
  complete s (done s (s.writeGr t s.fetchOffset) false)

def execSsm (iv : BitVec 10) (t : BitVec 5) (s : State) :
    Host.Outcome State Fault Refusal :=
  complete s (s.ssmForm iv t)

def execRsm (iv : BitVec 10) (t : BitVec 5) (s : State) :
    Host.Outcome State Fault Refusal :=
  complete s (s.rsmForm iv t)

def execMtsm (r : BitVec 5) (s : State) :
    Host.Outcome State Fault Refusal :=
  complete s (s.mtsmForm r)

def execRfi (s : State) : Host.Outcome State Fault Refusal :=
  s.rfiForm s

def execRfiR (s : State) : Host.Outcome State Fault Refusal :=
  s.rfiForm s.restoreShadow

/-- SYNC: every memory reference of the model is already in program order (R666). -/
def execSync (s : State) : Host.Outcome State Fault Refusal :=
  complete s (done s s false)

/-- SYNCDMA: no DMA agent in the model (R667). -/
def execSyncdma (s : State) : Host.Outcome State Fault Refusal :=
  complete s (done s s false)

end Sys2Proof.Machine
end

