-- ==== Sys2Proof/Syntax.lean ====
section
/-! DEFINITION. The instructions of PA-RISC 2.0 as syntax: one constructor per row of spec/opcode_table.json,
its operands the row's fields in the order of the word, each as wide as the field. A field of which the row fixes
the leading bits (the unit identifier of a coprocessor row) keeps only its free bits, under a name ending in `lo`.
The constructors shladd, shladdL, shladdTsv, hshladd and hshradd stand each for the three rows with sa = 1, 2, 3.
Field names are those of 30_encoding.md R323; `sr` is the s field, `iv` the i field, `x1` and `x2` the sixth bits of
the register specifiers r1 (rm1) and r2 (rm2), `rx` and `tx` those of r and t, `h` the register half. -/

namespace Sys2Proof

/-- One instruction word, by row of the opcode table (30_encoding.md). -/
inductive Instr where
  /-- `LDB`, format 1, R410 -/
  | ldbLong (b t : BitVec 5) (sr : BitVec 2) (im14 : BitVec 14)
  /-- `LDH`, format 1, R411 -/
  | ldhLong (b t : BitVec 5) (sr : BitVec 2) (im14 : BitVec 14)
  /-- `LDW`, format 1, R412 -/
  | ldwLong (b t : BitVec 5) (sr : BitVec 2) (im14 : BitVec 14)
  /-- `LDW`, format 1, R412; long displacement with base modification (MA/MB chosen by the sign of the displacement) -/
  | ldwLongMod (b t : BitVec 5) (sr : BitVec 2) (im14 : BitVec 14)
  /-- `STB`, format 1, R415 -/
  | stbLong (b r : BitVec 5) (sr : BitVec 2) (im14 : BitVec 14)
  /-- `STH`, format 1, R416 -/
  | sthLong (b r : BitVec 5) (sr : BitVec 2) (im14 : BitVec 14)
  /-- `STW`, format 1, R417 -/
  | stwLong (b r : BitVec 5) (sr : BitVec 2) (im14 : BitVec 14)
  /-- `STW`, format 1, R417; long displacement with base modification (MA/MB chosen by the sign of the displacement) -/
  | stwLongMod (b r : BitVec 5) (sr : BitVec 2) (im14 : BitVec 14)
  /-- `LDW`, format 2, R412; long displacement with base modification, Format 2; bit {29} = 1 separates it from FLDW -/
  | ldwLong11 (b t : BitVec 5) (sr : BitVec 2) (im11a : BitVec 11) (iv : BitVec 1)
  /-- `STW`, format 2, R417; long displacement with base modification, Format 2; bit {29} = 1 separates it from FSTW -/
  | stwLong11 (b r : BitVec 5) (sr : BitVec 2) (im11a : BitVec 11) (iv : BitVec 1)
  /-- `LDD`, format 3, R413; bit {30} = 0 separates it from FLDD -/
  | lddLong (b t : BitVec 5) (sr : BitVec 2) (im10a : BitVec 10) (m a iv : BitVec 1)
  /-- `STD`, format 3, R418; bit {30} = 0 separates it from FSTD -/
  | stdLong (b r : BitVec 5) (sr : BitVec 2) (im10a : BitVec 10) (m a iv : BitVec 1)
  /-- `LDB`, format 5, R410 -/
  | ldbShort (b im5 : BitVec 5) (sr : BitVec 2) (a : BitVec 1) (cc : BitVec 2) (m : BitVec 1) (t : BitVec 5)
  /-- `LDB`, format 4, R410 -/
  | ldbIndexed (b x : BitVec 5) (sr : BitVec 2) (u : BitVec 1) (cc : BitVec 2) (m : BitVec 1) (t : BitVec 5)
  /-- `LDH`, format 5, R411 -/
  | ldhShort (b im5 : BitVec 5) (sr : BitVec 2) (a : BitVec 1) (cc : BitVec 2) (m : BitVec 1) (t : BitVec 5)
  /-- `LDH`, format 4, R411 -/
  | ldhIndexed (b x : BitVec 5) (sr : BitVec 2) (u : BitVec 1) (cc : BitVec 2) (m : BitVec 1) (t : BitVec 5)
  /-- `LDW`, format 5, R412 -/
  | ldwShort (b im5 : BitVec 5) (sr : BitVec 2) (a : BitVec 1) (cc : BitVec 2) (m : BitVec 1) (t : BitVec 5)
  /-- `LDW`, format 4, R412 -/
  | ldwIndexed (b x : BitVec 5) (sr : BitVec 2) (u : BitVec 1) (cc : BitVec 2) (m : BitVec 1) (t : BitVec 5)
  /-- `LDD`, format 5, R413 -/
  | lddShort (b im5 : BitVec 5) (sr : BitVec 2) (a : BitVec 1) (cc : BitVec 2) (m : BitVec 1) (t : BitVec 5)
  /-- `LDD`, format 4, R413 -/
  | lddIndexed (b x : BitVec 5) (sr : BitVec 2) (u : BitVec 1) (cc : BitVec 2) (m : BitVec 1) (t : BitVec 5)
  /-- `LDDA`, format 5, R421; absolute: the s field is the constant 0 -/
  | lddaShort (b im5 : BitVec 5) (a : BitVec 1) (cc : BitVec 2) (m : BitVec 1) (t : BitVec 5)
  /-- `LDDA`, format 4, R421; absolute: the s field is the constant 0 -/
  | lddaIndexed (b x : BitVec 5) (u : BitVec 1) (cc : BitVec 2) (m : BitVec 1) (t : BitVec 5)
  /-- `LDCD`, format 5, R432 -/
  | ldcdShort (b im5 : BitVec 5) (sr : BitVec 2) (a : BitVec 1) (cc : BitVec 2) (m : BitVec 1) (t : BitVec 5)
  /-- `LDCD`, format 4, R432 -/
  | ldcdIndexed (b x : BitVec 5) (sr : BitVec 2) (u : BitVec 1) (cc : BitVec 2) (m : BitVec 1) (t : BitVec 5)
  /-- `LDWA`, format 5, R420; absolute: the s field is the constant 0 -/
  | ldwaShort (b im5 : BitVec 5) (a : BitVec 1) (cc : BitVec 2) (m : BitVec 1) (t : BitVec 5)
  /-- `LDWA`, format 4, R420; absolute: the s field is the constant 0 -/
  | ldwaIndexed (b x : BitVec 5) (u : BitVec 1) (cc : BitVec 2) (m : BitVec 1) (t : BitVec 5)
  /-- `LDCW`, format 5, R430 -/
  | ldcwShort (b im5 : BitVec 5) (sr : BitVec 2) (a : BitVec 1) (cc : BitVec 2) (m : BitVec 1) (t : BitVec 5)
  /-- `LDCW`, format 4, R430 -/
  | ldcwIndexed (b x : BitVec 5) (sr : BitVec 2) (u : BitVec 1) (cc : BitVec 2) (m : BitVec 1) (t : BitVec 5)
  /-- `STB`, format 6, R415 -/
  | stbShort (b r : BitVec 5) (sr : BitVec 2) (a : BitVec 1) (cc : BitVec 2) (m : BitVec 1) (im5 : BitVec 5)
  /-- `STH`, format 6, R416 -/
  | sthShort (b r : BitVec 5) (sr : BitVec 2) (a : BitVec 1) (cc : BitVec 2) (m : BitVec 1) (im5 : BitVec 5)
  /-- `STW`, format 6, R417 -/
  | stwShort (b r : BitVec 5) (sr : BitVec 2) (a : BitVec 1) (cc : BitVec 2) (m : BitVec 1) (im5 : BitVec 5)
  /-- `STD`, format 6, R418 -/
  | stdShort (b r : BitVec 5) (sr : BitVec 2) (a : BitVec 1) (cc : BitVec 2) (m : BitVec 1) (im5 : BitVec 5)
  /-- `STBY`, format 6, R435 -/
  | stby (b r : BitVec 5) (sr : BitVec 2) (a : BitVec 1) (cc : BitVec 2) (m : BitVec 1) (im5 : BitVec 5)
  /-- `STDBY`, format 6, R436 -/
  | stdby (b r : BitVec 5) (sr : BitVec 2) (a : BitVec 1) (cc : BitVec 2) (m : BitVec 1) (im5 : BitVec 5)
  /-- `STWA`, format 6, R422; absolute: the s field is the constant 0 -/
  | stwa (b r : BitVec 5) (a : BitVec 1) (cc : BitVec 2) (m : BitVec 1) (im5 : BitVec 5)
  /-- `STDA`, format 6, R423; absolute: the s field is the constant 0 -/
  | stda (b r : BitVec 5) (a : BitVec 1) (cc : BitVec 2) (m : BitVec 1) (im5 : BitVec 5)
  /-- `LDO`, format 1, R460; bits {16..17} are displacement bits (used when PSW[W] = 1), not a space selector -/
  | ldo (b t : BitVec 5) (iv : BitVec 2) (im14 : BitVec 14)
  /-- `LDIL`, format 7, R461 -/
  | ldil (t : BitVec 5) (im21 : BitVec 21)
  /-- `ADDIL`, format 7, R462 -/
  | addil (r : BitVec 5) (im21 : BitVec 21)
  /-- `B,L`, format 20, R481; 17-bit displacement, link in GR t (t = 0: plain B) -/
  | bl17 (t w1 : BitVec 5) (w2 : BitVec 11) (n w : BitVec 1)
  /-- `B,GATE`, format 20, R481 -/
  | bGate (t w1 : BitVec 5) (w2 : BitVec 11) (n w : BitVec 1)
  /-- `B,L,PUSH`, format 20, R481; 22-bit displacement, link in GR 2 -/
  | blPush (w3 w1 : BitVec 5) (w2 : BitVec 11) (n w : BitVec 1)
  /-- `B,L`, format 20, R481; 22-bit displacement, link in GR 2 -/
  | bl22 (w3 w1 : BitVec 5) (w2 : BitVec 11) (n w : BitVec 1)
  /-- `PUSHBTS`, format 23, R500; r = 0 is PUSHNOM -/
  | pushbts (r : BitVec 5)
  /-- `POPBTS`, format 23, R502; i = 0 is CLRBTS -/
  | popbts (iv : BitVec 9)
  /-- `BLR`, format 21, R482; bit {31} = 0 separates it from the Branch Target Stack group -/
  | blr (t x : BitVec 5) (n : BitVec 1)
  /-- `BV`, format 21, R483 -/
  | bv (b x : BitVec 5) (n : BitVec 1)
  /-- `BVE`, format 22, R485; p = 1 is the POP completer -/
  | bve (b : BitVec 5) (n p : BitVec 1)
  /-- `BVE,L`, format 22, R485; p = 1 is the PUSH completer; link in GR 2 -/
  | bveL (b : BitVec 5) (n p : BitVec 1)
  /-- `BE`, format 19, R484 -/
  | be (b w1 : BitVec 5) (sr : BitVec 3) (w2 : BitVec 11) (n w : BitVec 1)
  /-- `BE,L`, format 19, R484; link in GR 31 and SR 0 -/
  | beL (b w1 : BitVec 5) (sr : BitVec 3) (w2 : BitVec 11) (n w : BitVec 1)
  /-- `ADDB`, format 17, R490; branch if the condition is true -/
  | addbT (r2 r1 : BitVec 5) (c : BitVec 3) (w1 : BitVec 11) (n w : BitVec 1)
  /-- `ADDB`, format 17, R490; branch if the condition is false (f = 1) -/
  | addbF (r2 r1 : BitVec 5) (c : BitVec 3) (w1 : BitVec 11) (n w : BitVec 1)
  /-- `ADDIB`, format 17, R491; branch if the condition is true -/
  | addibT (r im5 : BitVec 5) (c : BitVec 3) (w1 : BitVec 11) (n w : BitVec 1)
  /-- `ADDIB`, format 17, R491; branch if the condition is false (f = 1) -/
  | addibF (r im5 : BitVec 5) (c : BitVec 3) (w1 : BitVec 11) (n w : BitVec 1)
  /-- `CMPB`, format 17, R492; 32-bit condition, true -/
  | cmpbT (r2 r1 : BitVec 5) (c : BitVec 3) (w1 : BitVec 11) (n w : BitVec 1)
  /-- `CMPB`, format 17, R492; 32-bit condition, false -/
  | cmpbF (r2 r1 : BitVec 5) (c : BitVec 3) (w1 : BitVec 11) (n w : BitVec 1)
  /-- `CMPB`, format 17, R492; 64-bit condition, true -/
  | cmpbDT (r2 r1 : BitVec 5) (c : BitVec 3) (w1 : BitVec 11) (n w : BitVec 1)
  /-- `CMPB`, format 17, R492; 64-bit condition, false -/
  | cmpbDF (r2 r1 : BitVec 5) (c : BitVec 3) (w1 : BitVec 11) (n w : BitVec 1)
  /-- `CMPIB`, format 17, R493; 32-bit condition, true -/
  | cmpibT (r im5 : BitVec 5) (c : BitVec 3) (w1 : BitVec 11) (n w : BitVec 1)
  /-- `CMPIB`, format 17, R493; 32-bit condition, false -/
  | cmpibF (r im5 : BitVec 5) (c : BitVec 3) (w1 : BitVec 11) (n w : BitVec 1)
  /-- `CMPIB`, format 17, R493; 64-bit condition -/
  | cmpibD (r im5 : BitVec 5) (c : BitVec 3) (w1 : BitVec 11) (n w : BitVec 1)
  /-- `MOVB`, format 17, R494 -/
  | movb (r2 r1 : BitVec 5) (c : BitVec 3) (w1 : BitVec 11) (n w : BitVec 1)
  /-- `MOVIB`, format 17, R495 -/
  | movib (r im5 : BitVec 5) (c : BitVec 3) (w1 : BitVec 11) (n w : BitVec 1)
  /-- `BB`, format 18, R496; fixed bit position cat(~d, p) -/
  | bbFixed (p r : BitVec 5) (c d : BitVec 1) (w1 : BitVec 11) (n w : BitVec 1)
  /-- `BB`, format 18, R496; variable bit position (SAR); the p field is 0 -/
  | bbSar (r : BitVec 5) (c d : BitVec 1) (w1 : BitVec 11) (n w : BitVec 1)
  /-- `ADD`, format 8, R544 -/
  | add (r2 r1 : BitVec 5) (c : BitVec 3) (f d : BitVec 1) (t : BitVec 5)
  /-- `ADD,C`, format 8, R544; written ADD,DC when d = 1 -/
  | addC (r2 r1 : BitVec 5) (c : BitVec 3) (f d : BitVec 1) (t : BitVec 5)
  /-- `ADD,L`, format 8, R544 -/
  | addL (r2 r1 : BitVec 5) (c : BitVec 3) (f d : BitVec 1) (t : BitVec 5)
  /-- `ADD,TSV`, format 8, R544 -/
  | addTsv (r2 r1 : BitVec 5) (c : BitVec 3) (f d : BitVec 1) (t : BitVec 5)
  /-- `ADD,C,TSV`, format 8, R544; written ADD,DC when d = 1 -/
  | addCTsv (r2 r1 : BitVec 5) (c : BitVec 3) (f d : BitVec 1) (t : BitVec 5)
  /-- `SUB`, format 8, R547 -/
  | sub (r2 r1 : BitVec 5) (c : BitVec 3) (f d : BitVec 1) (t : BitVec 5)
  /-- `SUB,TC`, format 8, R547 -/
  | subTc (r2 r1 : BitVec 5) (c : BitVec 3) (f d : BitVec 1) (t : BitVec 5)
  /-- `SUB,B`, format 8, R547; written SUB,DB when d = 1 -/
  | subB (r2 r1 : BitVec 5) (c : BitVec 3) (f d : BitVec 1) (t : BitVec 5)
  /-- `SUB,TSV`, format 8, R547 -/
  | subTsv (r2 r1 : BitVec 5) (c : BitVec 3) (f d : BitVec 1) (t : BitVec 5)
  /-- `SUB,TSV,TC`, format 8, R547 -/
  | subTsvTc (r2 r1 : BitVec 5) (c : BitVec 3) (f d : BitVec 1) (t : BitVec 5)
  /-- `SUB,B,TSV`, format 8, R547; written SUB,DB when d = 1 -/
  | subBTsv (r2 r1 : BitVec 5) (c : BitVec 3) (f d : BitVec 1) (t : BitVec 5)
  /-- `AND`, format 8, R552 -/
  | and (r2 r1 : BitVec 5) (c : BitVec 3) (f d : BitVec 1) (t : BitVec 5)
  /-- `ANDCM`, format 8, R553 -/
  | andcm (r2 r1 : BitVec 5) (c : BitVec 3) (f d : BitVec 1) (t : BitVec 5)
  /-- `OR`, format 8, R554 -/
  | or (r2 r1 : BitVec 5) (c : BitVec 3) (f d : BitVec 1) (t : BitVec 5)
  /-- `XOR`, format 8, R555 -/
  | xor (r2 r1 : BitVec 5) (c : BitVec 3) (f d : BitVec 1) (t : BitVec 5)
  /-- `CMPCLR`, format 8, R558 -/
  | cmpclr (r2 r1 : BitVec 5) (c : BitVec 3) (f d : BitVec 1) (t : BitVec 5)
  /-- `UXOR`, format 8, R560 -/
  | uxor (r2 r1 : BitVec 5) (c : BitVec 3) (f d : BitVec 1) (t : BitVec 5)
  /-- `UADDCM`, format 8, R561 -/
  | uaddcm (r2 r1 : BitVec 5) (c : BitVec 3) (f d : BitVec 1) (t : BitVec 5)
  /-- `UADDCM,TC`, format 8, R561 -/
  | uaddcmTc (r2 r1 : BitVec 5) (c : BitVec 3) (f d : BitVec 1) (t : BitVec 5)
  /-- `SHLADD`, format 8, R546; sa = 1, 2, 3 are the three rows of the table (sa = 0 is another instruction) -/
  | shladd (r2 r1 : BitVec 5) (c : BitVec 3) (f : BitVec 1) (sa : BitVec 2) (d : BitVec 1) (t : BitVec 5)
  /-- `SHLADD,L`, format 8, R546; sa = 1, 2, 3 are the three rows of the table (sa = 0 is another instruction) -/
  | shladdL (r2 r1 : BitVec 5) (c : BitVec 3) (f : BitVec 1) (sa : BitVec 2) (d : BitVec 1) (t : BitVec 5)
  /-- `SHLADD,TSV`, format 8, R546; sa = 1, 2, 3 are the three rows of the table (sa = 0 is another instruction) -/
  | shladdTsv (r2 r1 : BitVec 5) (c : BitVec 3) (f : BitVec 1) (sa : BitVec 2) (d : BitVec 1) (t : BitVec 5)
  /-- `DS`, format 8, R551; bit {26} is printed as 0 -/
  | ds (r2 r1 : BitVec 5) (c : BitVec 3) (f : BitVec 1) (t : BitVec 5)
  /-- `DCOR`, format 8, R562 -/
  | dcor (r : BitVec 5) (c : BitVec 3) (f d : BitVec 1) (t : BitVec 5)
  /-- `DCOR,I`, format 8, R562 -/
  | dcorI (r : BitVec 5) (c : BitVec 3) (f d : BitVec 1) (t : BitVec 5)
  /-- `ADDI`, format 9, R545; e1 = 1 is the TSV completer -/
  | addi (r t : BitVec 5) (c : BitVec 3) (f e1 : BitVec 1) (im11 : BitVec 11)
  /-- `ADDI,TC`, format 9, R545; e1 = 1 is the TSV completer (ADDI,TSV,TC) -/
  | addiTc (r t : BitVec 5) (c : BitVec 3) (f e1 : BitVec 1) (im11 : BitVec 11)
  /-- `SUBI`, format 9, R548; e1 = 1 is the TSV completer -/
  | subi (r t : BitVec 5) (c : BitVec 3) (f e1 : BitVec 1) (im11 : BitVec 11)
  /-- `CMPICLR`, format 9, R559 -/
  | cmpiclr (r t : BitVec 5) (c : BitVec 3) (f d : BitVec 1) (im11 : BitVec 11)
  /-- `SHRPW`, format 11, R593; variable shift amount (SAR) -/
  | shrpwSar (r2 r1 : BitVec 5) (c : BitVec 3) (t : BitVec 5)
  /-- `SHRPD`, format 11, R592; variable shift amount (SAR) -/
  | shrpdSar (r2 r1 : BitVec 5) (c : BitVec 3) (t : BitVec 5)
  /-- `SHRPW`, format 14, R593; fixed; cpos = 31 - sa -/
  | shrpwFixed (r2 r1 : BitVec 5) (c : BitVec 3) (cpos t : BitVec 5)
  /-- `SHRPD`, format 14, R592; fixed; cat(cp,cpos) = 63 - sa -/
  | shrpdFixed (r2 r1 : BitVec 5) (c : BitVec 3) (cp : BitVec 1) (cpos t : BitVec 5)
  /-- `EXTRW`, format 12, R595; variable position (SAR) -/
  | extrwSar (r t : BitVec 5) (c : BitVec 3) (se : BitVec 1) (clen : BitVec 5)
  /-- `EXTRD`, format 12, R594; variable position (SAR) -/
  | extrdSar (r t : BitVec 5) (c : BitVec 3) (se cl : BitVec 1) (clen : BitVec 5)
  /-- `EXTRW`, format 15, R595; fixed position -/
  | extrwFixed (r t : BitVec 5) (c : BitVec 3) (se : BitVec 1) (pos clen : BitVec 5)
  /-- `EXTRD`, format 15, R594; fixed position cat(p,pos) -/
  | extrdFixed (r t : BitVec 5) (c : BitVec 3) (cl p se : BitVec 1) (pos clen : BitVec 5)
  /-- `DEPW`, format 13, R598; variable position (SAR) -/
  | depwSar (t r : BitVec 5) (c : BitVec 3) (nz : BitVec 1) (clen : BitVec 5)
  /-- `DEPD`, format 13, R596; variable position (SAR) -/
  | depdSar (t r : BitVec 5) (c : BitVec 3) (nz cl : BitVec 1) (clen : BitVec 5)
  /-- `DEPW`, format 16, R598; fixed; cpos = 31 - pos -/
  | depwFixed (t r : BitVec 5) (c : BitVec 3) (nz : BitVec 1) (cpos clen : BitVec 5)
  /-- `DEPWI`, format 13, R599; variable position (SAR) -/
  | depwiSar (t im5 : BitVec 5) (c : BitVec 3) (nz : BitVec 1) (clen : BitVec 5)
  /-- `DEPDI`, format 13, R597; variable position (SAR) -/
  | depdiSar (t im5 : BitVec 5) (c : BitVec 3) (nz cl : BitVec 1) (clen : BitVec 5)
  /-- `DEPWI`, format 16, R599; fixed; cpos = 31 - pos -/
  | depwiFixed (t im5 : BitVec 5) (c : BitVec 3) (nz : BitVec 1) (cpos clen : BitVec 5)
  /-- `DEPD`, format 16, R596; fixed; cat(cp,cpos) = 63 - pos -/
  | depdFixed (t r : BitVec 5) (c : BitVec 3) (cl cp nz : BitVec 1) (cpos clen : BitVec 5)
  /-- `DEPDI`, format 16, R597; fixed; cat(cp,cpos) = 63 - pos -/
  | depdiFixed (t im5 : BitVec 5) (c : BitVec 3) (cl cp nz : BitVec 1) (cpos clen : BitVec 5)
  /-- `HADD`, format 8, R622; c, f and d fields are 0 -/
  | hadd (r2 r1 t : BitVec 5)
  /-- `HADD,SS`, format 8, R622; c, f and d fields are 0 -/
  | haddSs (r2 r1 t : BitVec 5)
  /-- `HADD,US`, format 8, R622; c, f and d fields are 0 -/
  | haddUs (r2 r1 t : BitVec 5)
  /-- `HSUB`, format 8, R623; c, f and d fields are 0 -/
  | hsub (r2 r1 t : BitVec 5)
  /-- `HSUB,SS`, format 8, R623; c, f and d fields are 0 -/
  | hsubSs (r2 r1 t : BitVec 5)
  /-- `HSUB,US`, format 8, R623; c, f and d fields are 0 -/
  | hsubUs (r2 r1 t : BitVec 5)
  /-- `HAVG`, format 8, R624; c, f and d fields are 0 -/
  | havg (r2 r1 t : BitVec 5)
  /-- `HSHLADD`, format 8, R625; sa = 1, 2, 3 are the three rows of the table (sa = 0 is another instruction) -/
  | hshladd (r2 r1 : BitVec 5) (sa : BitVec 2) (t : BitVec 5)
  /-- `HSHRADD`, format 8, R626; sa = 1, 2, 3 are the three rows of the table (sa = 0 is another instruction) -/
  | hshradd (r2 r1 : BitVec 5) (sa : BitVec 2) (t : BitVec 5)
  /-- `HSHL`, format 10, R627 -/
  | hshl (r : BitVec 5) (sa : BitVec 4) (t : BitVec 5)
  /-- `HSHR,U`, format 10, R628 -/
  | hshrU (r : BitVec 5) (sa : BitVec 4) (t : BitVec 5)
  /-- `HSHR,S`, format 10, R628 -/
  | hshrS (r : BitVec 5) (sa : BitVec 4) (t : BitVec 5)
  /-- `MIXH,L`, format 10, R629 -/
  | mixhL (r2 r1 t : BitVec 5)
  /-- `MIXH,R`, format 10, R629 -/
  | mixhR (r2 r1 t : BitVec 5)
  /-- `MIXW,L`, format 10, R630 -/
  | mixwL (r2 r1 t : BitVec 5)
  /-- `MIXW,R`, format 10, R630 -/
  | mixwR (r2 r1 t : BitVec 5)
  /-- `PERMH`, format 10, R631; the page prints the source register r in both register fields -/
  | permh (r rb : BitVec 5) (c0 c1 c2 c3 : BitVec 2) (t : BitVec 5)
  /-- `BREAK`, format 27, R652 -/
  | brk (im13 : BitVec 13) (im5 : BitVec 5)
  /-- `SSM`, format 33, R662 -/
  | ssm (iv : BitVec 10) (t : BitVec 5)
  /-- `RSM`, format 33, R663 -/
  | rsm (iv : BitVec 10) (t : BitVec 5)
  /-- `MTSM`, format 33, R664 -/
  | mtsm (r : BitVec 5)
  /-- `LDSID`, format 30, R654 -/
  | ldsid (b : BitVec 5) (sr : BitVec 2) (t : BitVec 5)
  /-- `MTSP`, format 29, R655 -/
  | mtsp (r : BitVec 5) (sr : BitVec 3)
  /-- `MFSP`, format 29, R656 -/
  | mfsp (sr : BitVec 3) (t : BitVec 5)
  /-- `MTCTL`, format 31, R657; t is the control register number -/
  | mtctl (t r : BitVec 5)
  /-- `MTSARCM`, format 31, R658 -/
  | mtsarcm (r : BitVec 5)
  /-- `MFCTL`, format 32, R659; r is the control register number; e = 1 is the ,W completer (CR 11 only) -/
  | mfctl (r : BitVec 5) (e : BitVec 1) (t : BitVec 5)
  /-- `MFIA`, format 32, R660 -/
  | mfia (t : BitVec 5)
  /-- `DIAG`, format 28, R653 -/
  | diag (im26 : BitVec 26)
  /-- `IITLBT`, format 26, R721 -/
  | iitlbt (r2 r1 : BitVec 5)
  /-- `PITLB`, format 26, R718; global purge -/
  | pitlb (b x : BitVec 5) (sr : BitVec 3) (m : BitVec 1)
  /-- `PITLB,L`, format 26, R718; local purge (e1 = 1) -/
  | pitlbL (b x : BitVec 5) (sr : BitVec 3) (m : BitVec 1)
  /-- `PITLBE`, format 26, R719 -/
  | pitlbe (b x : BitVec 5) (sr : BitVec 3) (m : BitVec 1)
  /-- `FIC`, format 26, R713; 3-bit s names the space register -/
  | ficExplicit (b x : BitVec 5) (sr : BitVec 3) (m : BitVec 1)
  /-- `FICE`, format 26, R714 -/
  | fice (b x : BitVec 5) (sr : BitVec 3) (m : BitVec 1)
  /-- `IDTLBT`, format 26, R720 -/
  | idtlbt (r2 r1 : BitVec 5)
  /-- `PDTLB`, format 24, R716; global purge -/
  | pdtlb (b x : BitVec 5) (sr : BitVec 2) (m : BitVec 1)
  /-- `PDTLB,L`, format 24, R716; local purge (e1 = 1) -/
  | pdtlbL (b x : BitVec 5) (sr : BitVec 2) (m : BitVec 1)
  /-- `PDTLBE`, format 24, R717 -/
  | pdtlbe (b x : BitVec 5) (sr : BitVec 2) (m : BitVec 1)
  /-- `FDC`, format 24, R711; indexed form -/
  | fdcIndexed (b x : BitVec 5) (sr : BitVec 2) (m : BitVec 1)
  /-- `FDC`, format 25, R711; short displacement form -/
  | fdcShort (b im5 : BitVec 5) (sr : BitVec 2)
  /-- `FDCE`, format 24, R712 -/
  | fdce (b x : BitVec 5) (sr : BitVec 2) (m : BitVec 1)
  /-- `PDC`, format 24, R715 -/
  | pdc (b x : BitVec 5) (sr : BitVec 2) (m : BitVec 1)
  /-- `FIC`, format 24, R713; 2-bit s: implicit space selection -/
  | ficImplicit (b x : BitVec 5) (sr : BitVec 2) (m : BitVec 1)
  /-- `PROBE,R`, format 24, R724 -/
  | probeR (b r : BitVec 5) (sr : BitVec 2) (t : BitVec 5)
  /-- `PROBE,W`, format 24, R724 -/
  | probeW (b r : BitVec 5) (sr : BitVec 2) (t : BitVec 5)
  /-- `PROBEI,R`, format 24, R725 -/
  | probeiR (b iv : BitVec 5) (sr : BitVec 2) (t : BitVec 5)
  /-- `PROBEI,W`, format 24, R725 -/
  | probeiW (b iv : BitVec 5) (sr : BitVec 2) (t : BitVec 5)
  /-- `LPA`, format 24, R723 -/
  | lpa (b x : BitVec 5) (sr : BitVec 2) (m : BitVec 1) (t : BitVec 5)
  /-- `LCI`, format 24, R722 -/
  | lci (b x : BitVec 5) (sr : BitVec 2) (t : BitVec 5)
  /-- `SPOP0`, format 34, R760 -/
  | spop0 (sop1 : BitVec 15) (sfu : BitVec 3) (n : BitVec 1) (sop2 : BitVec 5)
  /-- `SPOP1`, format 35, R761 -/
  | spop1 (sop : BitVec 15) (sfu : BitVec 3) (n : BitVec 1) (t : BitVec 5)
  /-- `SPOP2`, format 36, R762 -/
  | spop2 (r : BitVec 5) (sop1 : BitVec 10) (sfu : BitVec 3) (n : BitVec 1) (sop2 : BitVec 5)
  /-- `SPOP3`, format 37, R763 -/
  | spop3 (r2 r1 sop1 : BitVec 5) (sfu : BitVec 3) (n : BitVec 1) (sop2 : BitVec 5)
  /-- `PMDIS`, format 55, R771 -/
  | pmdis (n : BitVec 1)
  /-- `COPR`, format 38, R764; uid = 1: an undefined operation when the floating-point coprocessor is enabled (rule R756); uid = 0 is the floating-point operation group, uid = 2 the performance monitor -/
  | copr1 (sop1 : BitVec 17) (n : BitVec 1) (sop2 : BitVec 5)
  /-- `COPR`, format 38, R764; uid = 3; uid = 0 is the floating-point operation group, uid = 2 the performance monitor -/
  | copr3 (sop1 : BitVec 17) (n : BitVec 1) (sop2 : BitVec 5)
  /-- `COPR`, format 38, R764; uid = 4 to 7; uid = 0 is the floating-point operation group, uid = 2 the performance monitor -/
  | copr4to7 (sop1 : BitVec 17) (uidlo : BitVec 2) (n : BitVec 1) (sop2 : BitVec 5)
  /-- `CLDW`, format 39, R767; indexed; uid = 2 or 3; uid = 0 (and 1 for words) is the floating-point load/store -/
  | cldwIndexed2 (b x : BitVec 5) (sr : BitVec 2) (u : BitVec 1) (cc : BitVec 2) (uidlo m : BitVec 1) (t : BitVec 5)
  /-- `CLDW`, format 41, R767; short displacement; uid = 2 or 3; uid = 0 (and 1 for words) is the floating-point load/store -/
  | cldwShort2 (b im5 : BitVec 5) (sr : BitVec 2) (a : BitVec 1) (cc : BitVec 2) (uidlo m : BitVec 1) (t : BitVec 5)
  /-- `CLDW`, format 39, R767; indexed; uid = 4 to 7; uid = 0 (and 1 for words) is the floating-point load/store -/
  | cldwIndexed4 (b x : BitVec 5) (sr : BitVec 2) (u : BitVec 1) (cc uidlo : BitVec 2) (m : BitVec 1) (t : BitVec 5)
  /-- `CLDW`, format 41, R767; short displacement; uid = 4 to 7; uid = 0 (and 1 for words) is the floating-point load/store -/
  | cldwShort4 (b im5 : BitVec 5) (sr : BitVec 2) (a : BitVec 1) (cc uidlo : BitVec 2) (m : BitVec 1) (t : BitVec 5)
  /-- `CSTW`, format 40, R769; indexed; uid = 2 or 3; uid = 0 (and 1 for words) is the floating-point load/store -/
  | cstwIndexed2 (b x : BitVec 5) (sr : BitVec 2) (u : BitVec 1) (cc : BitVec 2) (uidlo m : BitVec 1) (r : BitVec 5)
  /-- `CSTW`, format 42, R769; short displacement; uid = 2 or 3; uid = 0 (and 1 for words) is the floating-point load/store -/
  | cstwShort2 (b im5 : BitVec 5) (sr : BitVec 2) (a : BitVec 1) (cc : BitVec 2) (uidlo m : BitVec 1) (r : BitVec 5)
  /-- `CSTW`, format 40, R769; indexed; uid = 4 to 7; uid = 0 (and 1 for words) is the floating-point load/store -/
  | cstwIndexed4 (b x : BitVec 5) (sr : BitVec 2) (u : BitVec 1) (cc uidlo : BitVec 2) (m : BitVec 1) (r : BitVec 5)
  /-- `CSTW`, format 42, R769; short displacement; uid = 4 to 7; uid = 0 (and 1 for words) is the floating-point load/store -/
  | cstwShort4 (b im5 : BitVec 5) (sr : BitVec 2) (a : BitVec 1) (cc uidlo : BitVec 2) (m : BitVec 1) (r : BitVec 5)
  /-- `CLDD`, format 39, R768; indexed; uid = 2 or 3; uid = 0 (and 1 for words) is the floating-point load/store -/
  | clddIndexed2 (b x : BitVec 5) (sr : BitVec 2) (u : BitVec 1) (cc : BitVec 2) (uidlo m : BitVec 1) (t : BitVec 5)
  /-- `CLDD`, format 41, R768; short displacement; uid = 2 or 3; uid = 0 (and 1 for words) is the floating-point load/store -/
  | clddShort2 (b im5 : BitVec 5) (sr : BitVec 2) (a : BitVec 1) (cc : BitVec 2) (uidlo m : BitVec 1) (t : BitVec 5)
  /-- `CLDD`, format 39, R768; indexed; uid = 4 to 7; uid = 0 (and 1 for words) is the floating-point load/store -/
  | clddIndexed4 (b x : BitVec 5) (sr : BitVec 2) (u : BitVec 1) (cc uidlo : BitVec 2) (m : BitVec 1) (t : BitVec 5)
  /-- `CLDD`, format 41, R768; short displacement; uid = 4 to 7; uid = 0 (and 1 for words) is the floating-point load/store -/
  | clddShort4 (b im5 : BitVec 5) (sr : BitVec 2) (a : BitVec 1) (cc uidlo : BitVec 2) (m : BitVec 1) (t : BitVec 5)
  /-- `CSTD`, format 40, R774; indexed; uid = 2 or 3; uid = 0 (and 1 for words) is the floating-point load/store -/
  | cstdIndexed2 (b x : BitVec 5) (sr : BitVec 2) (u : BitVec 1) (cc : BitVec 2) (uidlo m : BitVec 1) (r : BitVec 5)
  /-- `CSTD`, format 42, R774; short displacement; uid = 2 or 3; uid = 0 (and 1 for words) is the floating-point load/store -/
  | cstdShort2 (b im5 : BitVec 5) (sr : BitVec 2) (a : BitVec 1) (cc : BitVec 2) (uidlo m : BitVec 1) (r : BitVec 5)
  /-- `CSTD`, format 40, R774; indexed; uid = 4 to 7; uid = 0 (and 1 for words) is the floating-point load/store -/
  | cstdIndexed4 (b x : BitVec 5) (sr : BitVec 2) (u : BitVec 1) (cc uidlo : BitVec 2) (m : BitVec 1) (r : BitVec 5)
  /-- `CSTD`, format 42, R774; short displacement; uid = 4 to 7; uid = 0 (and 1 for words) is the floating-point load/store -/
  | cstdShort4 (b im5 : BitVec 5) (sr : BitVec 2) (a : BitVec 1) (cc uidlo : BitVec 2) (m : BitVec 1) (r : BitVec 5)
  /-- `FLDW`, format 43, R871; long displacement, no base modification; half 0 = left (bits 0..31), 1 = right half of the register -/
  | fldwLong (b t : BitVec 5) (sr : BitVec 2) (im11a : BitVec 11) (h iv : BitVec 1)
  /-- `FLDW`, format 44, R871; long displacement with base modification (a = 1 before, 0 after) -/
  | fldwLongMod (b t : BitVec 5) (sr : BitVec 2) (im11a : BitVec 11) (a h iv : BitVec 1)
  /-- `FLDW`, format 41, R871; short displacement -/
  | fldwShort (b im5 : BitVec 5) (sr : BitVec 2) (a : BitVec 1) (cc : BitVec 2) (h m : BitVec 1) (t : BitVec 5)
  /-- `FLDW`, format 39, R871; indexed -/
  | fldwIndexed (b x : BitVec 5) (sr : BitVec 2) (u : BitVec 1) (cc : BitVec 2) (h m : BitVec 1) (t : BitVec 5)
  /-- `FSTW`, format 43, R873; long displacement, no base modification; half 0 = left (bits 0..31), 1 = right half of the register -/
  | fstwLong (b r : BitVec 5) (sr : BitVec 2) (im11a : BitVec 11) (h iv : BitVec 1)
  /-- `FSTW`, format 44, R873; long displacement with base modification (a = 1 before, 0 after) -/
  | fstwLongMod (b r : BitVec 5) (sr : BitVec 2) (im11a : BitVec 11) (a h iv : BitVec 1)
  /-- `FSTW`, format 42, R873; short displacement -/
  | fstwShort (b im5 : BitVec 5) (sr : BitVec 2) (a : BitVec 1) (cc : BitVec 2) (h m : BitVec 1) (r : BitVec 5)
  /-- `FSTW`, format 40, R873; indexed -/
  | fstwIndexed (b x : BitVec 5) (sr : BitVec 2) (u : BitVec 1) (cc : BitVec 2) (h m : BitVec 1) (r : BitVec 5)
  /-- `FLDD`, format 3, R872; long displacement; bit {30} = 1 -/
  | flddLong (b t : BitVec 5) (sr : BitVec 2) (im10a : BitVec 10) (m a iv : BitVec 1)
  /-- `FLDD`, format 41, R872; short displacement; uid bits {23..25} = 0 -/
  | flddShort (b im5 : BitVec 5) (sr : BitVec 2) (a : BitVec 1) (cc : BitVec 2) (m : BitVec 1) (t : BitVec 5)
  /-- `FLDD`, format 39, R872; indexed; uid bits {23..25} = 0 -/
  | flddIndexed (b x : BitVec 5) (sr : BitVec 2) (u : BitVec 1) (cc : BitVec 2) (m : BitVec 1) (t : BitVec 5)
  /-- `FSTD`, format 3, R874; long displacement; bit {30} = 1 -/
  | fstdLong (b r : BitVec 5) (sr : BitVec 2) (im10a : BitVec 10) (m a iv : BitVec 1)
  /-- `FSTD`, format 42, R874; short displacement; uid bits {23..25} = 0 -/
  | fstdShort (b im5 : BitVec 5) (sr : BitVec 2) (a : BitVec 1) (cc : BitVec 2) (m : BitVec 1) (r : BitVec 5)
  /-- `FSTD`, format 40, R874; indexed; uid bits {23..25} = 0 -/
  | fstdIndexed (b x : BitVec 5) (sr : BitVec 2) (u : BitVec 1) (cc : BitVec 2) (m : BitVec 1) (r : BitVec 5)
  /-- `FCPY`, format 45, R881; fmt 0 SGL, 1 DBL, 3 QUAD; fmt = 2 is an undefined operation -/
  | fcpy (r : BitVec 5) (fmt : BitVec 2) (t : BitVec 5)
  /-- `FCPY`, format 49, R881; f 0 SGL, 1 DBL; r_x and t_x are the sixth (L/R) bits of the register specifiers -/
  | fcpyE (r : BitVec 5) (f rx tx : BitVec 1) (t : BitVec 5)
  /-- `FABS`, format 45, R882; fmt 0 SGL, 1 DBL, 3 QUAD; fmt = 2 is an undefined operation -/
  | fabs (r : BitVec 5) (fmt : BitVec 2) (t : BitVec 5)
  /-- `FABS`, format 49, R882; f 0 SGL, 1 DBL; r_x and t_x are the sixth (L/R) bits of the register specifiers -/
  | fabsE (r : BitVec 5) (f rx tx : BitVec 1) (t : BitVec 5)
  /-- `FSQRT`, format 45, R885; fmt 0 SGL, 1 DBL, 3 QUAD; fmt = 2 is an undefined operation -/
  | fsqrt (r : BitVec 5) (fmt : BitVec 2) (t : BitVec 5)
  /-- `FSQRT`, format 49, R885; f 0 SGL, 1 DBL; r_x and t_x are the sixth (L/R) bits of the register specifiers -/
  | fsqrtE (r : BitVec 5) (f rx tx : BitVec 1) (t : BitVec 5)
  /-- `FRND`, format 45, R886; fmt 0 SGL, 1 DBL, 3 QUAD; fmt = 2 is an undefined operation -/
  | frnd (r : BitVec 5) (fmt : BitVec 2) (t : BitVec 5)
  /-- `FRND`, format 49, R886; f 0 SGL, 1 DBL; r_x and t_x are the sixth (L/R) bits of the register specifiers -/
  | frndE (r : BitVec 5) (f rx tx : BitVec 1) (t : BitVec 5)
  /-- `FNEG`, format 45, R883; fmt 0 SGL, 1 DBL, 3 QUAD; fmt = 2 is an undefined operation -/
  | fneg (r : BitVec 5) (fmt : BitVec 2) (t : BitVec 5)
  /-- `FNEG`, format 49, R883; f 0 SGL, 1 DBL; r_x and t_x are the sixth (L/R) bits of the register specifiers -/
  | fnegE (r : BitVec 5) (f rx tx : BitVec 1) (t : BitVec 5)
  /-- `FNEGABS`, format 45, R884; fmt 0 SGL, 1 DBL, 3 QUAD; fmt = 2 is an undefined operation -/
  | fnegabs (r : BitVec 5) (fmt : BitVec 2) (t : BitVec 5)
  /-- `FNEGABS`, format 49, R884; f 0 SGL, 1 DBL; r_x and t_x are the sixth (L/R) bits of the register specifiers -/
  | fnegabsE (r : BitVec 5) (f rx tx : BitVec 1) (t : BitVec 5)
  /-- `FCNV__float_float`, format 46, R889; common rules: rule R888; sf or df = 2 is an undefined operation -/
  | fcnvFF (r : BitVec 5) (df sf : BitVec 2) (t : BitVec 5)
  /-- `FCNV__float_float`, format 50, R889; common rules: rule R888; no quad formats -/
  | fcnvFFE (r : BitVec 5) (df sf rx tx : BitVec 1) (t : BitVec 5)
  /-- `FCNV__int_float`, format 46, R890; common rules: rule R888; sf or df = 2 is an undefined operation -/
  | fcnvXF (r : BitVec 5) (df sf : BitVec 2) (t : BitVec 5)
  /-- `FCNV__int_float`, format 50, R890; common rules: rule R888; no quad formats -/
  | fcnvXFE (r : BitVec 5) (df sf rx tx : BitVec 1) (t : BitVec 5)
  /-- `FCNV__float_int`, format 46, R891; common rules: rule R888; sf or df = 2 is an undefined operation -/
  | fcnvFX (r : BitVec 5) (df sf : BitVec 2) (t : BitVec 5)
  /-- `FCNV__float_int`, format 50, R891; common rules: rule R888; no quad formats -/
  | fcnvFXE (r : BitVec 5) (df sf rx tx : BitVec 1) (t : BitVec 5)
  /-- `FCNV_T__float_int`, format 46, R892; common rules: rule R888; sf or df = 2 is an undefined operation -/
  | fcnvFXT (r : BitVec 5) (df sf : BitVec 2) (t : BitVec 5)
  /-- `FCNV_T__float_int`, format 50, R892; common rules: rule R888; no quad formats -/
  | fcnvFXTE (r : BitVec 5) (df sf rx tx : BitVec 1) (t : BitVec 5)
  /-- `FCNV__uint_float`, format 46, R893; common rules: rule R888; sf or df = 2 is an undefined operation -/
  | fcnvUF (r : BitVec 5) (df sf : BitVec 2) (t : BitVec 5)
  /-- `FCNV__uint_float`, format 50, R893; common rules: rule R888; no quad formats -/
  | fcnvUFE (r : BitVec 5) (df sf rx tx : BitVec 1) (t : BitVec 5)
  /-- `FCNV__float_uint`, format 46, R894; common rules: rule R888; sf or df = 2 is an undefined operation -/
  | fcnvFU (r : BitVec 5) (df sf : BitVec 2) (t : BitVec 5)
  /-- `FCNV__float_uint`, format 50, R894; common rules: rule R888; no quad formats -/
  | fcnvFUE (r : BitVec 5) (df sf rx tx : BitVec 1) (t : BitVec 5)
  /-- `FCNV_T__float_uint`, format 46, R895; common rules: rule R888; sf or df = 2 is an undefined operation -/
  | fcnvFUT (r : BitVec 5) (df sf : BitVec 2) (t : BitVec 5)
  /-- `FCNV_T__float_uint`, format 50, R895; common rules: rule R888; no quad formats -/
  | fcnvFUTE (r : BitVec 5) (df sf rx tx : BitVec 1) (t : BitVec 5)
  /-- `FCMP`, format 47, R897; y = 0 queued compare, y = cbit + 1 targeted -/
  | fcmp (r1 r2 : BitVec 5) (y : BitVec 3) (fmt : BitVec 2) (c : BitVec 5)
  /-- `FCMP`, format 51, R897; y = 0 queued compare, y = cbit + 1 targeted -/
  | fcmpE (r1 r2 : BitVec 5) (y : BitVec 3) (x2 f x1 : BitVec 1) (c : BitVec 5)
  /-- `FTEST`, format 47, R898; y = 1 queue test; otherwise targeted test with y = xor(cbit + 1, 1) and c = 0 -/
  | ftest (y : BitVec 3) (c : BitVec 5)
  /-- `FADD`, format 48, R900; skeleton: rule R899 -/
  | fadd (r1 r2 : BitVec 5) (fmt : BitVec 2) (t : BitVec 5)
  /-- `FADD`, format 52, R900; skeleton: rule R899; x (bit {23}) = 0 -/
  | faddE (r1 r2 : BitVec 5) (x2 f x1 tx : BitVec 1) (t : BitVec 5)
  /-- `FSUB`, format 48, R901; skeleton: rule R899 -/
  | fsub (r1 r2 : BitVec 5) (fmt : BitVec 2) (t : BitVec 5)
  /-- `FSUB`, format 52, R901; skeleton: rule R899; x (bit {23}) = 0 -/
  | fsubE (r1 r2 : BitVec 5) (x2 f x1 tx : BitVec 1) (t : BitVec 5)
  /-- `FMPY`, format 48, R902; skeleton: rule R899 -/
  | fmpy (r1 r2 : BitVec 5) (fmt : BitVec 2) (t : BitVec 5)
  /-- `FMPY`, format 52, R902; skeleton: rule R899; x (bit {23}) = 0 -/
  | fmpyE (r1 r2 : BitVec 5) (x2 f x1 tx : BitVec 1) (t : BitVec 5)
  /-- `FDIV`, format 48, R903; skeleton: rule R899 -/
  | fdiv (r1 r2 : BitVec 5) (fmt : BitVec 2) (t : BitVec 5)
  /-- `FDIV`, format 52, R903; skeleton: rule R899; x (bit {23}) = 0 -/
  | fdivE (r1 r2 : BitVec 5) (x2 f x1 tx : BitVec 1) (t : BitVec 5)
  /-- `XMPYU`, format 52, R904; x (bit {23}) = 1 -/
  | xmpyu (r1 r2 : BitVec 5) (x2 x1 : BitVec 1) (t : BitVec 5)
  /-- `FMPYADD`, format 53, R906; f = 0 DBL, 1 SGL -/
  | fmpyadd (rm1 rm2 ta ra : BitVec 5) (f : BitVec 1) (tm : BitVec 5)
  /-- `FMPYSUB`, format 53, R907; f = 0 DBL, 1 SGL -/
  | fmpysub (rm1 rm2 ta ra : BitVec 5) (f : BitVec 1) (tm : BitVec 5)
  /-- `FMPYFADD`, format 54, R908; ra specifier = cat(ra_hi, ra_lo) (six bits) -/
  | fmpyfadd (rm1 rm2 : BitVec 5) (raHi : BitVec 3) (x2 f : BitVec 1) (raLo : BitVec 3) (x1 tx : BitVec 1) (t : BitVec 5)
  /-- `FMPYNFADD`, format 54, R909; ra specifier = cat(ra_hi, ra_lo) (six bits) -/
  | fmpynfadd (rm1 rm2 : BitVec 5) (raHi : BitVec 3) (x2 f : BitVec 1) (raLo : BitVec 3) (x1 tx : BitVec 1) (t : BitVec 5)
  /-- `PUSHNOM`, format 23, R501; the PUSHBTS word with r = 0; listed before PUSHBTS, first match wins -/
  | pushnom
  /-- `CLRBTS`, format 23, R503; the POPBTS word with i = 0; listed before POPBTS, first match wins -/
  | clrbts
  /-- `SYNC`, format 33, R666 -/
  | sync
  /-- `SYNCDMA`, format 33, R667 -/
  | syncdma
  /-- `RFI`, format 33, R665 -/
  | rfi
  /-- `RFI,R`, format 33, R665; also restores GR 1, 8, 9, 16, 17, 24, 25 from the shadow registers -/
  | rfiR
  /-- `PMENB`, format 55, R772 -/
  | pmenb
  /-- `FID`, format 45, R880 -/
  | fid
deriving DecidableEq, Repr

end Sys2Proof
end

