-- ==== Sys2Proof/Machine/Dispatch.lean ====
section
/-! DEFINITION. One arm per instruction. -/

namespace Sys2Proof.Machine

def exec (i : Instr) (s : State) : Host.Outcome State Fault Refusal :=
  match i with
  | .ldbLong b t sr im14 => Sys2Proof.Machine.execLdbLong b t sr im14 s
  | .ldhLong b t sr im14 => Sys2Proof.Machine.execLdhLong b t sr im14 s
  | .ldwLong b t sr im14 => Sys2Proof.Machine.execLdwLong b t sr im14 s
  | .ldwLongMod b t sr im14 => Sys2Proof.Machine.execLdwLongMod b t sr im14 s
  | .stbLong b r sr im14 => Sys2Proof.Machine.execStbLong b r sr im14 s
  | .sthLong b r sr im14 => Sys2Proof.Machine.execSthLong b r sr im14 s
  | .stwLong b r sr im14 => Sys2Proof.Machine.execStwLong b r sr im14 s
  | .stwLongMod b r sr im14 => Sys2Proof.Machine.execStwLongMod b r sr im14 s
  | .ldwLong11 b t sr im11a iv => Sys2Proof.Machine.execLdwLong11 b t sr im11a iv s
  | .stwLong11 b r sr im11a iv => Sys2Proof.Machine.execStwLong11 b r sr im11a iv s
  | .lddLong b t sr im10a m a iv => Sys2Proof.Machine.execLddLong b t sr im10a m a iv s
  | .stdLong b r sr im10a m a iv => Sys2Proof.Machine.execStdLong b r sr im10a m a iv s
  | .ldbShort b im5 sr a cc m t => Sys2Proof.Machine.execLdbShort b im5 sr a cc m t s
  | .ldbIndexed b x sr u cc m t => Sys2Proof.Machine.execLdbIndexed b x sr u cc m t s
  | .ldhShort b im5 sr a cc m t => Sys2Proof.Machine.execLdhShort b im5 sr a cc m t s
  | .ldhIndexed b x sr u cc m t => Sys2Proof.Machine.execLdhIndexed b x sr u cc m t s
  | .ldwShort b im5 sr a cc m t => Sys2Proof.Machine.execLdwShort b im5 sr a cc m t s
  | .ldwIndexed b x sr u cc m t => Sys2Proof.Machine.execLdwIndexed b x sr u cc m t s
  | .lddShort b im5 sr a cc m t => Sys2Proof.Machine.execLddShort b im5 sr a cc m t s
  | .lddIndexed b x sr u cc m t => Sys2Proof.Machine.execLddIndexed b x sr u cc m t s
  | .lddaShort b im5 a cc m t => Sys2Proof.Machine.execLddaShort b im5 a cc m t s
  | .lddaIndexed b x u cc m t => Sys2Proof.Machine.execLddaIndexed b x u cc m t s
  | .ldcdShort b im5 sr a cc m t => Sys2Proof.Machine.execLdcdShort b im5 sr a cc m t s
  | .ldcdIndexed b x sr u cc m t => Sys2Proof.Machine.execLdcdIndexed b x sr u cc m t s
  | .ldwaShort b im5 a cc m t => Sys2Proof.Machine.execLdwaShort b im5 a cc m t s
  | .ldwaIndexed b x u cc m t => Sys2Proof.Machine.execLdwaIndexed b x u cc m t s
  | .ldcwShort b im5 sr a cc m t => Sys2Proof.Machine.execLdcwShort b im5 sr a cc m t s
  | .ldcwIndexed b x sr u cc m t => Sys2Proof.Machine.execLdcwIndexed b x sr u cc m t s
  | .stbShort b r sr a cc m im5 => Sys2Proof.Machine.execStbShort b r sr a cc m im5 s
  | .sthShort b r sr a cc m im5 => Sys2Proof.Machine.execSthShort b r sr a cc m im5 s
  | .stwShort b r sr a cc m im5 => Sys2Proof.Machine.execStwShort b r sr a cc m im5 s
  | .stdShort b r sr a cc m im5 => Sys2Proof.Machine.execStdShort b r sr a cc m im5 s
  | .stby b r sr a cc m im5 => Sys2Proof.Machine.execStby b r sr a cc m im5 s
  | .stdby b r sr a cc m im5 => Sys2Proof.Machine.execStdby b r sr a cc m im5 s
  | .stwa b r a cc m im5 => Sys2Proof.Machine.execStwa b r a cc m im5 s
  | .stda b r a cc m im5 => Sys2Proof.Machine.execStda b r a cc m im5 s
  | .ldo b t iv im14 => Sys2Proof.Machine.execLdo b t iv im14 s
  | .ldil t im21 => Sys2Proof.Machine.execLdil t im21 s
  | .addil r im21 => Sys2Proof.Machine.execAddil r im21 s
  | .bl17 t w1 w2 n w => Sys2Proof.Machine.execBl17 t w1 w2 n w s
  | .bGate t w1 w2 n w => Sys2Proof.Machine.execBGate t w1 w2 n w s
  | .blPush w3 w1 w2 n w => Sys2Proof.Machine.execBlPush w3 w1 w2 n w s
  | .bl22 w3 w1 w2 n w => Sys2Proof.Machine.execBl22 w3 w1 w2 n w s
  | .pushbts r => Sys2Proof.Machine.execPushbts r s
  | .popbts iv => Sys2Proof.Machine.execPopbts iv s
  | .blr t x n => Sys2Proof.Machine.execBlr t x n s
  | .bv b x n => Sys2Proof.Machine.execBv b x n s
  | .bve b n p => Sys2Proof.Machine.execBve b n p s
  | .bveL b n p => Sys2Proof.Machine.execBveL b n p s
  | .be b w1 sr w2 n w => Sys2Proof.Machine.execBe b w1 sr w2 n w s
  | .beL b w1 sr w2 n w => Sys2Proof.Machine.execBeL b w1 sr w2 n w s
  | .addbT r2 r1 c w1 n w => Sys2Proof.Machine.execAddbT r2 r1 c w1 n w s
  | .addbF r2 r1 c w1 n w => Sys2Proof.Machine.execAddbF r2 r1 c w1 n w s
  | .addibT r im5 c w1 n w => Sys2Proof.Machine.execAddibT r im5 c w1 n w s
  | .addibF r im5 c w1 n w => Sys2Proof.Machine.execAddibF r im5 c w1 n w s
  | .cmpbT r2 r1 c w1 n w => Sys2Proof.Machine.execCmpbT r2 r1 c w1 n w s
  | .cmpbF r2 r1 c w1 n w => Sys2Proof.Machine.execCmpbF r2 r1 c w1 n w s
  | .cmpbDT r2 r1 c w1 n w => Sys2Proof.Machine.execCmpbDT r2 r1 c w1 n w s
  | .cmpbDF r2 r1 c w1 n w => Sys2Proof.Machine.execCmpbDF r2 r1 c w1 n w s
  | .cmpibT r im5 c w1 n w => Sys2Proof.Machine.execCmpibT r im5 c w1 n w s
  | .cmpibF r im5 c w1 n w => Sys2Proof.Machine.execCmpibF r im5 c w1 n w s
  | .cmpibD r im5 c w1 n w => Sys2Proof.Machine.execCmpibD r im5 c w1 n w s
  | .movb r2 r1 c w1 n w => Sys2Proof.Machine.execMovb r2 r1 c w1 n w s
  | .movib r im5 c w1 n w => Sys2Proof.Machine.execMovib r im5 c w1 n w s
  | .bbFixed p r c d w1 n w => Sys2Proof.Machine.execBbFixed p r c d w1 n w s
  | .bbSar r c d w1 n w => Sys2Proof.Machine.execBbSar r c d w1 n w s
  | .add r2 r1 c f d t => Sys2Proof.Machine.execAdd r2 r1 c f d t s
  | .addC r2 r1 c f d t => Sys2Proof.Machine.execAddC r2 r1 c f d t s
  | .addL r2 r1 c f d t => Sys2Proof.Machine.execAddL r2 r1 c f d t s
  | .addTsv r2 r1 c f d t => Sys2Proof.Machine.execAddTsv r2 r1 c f d t s
  | .addCTsv r2 r1 c f d t => Sys2Proof.Machine.execAddCTsv r2 r1 c f d t s
  | .sub r2 r1 c f d t => Sys2Proof.Machine.execSub r2 r1 c f d t s
  | .subTc r2 r1 c f d t => Sys2Proof.Machine.execSubTc r2 r1 c f d t s
  | .subB r2 r1 c f d t => Sys2Proof.Machine.execSubB r2 r1 c f d t s
  | .subTsv r2 r1 c f d t => Sys2Proof.Machine.execSubTsv r2 r1 c f d t s
  | .subTsvTc r2 r1 c f d t => Sys2Proof.Machine.execSubTsvTc r2 r1 c f d t s
  | .subBTsv r2 r1 c f d t => Sys2Proof.Machine.execSubBTsv r2 r1 c f d t s
  | .and r2 r1 c f d t => Sys2Proof.Machine.execAnd r2 r1 c f d t s
  | .andcm r2 r1 c f d t => Sys2Proof.Machine.execAndcm r2 r1 c f d t s
  | .or r2 r1 c f d t => Sys2Proof.Machine.execOr r2 r1 c f d t s
  | .xor r2 r1 c f d t => Sys2Proof.Machine.execXor r2 r1 c f d t s
  | .cmpclr r2 r1 c f d t => Sys2Proof.Machine.execCmpclr r2 r1 c f d t s
  | .uxor r2 r1 c f d t => Sys2Proof.Machine.execUxor r2 r1 c f d t s
  | .uaddcm r2 r1 c f d t => Sys2Proof.Machine.execUaddcm r2 r1 c f d t s
  | .uaddcmTc r2 r1 c f d t => Sys2Proof.Machine.execUaddcmTc r2 r1 c f d t s
  | .shladd r2 r1 c f sa d t => Sys2Proof.Machine.execShladd r2 r1 c f sa d t s
  | .shladdL r2 r1 c f sa d t => Sys2Proof.Machine.execShladdL r2 r1 c f sa d t s
  | .shladdTsv r2 r1 c f sa d t => Sys2Proof.Machine.execShladdTsv r2 r1 c f sa d t s
  | .ds r2 r1 c f t => Sys2Proof.Machine.execDs r2 r1 c f t s
  | .dcor r c f d t => Sys2Proof.Machine.execDcor r c f d t s
  | .dcorI r c f d t => Sys2Proof.Machine.execDcorI r c f d t s
  | .addi r t c f e1 im11 => Sys2Proof.Machine.execAddi r t c f e1 im11 s
  | .addiTc r t c f e1 im11 => Sys2Proof.Machine.execAddiTc r t c f e1 im11 s
  | .subi r t c f e1 im11 => Sys2Proof.Machine.execSubi r t c f e1 im11 s
  | .cmpiclr r t c f d im11 => Sys2Proof.Machine.execCmpiclr r t c f d im11 s
  | .shrpwSar r2 r1 c t => Sys2Proof.Machine.execShrpwSar r2 r1 c t s
  | .shrpdSar r2 r1 c t => Sys2Proof.Machine.execShrpdSar r2 r1 c t s
  | .shrpwFixed r2 r1 c cpos t => Sys2Proof.Machine.execShrpwFixed r2 r1 c cpos t s
  | .shrpdFixed r2 r1 c cp cpos t => Sys2Proof.Machine.execShrpdFixed r2 r1 c cp cpos t s
  | .extrwSar r t c se clen => Sys2Proof.Machine.execExtrwSar r t c se clen s
  | .extrdSar r t c se cl clen => Sys2Proof.Machine.execExtrdSar r t c se cl clen s
  | .extrwFixed r t c se pos clen => Sys2Proof.Machine.execExtrwFixed r t c se pos clen s
  | .extrdFixed r t c cl p se pos clen => Sys2Proof.Machine.execExtrdFixed r t c cl p se pos clen s
  | .depwSar t r c nz clen => Sys2Proof.Machine.execDepwSar t r c nz clen s
  | .depdSar t r c nz cl clen => Sys2Proof.Machine.execDepdSar t r c nz cl clen s
  | .depwFixed t r c nz cpos clen => Sys2Proof.Machine.execDepwFixed t r c nz cpos clen s
  | .depwiSar t im5 c nz clen => Sys2Proof.Machine.execDepwiSar t im5 c nz clen s
  | .depdiSar t im5 c nz cl clen => Sys2Proof.Machine.execDepdiSar t im5 c nz cl clen s
  | .depwiFixed t im5 c nz cpos clen => Sys2Proof.Machine.execDepwiFixed t im5 c nz cpos clen s
  | .depdFixed t r c cl cp nz cpos clen => Sys2Proof.Machine.execDepdFixed t r c cl cp nz cpos clen s
  | .depdiFixed t im5 c cl cp nz cpos clen => Sys2Proof.Machine.execDepdiFixed t im5 c cl cp nz cpos clen s
  | .hadd r2 r1 t => Sys2Proof.Machine.execHadd r2 r1 t s
  | .haddSs r2 r1 t => Sys2Proof.Machine.execHaddSs r2 r1 t s
  | .haddUs r2 r1 t => Sys2Proof.Machine.execHaddUs r2 r1 t s
  | .hsub r2 r1 t => Sys2Proof.Machine.execHsub r2 r1 t s
  | .hsubSs r2 r1 t => Sys2Proof.Machine.execHsubSs r2 r1 t s
  | .hsubUs r2 r1 t => Sys2Proof.Machine.execHsubUs r2 r1 t s
  | .havg r2 r1 t => Sys2Proof.Machine.execHavg r2 r1 t s
  | .hshladd r2 r1 sa t => Sys2Proof.Machine.execHshladd r2 r1 sa t s
  | .hshradd r2 r1 sa t => Sys2Proof.Machine.execHshradd r2 r1 sa t s
  | .hshl r sa t => Sys2Proof.Machine.execHshl r sa t s
  | .hshrU r sa t => Sys2Proof.Machine.execHshrU r sa t s
  | .hshrS r sa t => Sys2Proof.Machine.execHshrS r sa t s
  | .mixhL r2 r1 t => Sys2Proof.Machine.execMixhL r2 r1 t s
  | .mixhR r2 r1 t => Sys2Proof.Machine.execMixhR r2 r1 t s
  | .mixwL r2 r1 t => Sys2Proof.Machine.execMixwL r2 r1 t s
  | .mixwR r2 r1 t => Sys2Proof.Machine.execMixwR r2 r1 t s
  | .permh r rb c0 c1 c2 c3 t => Sys2Proof.Machine.execPermh r rb c0 c1 c2 c3 t s
  | .brk im13 im5 => Sys2Proof.Machine.execBrk im13 im5 s
  | .ssm iv t => Sys2Proof.Machine.execSsm iv t s
  | .rsm iv t => Sys2Proof.Machine.execRsm iv t s
  | .mtsm r => Sys2Proof.Machine.execMtsm r s
  | .ldsid b sr t => Sys2Proof.Machine.execLdsid b sr t s
  | .mtsp r sr => Sys2Proof.Machine.execMtsp r sr s
  | .mfsp sr t => Sys2Proof.Machine.execMfsp sr t s
  | .mtctl t r => Sys2Proof.Machine.execMtctl t r s
  | .mtsarcm r => Sys2Proof.Machine.execMtsarcm r s
  | .mfctl r e t => Sys2Proof.Machine.execMfctl r e t s
  | .mfia t => Sys2Proof.Machine.execMfia t s
  | .diag im26 => Sys2Proof.Machine.execDiag im26 s
  | .iitlbt r2 r1 => Sys2Proof.Machine.execIitlbt r2 r1 s
  | .pitlb b x sr m => Sys2Proof.Machine.execPitlb b x sr m s
  | .pitlbL b x sr m => Sys2Proof.Machine.execPitlbL b x sr m s
  | .pitlbe b x sr m => Sys2Proof.Machine.execPitlbe b x sr m s
  | .ficExplicit b x sr m => Sys2Proof.Machine.execFicExplicit b x sr m s
  | .fice b x sr m => Sys2Proof.Machine.execFice b x sr m s
  | .idtlbt r2 r1 => Sys2Proof.Machine.execIdtlbt r2 r1 s
  | .pdtlb b x sr m => Sys2Proof.Machine.execPdtlb b x sr m s
  | .pdtlbL b x sr m => Sys2Proof.Machine.execPdtlbL b x sr m s
  | .pdtlbe b x sr m => Sys2Proof.Machine.execPdtlbe b x sr m s
  | .fdcIndexed b x sr m => Sys2Proof.Machine.execFdcIndexed b x sr m s
  | .fdcShort b im5 sr => Sys2Proof.Machine.execFdcShort b im5 sr s
  | .fdce b x sr m => Sys2Proof.Machine.execFdce b x sr m s
  | .pdc b x sr m => Sys2Proof.Machine.execPdc b x sr m s
  | .ficImplicit b x sr m => Sys2Proof.Machine.execFicImplicit b x sr m s
  | .probeR b r sr t => Sys2Proof.Machine.execProbeR b r sr t s
  | .probeW b r sr t => Sys2Proof.Machine.execProbeW b r sr t s
  | .probeiR b iv sr t => Sys2Proof.Machine.execProbeiR b iv sr t s
  | .probeiW b iv sr t => Sys2Proof.Machine.execProbeiW b iv sr t s
  | .lpa b x sr m t => Sys2Proof.Machine.execLpa b x sr m t s
  | .lci b x sr t => Sys2Proof.Machine.execLci b x sr t s
  | .spop0 sop1 sfu n sop2 => Sys2Proof.Machine.execSpop0 sop1 sfu n sop2 s
  | .spop1 sop sfu n t => Sys2Proof.Machine.execSpop1 sop sfu n t s
  | .spop2 r sop1 sfu n sop2 => Sys2Proof.Machine.execSpop2 r sop1 sfu n sop2 s
  | .spop3 r2 r1 sop1 sfu n sop2 => Sys2Proof.Machine.execSpop3 r2 r1 sop1 sfu n sop2 s
  | .pmdis n => Sys2Proof.Machine.execPmdis n s
  | .copr1 sop1 n sop2 => Sys2Proof.Machine.execCopr1 sop1 n sop2 s
  | .copr3 sop1 n sop2 => Sys2Proof.Machine.execCopr3 sop1 n sop2 s
  | .copr4to7 sop1 uidlo n sop2 => Sys2Proof.Machine.execCopr4to7 sop1 uidlo n sop2 s
  | .cldwIndexed2 b x sr u cc uidlo m t => Sys2Proof.Machine.execCldwIndexed2 b x sr u cc uidlo m t s
  | .cldwShort2 b im5 sr a cc uidlo m t => Sys2Proof.Machine.execCldwShort2 b im5 sr a cc uidlo m t s
  | .cldwIndexed4 b x sr u cc uidlo m t => Sys2Proof.Machine.execCldwIndexed4 b x sr u cc uidlo m t s
  | .cldwShort4 b im5 sr a cc uidlo m t => Sys2Proof.Machine.execCldwShort4 b im5 sr a cc uidlo m t s
  | .cstwIndexed2 b x sr u cc uidlo m r => Sys2Proof.Machine.execCstwIndexed2 b x sr u cc uidlo m r s
  | .cstwShort2 b im5 sr a cc uidlo m r => Sys2Proof.Machine.execCstwShort2 b im5 sr a cc uidlo m r s
  | .cstwIndexed4 b x sr u cc uidlo m r => Sys2Proof.Machine.execCstwIndexed4 b x sr u cc uidlo m r s
  | .cstwShort4 b im5 sr a cc uidlo m r => Sys2Proof.Machine.execCstwShort4 b im5 sr a cc uidlo m r s
  | .clddIndexed2 b x sr u cc uidlo m t => Sys2Proof.Machine.execClddIndexed2 b x sr u cc uidlo m t s
  | .clddShort2 b im5 sr a cc uidlo m t => Sys2Proof.Machine.execClddShort2 b im5 sr a cc uidlo m t s
  | .clddIndexed4 b x sr u cc uidlo m t => Sys2Proof.Machine.execClddIndexed4 b x sr u cc uidlo m t s
  | .clddShort4 b im5 sr a cc uidlo m t => Sys2Proof.Machine.execClddShort4 b im5 sr a cc uidlo m t s
  | .cstdIndexed2 b x sr u cc uidlo m r => Sys2Proof.Machine.execCstdIndexed2 b x sr u cc uidlo m r s
  | .cstdShort2 b im5 sr a cc uidlo m r => Sys2Proof.Machine.execCstdShort2 b im5 sr a cc uidlo m r s
  | .cstdIndexed4 b x sr u cc uidlo m r => Sys2Proof.Machine.execCstdIndexed4 b x sr u cc uidlo m r s
  | .cstdShort4 b im5 sr a cc uidlo m r => Sys2Proof.Machine.execCstdShort4 b im5 sr a cc uidlo m r s
  | .fldwLong b t sr im11a h iv => Sys2Proof.Machine.execFldwLong b t sr im11a h iv s
  | .fldwLongMod b t sr im11a a h iv => Sys2Proof.Machine.execFldwLongMod b t sr im11a a h iv s
  | .fldwShort b im5 sr a cc h m t => Sys2Proof.Machine.execFldwShort b im5 sr a cc h m t s
  | .fldwIndexed b x sr u cc h m t => Sys2Proof.Machine.execFldwIndexed b x sr u cc h m t s
  | .fstwLong b r sr im11a h iv => Sys2Proof.Machine.execFstwLong b r sr im11a h iv s
  | .fstwLongMod b r sr im11a a h iv => Sys2Proof.Machine.execFstwLongMod b r sr im11a a h iv s
  | .fstwShort b im5 sr a cc h m r => Sys2Proof.Machine.execFstwShort b im5 sr a cc h m r s
  | .fstwIndexed b x sr u cc h m r => Sys2Proof.Machine.execFstwIndexed b x sr u cc h m r s
  | .flddLong b t sr im10a m a iv => Sys2Proof.Machine.execFlddLong b t sr im10a m a iv s
  | .flddShort b im5 sr a cc m t => Sys2Proof.Machine.execFlddShort b im5 sr a cc m t s
  | .flddIndexed b x sr u cc m t => Sys2Proof.Machine.execFlddIndexed b x sr u cc m t s
  | .fstdLong b r sr im10a m a iv => Sys2Proof.Machine.execFstdLong b r sr im10a m a iv s
  | .fstdShort b im5 sr a cc m r => Sys2Proof.Machine.execFstdShort b im5 sr a cc m r s
  | .fstdIndexed b x sr u cc m r => Sys2Proof.Machine.execFstdIndexed b x sr u cc m r s
  | .fcpy r fmt t => Sys2Proof.Machine.execFcpy r fmt t s
  | .fcpyE r f rx tx t => Sys2Proof.Machine.execFcpyE r f rx tx t s
  | .fabs r fmt t => Sys2Proof.Machine.execFabs r fmt t s
  | .fabsE r f rx tx t => Sys2Proof.Machine.execFabsE r f rx tx t s
  | .fsqrt r fmt t => Sys2Proof.Machine.execFsqrt r fmt t s
  | .fsqrtE r f rx tx t => Sys2Proof.Machine.execFsqrtE r f rx tx t s
  | .frnd r fmt t => Sys2Proof.Machine.execFrnd r fmt t s
  | .frndE r f rx tx t => Sys2Proof.Machine.execFrndE r f rx tx t s
  | .fneg r fmt t => Sys2Proof.Machine.execFneg r fmt t s
  | .fnegE r f rx tx t => Sys2Proof.Machine.execFnegE r f rx tx t s
  | .fnegabs r fmt t => Sys2Proof.Machine.execFnegabs r fmt t s
  | .fnegabsE r f rx tx t => Sys2Proof.Machine.execFnegabsE r f rx tx t s
  | .fcnvFF r df sf t => Sys2Proof.Machine.execFcnvFF r df sf t s
  | .fcnvFFE r df sf rx tx t => Sys2Proof.Machine.execFcnvFFE r df sf rx tx t s
  | .fcnvXF r df sf t => Sys2Proof.Machine.execFcnvXF r df sf t s
  | .fcnvXFE r df sf rx tx t => Sys2Proof.Machine.execFcnvXFE r df sf rx tx t s
  | .fcnvFX r df sf t => Sys2Proof.Machine.execFcnvFX r df sf t s
  | .fcnvFXE r df sf rx tx t => Sys2Proof.Machine.execFcnvFXE r df sf rx tx t s
  | .fcnvFXT r df sf t => Sys2Proof.Machine.execFcnvFXT r df sf t s
  | .fcnvFXTE r df sf rx tx t => Sys2Proof.Machine.execFcnvFXTE r df sf rx tx t s
  | .fcnvUF r df sf t => Sys2Proof.Machine.execFcnvUF r df sf t s
  | .fcnvUFE r df sf rx tx t => Sys2Proof.Machine.execFcnvUFE r df sf rx tx t s
  | .fcnvFU r df sf t => Sys2Proof.Machine.execFcnvFU r df sf t s
  | .fcnvFUE r df sf rx tx t => Sys2Proof.Machine.execFcnvFUE r df sf rx tx t s
  | .fcnvFUT r df sf t => Sys2Proof.Machine.execFcnvFUT r df sf t s
  | .fcnvFUTE r df sf rx tx t => Sys2Proof.Machine.execFcnvFUTE r df sf rx tx t s
  | .fcmp r1 r2 y fmt c => Sys2Proof.Machine.execFcmp r1 r2 y fmt c s
  | .fcmpE r1 r2 y x2 f x1 c => Sys2Proof.Machine.execFcmpE r1 r2 y x2 f x1 c s
  | .ftest y c => Sys2Proof.Machine.execFtest y c s
  | .fadd r1 r2 fmt t => Sys2Proof.Machine.execFadd r1 r2 fmt t s
  | .faddE r1 r2 x2 f x1 tx t => Sys2Proof.Machine.execFaddE r1 r2 x2 f x1 tx t s
  | .fsub r1 r2 fmt t => Sys2Proof.Machine.execFsub r1 r2 fmt t s
  | .fsubE r1 r2 x2 f x1 tx t => Sys2Proof.Machine.execFsubE r1 r2 x2 f x1 tx t s
  | .fmpy r1 r2 fmt t => Sys2Proof.Machine.execFmpy r1 r2 fmt t s
  | .fmpyE r1 r2 x2 f x1 tx t => Sys2Proof.Machine.execFmpyE r1 r2 x2 f x1 tx t s
  | .fdiv r1 r2 fmt t => Sys2Proof.Machine.execFdiv r1 r2 fmt t s
  | .fdivE r1 r2 x2 f x1 tx t => Sys2Proof.Machine.execFdivE r1 r2 x2 f x1 tx t s
  | .xmpyu r1 r2 x2 x1 t => Sys2Proof.Machine.execXmpyu r1 r2 x2 x1 t s
  | .fmpyadd rm1 rm2 ta ra f tm => Sys2Proof.Machine.execFmpyadd rm1 rm2 ta ra f tm s
  | .fmpysub rm1 rm2 ta ra f tm => Sys2Proof.Machine.execFmpysub rm1 rm2 ta ra f tm s
  | .fmpyfadd rm1 rm2 raHi x2 f raLo x1 tx t => Sys2Proof.Machine.execFmpyfadd rm1 rm2 raHi x2 f raLo x1 tx t s
  | .fmpynfadd rm1 rm2 raHi x2 f raLo x1 tx t => Sys2Proof.Machine.execFmpynfadd rm1 rm2 raHi x2 f raLo x1 tx t s
  | .pushnom => Sys2Proof.Machine.execPushnom s
  | .clrbts => Sys2Proof.Machine.execClrbts s
  | .sync => Sys2Proof.Machine.execSync s
  | .syncdma => Sys2Proof.Machine.execSyncdma s
  | .rfi => Sys2Proof.Machine.execRfi s
  | .rfiR => Sys2Proof.Machine.execRfiR s
  | .pmenb => Sys2Proof.Machine.execPmenb s
  | .fid => Sys2Proof.Machine.execFid s

end Sys2Proof.Machine
end

