-- ==== Sys2Proof/WellFormed.lean ====
section
/-! DEFINITION. The checks an encoding must pass beyond its row's must-match bits: field values the spec leaves
undefined as encodings (93_implementation_defined.md section 1), and the two pairs of instructions that share a
word pattern (42_branch.md R500 to R503). -/

namespace Sys2Proof

/-- Logical conditions: c = 4, 5, 6 are undefined (43_computation.md R540). -/
def logicalCondOk (c : BitVec 3) : Bool := c != 4#3 && c != 5#3 && c != 6#3

/-- Unit conditions: c = 1 and 5 are undefined in the word form (43_computation.md R541). -/
def unitCondOk (c : BitVec 3) (d : BitVec 1) : Bool := d == 1#1 || (c != 1#3 && c != 5#3)

/-- UXOR has no carry conditions, c = 4 to 7 (43_computation.md R560). -/
def uxorCondOk (c : BitVec 3) (d : BitVec 1) : Bool := unitCondOk c d && c.toNat < 4

/-- Floating-point format codes: 2 is undefined (49_floating_point.md R839, R840). -/
def fmtOk (f : BitVec 2) : Bool := f != 2#2

/-- The condition codes of a queue test (49_floating_point.md R843, Table 8-13). -/
def queueTestOk (c : BitVec 5) : Bool :=
  c == 0#5 || c == 1#5 || c == 5#5 || c == 9#5 || c == 13#5 || c == 17#5 || c == 2#5 || c == 6#5

/-- FTEST: a queue test has y = 1 and a code of Table 8-13, a targeted test has c = 0 (50_fp_instructions.md R898). -/
def ftestOk (y : BitVec 3) (c : BitVec 5) : Bool := if y == 1#3 then queueTestOk c else c == 0#5

/-- Is the instruction one that its encoding defines? -/
def Instr.wellFormed (i : Instr) : Bool :=
  match i with
  | .and _ _ c _ _ _ | .andcm _ _ c _ _ _ | .or _ _ c _ _ _ | .xor _ _ c _ _ _ => logicalCondOk c
  | .uxor _ _ c _ d _ => uxorCondOk c d
  | .uaddcm _ _ c _ d _ | .uaddcmTc _ _ c _ d _ => unitCondOk c d
  | .dcor _ c _ d _ | .dcorI _ c _ d _ => unitCondOk c d
  | .shladd _ _ _ _ sa _ _ | .shladdL _ _ _ _ sa _ _ | .shladdTsv _ _ _ _ sa _ _ => sa != 0#2
  | .hshladd _ _ sa _ | .hshradd _ _ sa _ => sa != 0#2
  | .pushbts r => r != 0#5
  | .popbts iv => iv != 0#9
  | .fcpy _ fmt _ | .fabs _ fmt _ | .fsqrt _ fmt _ | .frnd _ fmt _ | .fneg _ fmt _ | .fnegabs _ fmt _ => fmtOk fmt
  | .fcnvFF _ df sf _ => fmtOk df && fmtOk sf && df != sf
  | .fcnvFFE _ df sf _ _ _ => df != sf
  | .fcnvXF _ df sf _ | .fcnvFX _ df sf _ | .fcnvFXT _ df sf _
  | .fcnvUF _ df sf _ | .fcnvFU _ df sf _ | .fcnvFUT _ df sf _ => fmtOk df && fmtOk sf
  | .fcmp _ _ _ fmt _ => fmtOk fmt
  | .ftest y c => ftestOk y c
  | .fadd _ _ fmt _ | .fsub _ _ fmt _ | .fmpy _ _ fmt _ | .fdiv _ _ fmt _ => fmtOk fmt
  | _ => true

end Sys2Proof
end

