-- ==== Sys2Proof/Decode.lean ====
section
/-! DEFINITION. Decoding and encoding of instruction words (30_encoding.md), both written from the rows of
spec/opcode_table.json: a row is a mask, the bits the word must have under it, and the instruction the word then
is. Bits that neither the mask nor a field covers are reserved fields (R371): decoding ignores them, encoding
writes zeros. -/

namespace Sys2Proof

/-- One row of the opcode table: a word `w` belongs to it when `w &&& mask = bits`. -/
structure Row where
  mask : BitVec 32
  bits : BitVec 32
  build : BitVec 32 → Instr

/-- The row's must-match test (30_encoding.md R371). -/
def Row.hits (r : Row) (w : BitVec 32) : Bool := (w &&& r.mask) == r.bits

/-- The table's rows 0 to 25: memory reference and immediate. -/
def rowsMemoryReferenceImmediate1 : List Row := [
  ⟨0xFC000000, 0x40000000, fun w => .ldbLong (w.extractLsb' 21 5) (w.extractLsb' 16 5) (w.extractLsb' 14 2) (w.extractLsb' 0 14)⟩,
  ⟨0xFC000000, 0x44000000, fun w => .ldhLong (w.extractLsb' 21 5) (w.extractLsb' 16 5) (w.extractLsb' 14 2) (w.extractLsb' 0 14)⟩,
  ⟨0xFC000000, 0x48000000, fun w => .ldwLong (w.extractLsb' 21 5) (w.extractLsb' 16 5) (w.extractLsb' 14 2) (w.extractLsb' 0 14)⟩,
  ⟨0xFC000000, 0x4C000000, fun w => .ldwLongMod (w.extractLsb' 21 5) (w.extractLsb' 16 5) (w.extractLsb' 14 2) (w.extractLsb' 0 14)⟩,
  ⟨0xFC000000, 0x60000000, fun w => .stbLong (w.extractLsb' 21 5) (w.extractLsb' 16 5) (w.extractLsb' 14 2) (w.extractLsb' 0 14)⟩,
  ⟨0xFC000000, 0x64000000, fun w => .sthLong (w.extractLsb' 21 5) (w.extractLsb' 16 5) (w.extractLsb' 14 2) (w.extractLsb' 0 14)⟩,
  ⟨0xFC000000, 0x68000000, fun w => .stwLong (w.extractLsb' 21 5) (w.extractLsb' 16 5) (w.extractLsb' 14 2) (w.extractLsb' 0 14)⟩,
  ⟨0xFC000000, 0x6C000000, fun w => .stwLongMod (w.extractLsb' 21 5) (w.extractLsb' 16 5) (w.extractLsb' 14 2) (w.extractLsb' 0 14)⟩,
  ⟨0xFC000006, 0x5C000004, fun w => .ldwLong11 (w.extractLsb' 21 5) (w.extractLsb' 16 5) (w.extractLsb' 14 2) (w.extractLsb' 3 11) (w.extractLsb' 0 1)⟩,
  ⟨0xFC000006, 0x7C000004, fun w => .stwLong11 (w.extractLsb' 21 5) (w.extractLsb' 16 5) (w.extractLsb' 14 2) (w.extractLsb' 3 11) (w.extractLsb' 0 1)⟩,
  ⟨0xFC000002, 0x50000000, fun w => .lddLong (w.extractLsb' 21 5) (w.extractLsb' 16 5) (w.extractLsb' 14 2) (w.extractLsb' 4 10) (w.extractLsb' 3 1) (w.extractLsb' 2 1) (w.extractLsb' 0 1)⟩,
  ⟨0xFC000002, 0x70000000, fun w => .stdLong (w.extractLsb' 21 5) (w.extractLsb' 16 5) (w.extractLsb' 14 2) (w.extractLsb' 4 10) (w.extractLsb' 3 1) (w.extractLsb' 2 1) (w.extractLsb' 0 1)⟩,
  ⟨0xFC0013C0, 0x0C001000, fun w => .ldbShort (w.extractLsb' 21 5) (w.extractLsb' 16 5) (w.extractLsb' 14 2) (w.extractLsb' 13 1) (w.extractLsb' 10 2) (w.extractLsb' 5 1) (w.extractLsb' 0 5)⟩,
  ⟨0xFC0013C0, 0x0C000000, fun w => .ldbIndexed (w.extractLsb' 21 5) (w.extractLsb' 16 5) (w.extractLsb' 14 2) (w.extractLsb' 13 1) (w.extractLsb' 10 2) (w.extractLsb' 5 1) (w.extractLsb' 0 5)⟩,
  ⟨0xFC0013C0, 0x0C001040, fun w => .ldhShort (w.extractLsb' 21 5) (w.extractLsb' 16 5) (w.extractLsb' 14 2) (w.extractLsb' 13 1) (w.extractLsb' 10 2) (w.extractLsb' 5 1) (w.extractLsb' 0 5)⟩,
  ⟨0xFC0013C0, 0x0C000040, fun w => .ldhIndexed (w.extractLsb' 21 5) (w.extractLsb' 16 5) (w.extractLsb' 14 2) (w.extractLsb' 13 1) (w.extractLsb' 10 2) (w.extractLsb' 5 1) (w.extractLsb' 0 5)⟩,
  ⟨0xFC0013C0, 0x0C001080, fun w => .ldwShort (w.extractLsb' 21 5) (w.extractLsb' 16 5) (w.extractLsb' 14 2) (w.extractLsb' 13 1) (w.extractLsb' 10 2) (w.extractLsb' 5 1) (w.extractLsb' 0 5)⟩,
  ⟨0xFC0013C0, 0x0C000080, fun w => .ldwIndexed (w.extractLsb' 21 5) (w.extractLsb' 16 5) (w.extractLsb' 14 2) (w.extractLsb' 13 1) (w.extractLsb' 10 2) (w.extractLsb' 5 1) (w.extractLsb' 0 5)⟩,
  ⟨0xFC0013C0, 0x0C0010C0, fun w => .lddShort (w.extractLsb' 21 5) (w.extractLsb' 16 5) (w.extractLsb' 14 2) (w.extractLsb' 13 1) (w.extractLsb' 10 2) (w.extractLsb' 5 1) (w.extractLsb' 0 5)⟩,
  ⟨0xFC0013C0, 0x0C0000C0, fun w => .lddIndexed (w.extractLsb' 21 5) (w.extractLsb' 16 5) (w.extractLsb' 14 2) (w.extractLsb' 13 1) (w.extractLsb' 10 2) (w.extractLsb' 5 1) (w.extractLsb' 0 5)⟩,
  ⟨0xFC00D3C0, 0x0C001100, fun w => .lddaShort (w.extractLsb' 21 5) (w.extractLsb' 16 5) (w.extractLsb' 13 1) (w.extractLsb' 10 2) (w.extractLsb' 5 1) (w.extractLsb' 0 5)⟩,
  ⟨0xFC00D3C0, 0x0C000100, fun w => .lddaIndexed (w.extractLsb' 21 5) (w.extractLsb' 16 5) (w.extractLsb' 13 1) (w.extractLsb' 10 2) (w.extractLsb' 5 1) (w.extractLsb' 0 5)⟩,
  ⟨0xFC0013C0, 0x0C001140, fun w => .ldcdShort (w.extractLsb' 21 5) (w.extractLsb' 16 5) (w.extractLsb' 14 2) (w.extractLsb' 13 1) (w.extractLsb' 10 2) (w.extractLsb' 5 1) (w.extractLsb' 0 5)⟩,
  ⟨0xFC0013C0, 0x0C000140, fun w => .ldcdIndexed (w.extractLsb' 21 5) (w.extractLsb' 16 5) (w.extractLsb' 14 2) (w.extractLsb' 13 1) (w.extractLsb' 10 2) (w.extractLsb' 5 1) (w.extractLsb' 0 5)⟩,
  ⟨0xFC00D3C0, 0x0C001180, fun w => .ldwaShort (w.extractLsb' 21 5) (w.extractLsb' 16 5) (w.extractLsb' 13 1) (w.extractLsb' 10 2) (w.extractLsb' 5 1) (w.extractLsb' 0 5)⟩,
  ⟨0xFC00D3C0, 0x0C000180, fun w => .ldwaIndexed (w.extractLsb' 21 5) (w.extractLsb' 16 5) (w.extractLsb' 13 1) (w.extractLsb' 10 2) (w.extractLsb' 5 1) (w.extractLsb' 0 5)⟩]

/-- The table's rows 26 to 38: memory reference and immediate. -/
def rowsMemoryReferenceImmediate2 : List Row := [
  ⟨0xFC0013C0, 0x0C0011C0, fun w => .ldcwShort (w.extractLsb' 21 5) (w.extractLsb' 16 5) (w.extractLsb' 14 2) (w.extractLsb' 13 1) (w.extractLsb' 10 2) (w.extractLsb' 5 1) (w.extractLsb' 0 5)⟩,
  ⟨0xFC0013C0, 0x0C0001C0, fun w => .ldcwIndexed (w.extractLsb' 21 5) (w.extractLsb' 16 5) (w.extractLsb' 14 2) (w.extractLsb' 13 1) (w.extractLsb' 10 2) (w.extractLsb' 5 1) (w.extractLsb' 0 5)⟩,
  ⟨0xFC0013C0, 0x0C001200, fun w => .stbShort (w.extractLsb' 21 5) (w.extractLsb' 16 5) (w.extractLsb' 14 2) (w.extractLsb' 13 1) (w.extractLsb' 10 2) (w.extractLsb' 5 1) (w.extractLsb' 0 5)⟩,
  ⟨0xFC0013C0, 0x0C001240, fun w => .sthShort (w.extractLsb' 21 5) (w.extractLsb' 16 5) (w.extractLsb' 14 2) (w.extractLsb' 13 1) (w.extractLsb' 10 2) (w.extractLsb' 5 1) (w.extractLsb' 0 5)⟩,
  ⟨0xFC0013C0, 0x0C001280, fun w => .stwShort (w.extractLsb' 21 5) (w.extractLsb' 16 5) (w.extractLsb' 14 2) (w.extractLsb' 13 1) (w.extractLsb' 10 2) (w.extractLsb' 5 1) (w.extractLsb' 0 5)⟩,
  ⟨0xFC0013C0, 0x0C0012C0, fun w => .stdShort (w.extractLsb' 21 5) (w.extractLsb' 16 5) (w.extractLsb' 14 2) (w.extractLsb' 13 1) (w.extractLsb' 10 2) (w.extractLsb' 5 1) (w.extractLsb' 0 5)⟩,
  ⟨0xFC0013C0, 0x0C001300, fun w => .stby (w.extractLsb' 21 5) (w.extractLsb' 16 5) (w.extractLsb' 14 2) (w.extractLsb' 13 1) (w.extractLsb' 10 2) (w.extractLsb' 5 1) (w.extractLsb' 0 5)⟩,
  ⟨0xFC0013C0, 0x0C001340, fun w => .stdby (w.extractLsb' 21 5) (w.extractLsb' 16 5) (w.extractLsb' 14 2) (w.extractLsb' 13 1) (w.extractLsb' 10 2) (w.extractLsb' 5 1) (w.extractLsb' 0 5)⟩,
  ⟨0xFC00D3C0, 0x0C001380, fun w => .stwa (w.extractLsb' 21 5) (w.extractLsb' 16 5) (w.extractLsb' 13 1) (w.extractLsb' 10 2) (w.extractLsb' 5 1) (w.extractLsb' 0 5)⟩,
  ⟨0xFC00D3C0, 0x0C0013C0, fun w => .stda (w.extractLsb' 21 5) (w.extractLsb' 16 5) (w.extractLsb' 13 1) (w.extractLsb' 10 2) (w.extractLsb' 5 1) (w.extractLsb' 0 5)⟩,
  ⟨0xFC000000, 0x34000000, fun w => .ldo (w.extractLsb' 21 5) (w.extractLsb' 16 5) (w.extractLsb' 14 2) (w.extractLsb' 0 14)⟩,
  ⟨0xFC000000, 0x20000000, fun w => .ldil (w.extractLsb' 21 5) (w.extractLsb' 0 21)⟩,
  ⟨0xFC000000, 0x28000000, fun w => .addil (w.extractLsb' 21 5) (w.extractLsb' 0 21)⟩]

/-- The table's rows 39 to 64: branch. -/
def rowsBranch1 : List Row := [
  ⟨0xFC00E000, 0xE8000000, fun w => .bl17 (w.extractLsb' 21 5) (w.extractLsb' 16 5) (w.extractLsb' 2 11) (w.extractLsb' 1 1) (w.extractLsb' 0 1)⟩,
  ⟨0xFC00E000, 0xE8002000, fun w => .bGate (w.extractLsb' 21 5) (w.extractLsb' 16 5) (w.extractLsb' 2 11) (w.extractLsb' 1 1) (w.extractLsb' 0 1)⟩,
  ⟨0xFC00E000, 0xE8008000, fun w => .blPush (w.extractLsb' 21 5) (w.extractLsb' 16 5) (w.extractLsb' 2 11) (w.extractLsb' 1 1) (w.extractLsb' 0 1)⟩,
  ⟨0xFC00E000, 0xE800A000, fun w => .bl22 (w.extractLsb' 21 5) (w.extractLsb' 16 5) (w.extractLsb' 2 11) (w.extractLsb' 1 1) (w.extractLsb' 0 1)⟩,
  ⟨0xFFFFFFFF, 0xE8004001, fun _ => .pushnom⟩,
  ⟨0xFFE0FFFF, 0xE8004001, fun w => .pushbts (w.extractLsb' 16 5)⟩,
  ⟨0xFFFFFFFF, 0xE8004005, fun _ => .clrbts⟩,
  ⟨0xFFFFF007, 0xE8004005, fun w => .popbts (w.extractLsb' 3 9)⟩,
  ⟨0xFC00F001, 0xE8004000, fun w => .blr (w.extractLsb' 21 5) (w.extractLsb' 16 5) (w.extractLsb' 1 1)⟩,
  ⟨0xFC00F001, 0xE800C000, fun w => .bv (w.extractLsb' 21 5) (w.extractLsb' 16 5) (w.extractLsb' 1 1)⟩,
  ⟨0xFC1FF000, 0xE800D000, fun w => .bve (w.extractLsb' 21 5) (w.extractLsb' 1 1) (w.extractLsb' 0 1)⟩,
  ⟨0xFC1FF000, 0xE800F000, fun w => .bveL (w.extractLsb' 21 5) (w.extractLsb' 1 1) (w.extractLsb' 0 1)⟩,
  ⟨0xFC000000, 0xE0000000, fun w => .be (w.extractLsb' 21 5) (w.extractLsb' 16 5) (w.extractLsb' 13 3) (w.extractLsb' 2 11) (w.extractLsb' 1 1) (w.extractLsb' 0 1)⟩,
  ⟨0xFC000000, 0xE4000000, fun w => .beL (w.extractLsb' 21 5) (w.extractLsb' 16 5) (w.extractLsb' 13 3) (w.extractLsb' 2 11) (w.extractLsb' 1 1) (w.extractLsb' 0 1)⟩,
  ⟨0xFC000000, 0xA0000000, fun w => .addbT (w.extractLsb' 21 5) (w.extractLsb' 16 5) (w.extractLsb' 13 3) (w.extractLsb' 2 11) (w.extractLsb' 1 1) (w.extractLsb' 0 1)⟩,
  ⟨0xFC000000, 0xA8000000, fun w => .addbF (w.extractLsb' 21 5) (w.extractLsb' 16 5) (w.extractLsb' 13 3) (w.extractLsb' 2 11) (w.extractLsb' 1 1) (w.extractLsb' 0 1)⟩,
  ⟨0xFC000000, 0xA4000000, fun w => .addibT (w.extractLsb' 21 5) (w.extractLsb' 16 5) (w.extractLsb' 13 3) (w.extractLsb' 2 11) (w.extractLsb' 1 1) (w.extractLsb' 0 1)⟩,
  ⟨0xFC000000, 0xAC000000, fun w => .addibF (w.extractLsb' 21 5) (w.extractLsb' 16 5) (w.extractLsb' 13 3) (w.extractLsb' 2 11) (w.extractLsb' 1 1) (w.extractLsb' 0 1)⟩,
  ⟨0xFC000000, 0x80000000, fun w => .cmpbT (w.extractLsb' 21 5) (w.extractLsb' 16 5) (w.extractLsb' 13 3) (w.extractLsb' 2 11) (w.extractLsb' 1 1) (w.extractLsb' 0 1)⟩,
  ⟨0xFC000000, 0x88000000, fun w => .cmpbF (w.extractLsb' 21 5) (w.extractLsb' 16 5) (w.extractLsb' 13 3) (w.extractLsb' 2 11) (w.extractLsb' 1 1) (w.extractLsb' 0 1)⟩,
  ⟨0xFC000000, 0x9C000000, fun w => .cmpbDT (w.extractLsb' 21 5) (w.extractLsb' 16 5) (w.extractLsb' 13 3) (w.extractLsb' 2 11) (w.extractLsb' 1 1) (w.extractLsb' 0 1)⟩,
  ⟨0xFC000000, 0xBC000000, fun w => .cmpbDF (w.extractLsb' 21 5) (w.extractLsb' 16 5) (w.extractLsb' 13 3) (w.extractLsb' 2 11) (w.extractLsb' 1 1) (w.extractLsb' 0 1)⟩,
  ⟨0xFC000000, 0x84000000, fun w => .cmpibT (w.extractLsb' 21 5) (w.extractLsb' 16 5) (w.extractLsb' 13 3) (w.extractLsb' 2 11) (w.extractLsb' 1 1) (w.extractLsb' 0 1)⟩,
  ⟨0xFC000000, 0x8C000000, fun w => .cmpibF (w.extractLsb' 21 5) (w.extractLsb' 16 5) (w.extractLsb' 13 3) (w.extractLsb' 2 11) (w.extractLsb' 1 1) (w.extractLsb' 0 1)⟩,
  ⟨0xFC000000, 0xEC000000, fun w => .cmpibD (w.extractLsb' 21 5) (w.extractLsb' 16 5) (w.extractLsb' 13 3) (w.extractLsb' 2 11) (w.extractLsb' 1 1) (w.extractLsb' 0 1)⟩,
  ⟨0xFC000000, 0xC8000000, fun w => .movb (w.extractLsb' 21 5) (w.extractLsb' 16 5) (w.extractLsb' 13 3) (w.extractLsb' 2 11) (w.extractLsb' 1 1) (w.extractLsb' 0 1)⟩]

/-- The table's rows 65 to 67: branch. -/
def rowsBranch2 : List Row := [
  ⟨0xFC000000, 0xCC000000, fun w => .movib (w.extractLsb' 21 5) (w.extractLsb' 16 5) (w.extractLsb' 13 3) (w.extractLsb' 2 11) (w.extractLsb' 1 1) (w.extractLsb' 0 1)⟩,
  ⟨0xFC004000, 0xC4004000, fun w => .bbFixed (w.extractLsb' 21 5) (w.extractLsb' 16 5) (w.extractLsb' 15 1) (w.extractLsb' 13 1) (w.extractLsb' 2 11) (w.extractLsb' 1 1) (w.extractLsb' 0 1)⟩,
  ⟨0xFFE04000, 0xC0004000, fun w => .bbSar (w.extractLsb' 16 5) (w.extractLsb' 15 1) (w.extractLsb' 13 1) (w.extractLsb' 2 11) (w.extractLsb' 1 1) (w.extractLsb' 0 1)⟩]

/-- The table's rows 68 to 93: computation. -/
def rowsComputation1 : List Row := [
  ⟨0xFC000FC0, 0x08000600, fun w => .add (w.extractLsb' 21 5) (w.extractLsb' 16 5) (w.extractLsb' 13 3) (w.extractLsb' 12 1) (w.extractLsb' 5 1) (w.extractLsb' 0 5)⟩,
  ⟨0xFC000FC0, 0x08000700, fun w => .addC (w.extractLsb' 21 5) (w.extractLsb' 16 5) (w.extractLsb' 13 3) (w.extractLsb' 12 1) (w.extractLsb' 5 1) (w.extractLsb' 0 5)⟩,
  ⟨0xFC000FC0, 0x08000A00, fun w => .addL (w.extractLsb' 21 5) (w.extractLsb' 16 5) (w.extractLsb' 13 3) (w.extractLsb' 12 1) (w.extractLsb' 5 1) (w.extractLsb' 0 5)⟩,
  ⟨0xFC000FC0, 0x08000E00, fun w => .addTsv (w.extractLsb' 21 5) (w.extractLsb' 16 5) (w.extractLsb' 13 3) (w.extractLsb' 12 1) (w.extractLsb' 5 1) (w.extractLsb' 0 5)⟩,
  ⟨0xFC000FC0, 0x08000F00, fun w => .addCTsv (w.extractLsb' 21 5) (w.extractLsb' 16 5) (w.extractLsb' 13 3) (w.extractLsb' 12 1) (w.extractLsb' 5 1) (w.extractLsb' 0 5)⟩,
  ⟨0xFC000FC0, 0x08000400, fun w => .sub (w.extractLsb' 21 5) (w.extractLsb' 16 5) (w.extractLsb' 13 3) (w.extractLsb' 12 1) (w.extractLsb' 5 1) (w.extractLsb' 0 5)⟩,
  ⟨0xFC000FC0, 0x080004C0, fun w => .subTc (w.extractLsb' 21 5) (w.extractLsb' 16 5) (w.extractLsb' 13 3) (w.extractLsb' 12 1) (w.extractLsb' 5 1) (w.extractLsb' 0 5)⟩,
  ⟨0xFC000FC0, 0x08000500, fun w => .subB (w.extractLsb' 21 5) (w.extractLsb' 16 5) (w.extractLsb' 13 3) (w.extractLsb' 12 1) (w.extractLsb' 5 1) (w.extractLsb' 0 5)⟩,
  ⟨0xFC000FC0, 0x08000C00, fun w => .subTsv (w.extractLsb' 21 5) (w.extractLsb' 16 5) (w.extractLsb' 13 3) (w.extractLsb' 12 1) (w.extractLsb' 5 1) (w.extractLsb' 0 5)⟩,
  ⟨0xFC000FC0, 0x08000CC0, fun w => .subTsvTc (w.extractLsb' 21 5) (w.extractLsb' 16 5) (w.extractLsb' 13 3) (w.extractLsb' 12 1) (w.extractLsb' 5 1) (w.extractLsb' 0 5)⟩,
  ⟨0xFC000FC0, 0x08000D00, fun w => .subBTsv (w.extractLsb' 21 5) (w.extractLsb' 16 5) (w.extractLsb' 13 3) (w.extractLsb' 12 1) (w.extractLsb' 5 1) (w.extractLsb' 0 5)⟩,
  ⟨0xFC000FC0, 0x08000200, fun w => .and (w.extractLsb' 21 5) (w.extractLsb' 16 5) (w.extractLsb' 13 3) (w.extractLsb' 12 1) (w.extractLsb' 5 1) (w.extractLsb' 0 5)⟩,
  ⟨0xFC000FC0, 0x08000000, fun w => .andcm (w.extractLsb' 21 5) (w.extractLsb' 16 5) (w.extractLsb' 13 3) (w.extractLsb' 12 1) (w.extractLsb' 5 1) (w.extractLsb' 0 5)⟩,
  ⟨0xFC000FC0, 0x08000240, fun w => .or (w.extractLsb' 21 5) (w.extractLsb' 16 5) (w.extractLsb' 13 3) (w.extractLsb' 12 1) (w.extractLsb' 5 1) (w.extractLsb' 0 5)⟩,
  ⟨0xFC000FC0, 0x08000280, fun w => .xor (w.extractLsb' 21 5) (w.extractLsb' 16 5) (w.extractLsb' 13 3) (w.extractLsb' 12 1) (w.extractLsb' 5 1) (w.extractLsb' 0 5)⟩,
  ⟨0xFC000FC0, 0x08000880, fun w => .cmpclr (w.extractLsb' 21 5) (w.extractLsb' 16 5) (w.extractLsb' 13 3) (w.extractLsb' 12 1) (w.extractLsb' 5 1) (w.extractLsb' 0 5)⟩,
  ⟨0xFC000FC0, 0x08000380, fun w => .uxor (w.extractLsb' 21 5) (w.extractLsb' 16 5) (w.extractLsb' 13 3) (w.extractLsb' 12 1) (w.extractLsb' 5 1) (w.extractLsb' 0 5)⟩,
  ⟨0xFC000FC0, 0x08000980, fun w => .uaddcm (w.extractLsb' 21 5) (w.extractLsb' 16 5) (w.extractLsb' 13 3) (w.extractLsb' 12 1) (w.extractLsb' 5 1) (w.extractLsb' 0 5)⟩,
  ⟨0xFC000FC0, 0x080009C0, fun w => .uaddcmTc (w.extractLsb' 21 5) (w.extractLsb' 16 5) (w.extractLsb' 13 3) (w.extractLsb' 12 1) (w.extractLsb' 5 1) (w.extractLsb' 0 5)⟩,
  ⟨0xFC000FC0, 0x08000640, fun w => .shladd (w.extractLsb' 21 5) (w.extractLsb' 16 5) (w.extractLsb' 13 3) (w.extractLsb' 12 1) (w.extractLsb' 6 2) (w.extractLsb' 5 1) (w.extractLsb' 0 5)⟩,
  ⟨0xFC000FC0, 0x08000680, fun w => .shladd (w.extractLsb' 21 5) (w.extractLsb' 16 5) (w.extractLsb' 13 3) (w.extractLsb' 12 1) (w.extractLsb' 6 2) (w.extractLsb' 5 1) (w.extractLsb' 0 5)⟩,
  ⟨0xFC000FC0, 0x080006C0, fun w => .shladd (w.extractLsb' 21 5) (w.extractLsb' 16 5) (w.extractLsb' 13 3) (w.extractLsb' 12 1) (w.extractLsb' 6 2) (w.extractLsb' 5 1) (w.extractLsb' 0 5)⟩,
  ⟨0xFC000FC0, 0x08000A40, fun w => .shladdL (w.extractLsb' 21 5) (w.extractLsb' 16 5) (w.extractLsb' 13 3) (w.extractLsb' 12 1) (w.extractLsb' 6 2) (w.extractLsb' 5 1) (w.extractLsb' 0 5)⟩,
  ⟨0xFC000FC0, 0x08000A80, fun w => .shladdL (w.extractLsb' 21 5) (w.extractLsb' 16 5) (w.extractLsb' 13 3) (w.extractLsb' 12 1) (w.extractLsb' 6 2) (w.extractLsb' 5 1) (w.extractLsb' 0 5)⟩,
  ⟨0xFC000FC0, 0x08000AC0, fun w => .shladdL (w.extractLsb' 21 5) (w.extractLsb' 16 5) (w.extractLsb' 13 3) (w.extractLsb' 12 1) (w.extractLsb' 6 2) (w.extractLsb' 5 1) (w.extractLsb' 0 5)⟩,
  ⟨0xFC000FC0, 0x08000E40, fun w => .shladdTsv (w.extractLsb' 21 5) (w.extractLsb' 16 5) (w.extractLsb' 13 3) (w.extractLsb' 12 1) (w.extractLsb' 6 2) (w.extractLsb' 5 1) (w.extractLsb' 0 5)⟩]

/-- The table's rows 94 to 102: computation. -/
def rowsComputation2 : List Row := [
  ⟨0xFC000FC0, 0x08000E80, fun w => .shladdTsv (w.extractLsb' 21 5) (w.extractLsb' 16 5) (w.extractLsb' 13 3) (w.extractLsb' 12 1) (w.extractLsb' 6 2) (w.extractLsb' 5 1) (w.extractLsb' 0 5)⟩,
  ⟨0xFC000FC0, 0x08000EC0, fun w => .shladdTsv (w.extractLsb' 21 5) (w.extractLsb' 16 5) (w.extractLsb' 13 3) (w.extractLsb' 12 1) (w.extractLsb' 6 2) (w.extractLsb' 5 1) (w.extractLsb' 0 5)⟩,
  ⟨0xFC000FE0, 0x08000440, fun w => .ds (w.extractLsb' 21 5) (w.extractLsb' 16 5) (w.extractLsb' 13 3) (w.extractLsb' 12 1) (w.extractLsb' 0 5)⟩,
  ⟨0xFC1F0FC0, 0x08000B80, fun w => .dcor (w.extractLsb' 21 5) (w.extractLsb' 13 3) (w.extractLsb' 12 1) (w.extractLsb' 5 1) (w.extractLsb' 0 5)⟩,
  ⟨0xFC1F0FC0, 0x08000BC0, fun w => .dcorI (w.extractLsb' 21 5) (w.extractLsb' 13 3) (w.extractLsb' 12 1) (w.extractLsb' 5 1) (w.extractLsb' 0 5)⟩,
  ⟨0xFC000000, 0xB4000000, fun w => .addi (w.extractLsb' 21 5) (w.extractLsb' 16 5) (w.extractLsb' 13 3) (w.extractLsb' 12 1) (w.extractLsb' 11 1) (w.extractLsb' 0 11)⟩,
  ⟨0xFC000000, 0xB0000000, fun w => .addiTc (w.extractLsb' 21 5) (w.extractLsb' 16 5) (w.extractLsb' 13 3) (w.extractLsb' 12 1) (w.extractLsb' 11 1) (w.extractLsb' 0 11)⟩,
  ⟨0xFC000000, 0x94000000, fun w => .subi (w.extractLsb' 21 5) (w.extractLsb' 16 5) (w.extractLsb' 13 3) (w.extractLsb' 12 1) (w.extractLsb' 11 1) (w.extractLsb' 0 11)⟩,
  ⟨0xFC000000, 0x90000000, fun w => .cmpiclr (w.extractLsb' 21 5) (w.extractLsb' 16 5) (w.extractLsb' 13 3) (w.extractLsb' 12 1) (w.extractLsb' 11 1) (w.extractLsb' 0 11)⟩]

/-- The table's rows 103 to 118: shift, extract, deposit. -/
def rowsShiftExtractDeposit : List Row := [
  ⟨0xFC001FE0, 0xD0000000, fun w => .shrpwSar (w.extractLsb' 21 5) (w.extractLsb' 16 5) (w.extractLsb' 13 3) (w.extractLsb' 0 5)⟩,
  ⟨0xFC001FE0, 0xD0000200, fun w => .shrpdSar (w.extractLsb' 21 5) (w.extractLsb' 16 5) (w.extractLsb' 13 3) (w.extractLsb' 0 5)⟩,
  ⟨0xFC001C00, 0xD0000800, fun w => .shrpwFixed (w.extractLsb' 21 5) (w.extractLsb' 16 5) (w.extractLsb' 13 3) (w.extractLsb' 5 5) (w.extractLsb' 0 5)⟩,
  ⟨0xFC001400, 0xD0000400, fun w => .shrpdFixed (w.extractLsb' 21 5) (w.extractLsb' 16 5) (w.extractLsb' 13 3) (w.extractLsb' 11 1) (w.extractLsb' 5 5) (w.extractLsb' 0 5)⟩,
  ⟨0xFC001BE0, 0xD0001000, fun w => .extrwSar (w.extractLsb' 21 5) (w.extractLsb' 16 5) (w.extractLsb' 13 3) (w.extractLsb' 10 1) (w.extractLsb' 0 5)⟩,
  ⟨0xFC001AE0, 0xD0001200, fun w => .extrdSar (w.extractLsb' 21 5) (w.extractLsb' 16 5) (w.extractLsb' 13 3) (w.extractLsb' 10 1) (w.extractLsb' 8 1) (w.extractLsb' 0 5)⟩,
  ⟨0xFC001800, 0xD0001800, fun w => .extrwFixed (w.extractLsb' 21 5) (w.extractLsb' 16 5) (w.extractLsb' 13 3) (w.extractLsb' 10 1) (w.extractLsb' 5 5) (w.extractLsb' 0 5)⟩,
  ⟨0xFC000000, 0xD8000000, fun w => .extrdFixed (w.extractLsb' 21 5) (w.extractLsb' 16 5) (w.extractLsb' 13 3) (w.extractLsb' 12 1) (w.extractLsb' 11 1) (w.extractLsb' 10 1) (w.extractLsb' 5 5) (w.extractLsb' 0 5)⟩,
  ⟨0xFC001BE0, 0xD4000000, fun w => .depwSar (w.extractLsb' 21 5) (w.extractLsb' 16 5) (w.extractLsb' 13 3) (w.extractLsb' 10 1) (w.extractLsb' 0 5)⟩,
  ⟨0xFC001AE0, 0xD4000200, fun w => .depdSar (w.extractLsb' 21 5) (w.extractLsb' 16 5) (w.extractLsb' 13 3) (w.extractLsb' 10 1) (w.extractLsb' 8 1) (w.extractLsb' 0 5)⟩,
  ⟨0xFC001800, 0xD4000800, fun w => .depwFixed (w.extractLsb' 21 5) (w.extractLsb' 16 5) (w.extractLsb' 13 3) (w.extractLsb' 10 1) (w.extractLsb' 5 5) (w.extractLsb' 0 5)⟩,
  ⟨0xFC001BE0, 0xD4001000, fun w => .depwiSar (w.extractLsb' 21 5) (w.extractLsb' 16 5) (w.extractLsb' 13 3) (w.extractLsb' 10 1) (w.extractLsb' 0 5)⟩,
  ⟨0xFC001AE0, 0xD4001200, fun w => .depdiSar (w.extractLsb' 21 5) (w.extractLsb' 16 5) (w.extractLsb' 13 3) (w.extractLsb' 10 1) (w.extractLsb' 8 1) (w.extractLsb' 0 5)⟩,
  ⟨0xFC001800, 0xD4001800, fun w => .depwiFixed (w.extractLsb' 21 5) (w.extractLsb' 16 5) (w.extractLsb' 13 3) (w.extractLsb' 10 1) (w.extractLsb' 5 5) (w.extractLsb' 0 5)⟩,
  ⟨0xFC000000, 0xF0000000, fun w => .depdFixed (w.extractLsb' 21 5) (w.extractLsb' 16 5) (w.extractLsb' 13 3) (w.extractLsb' 12 1) (w.extractLsb' 11 1) (w.extractLsb' 10 1) (w.extractLsb' 5 5) (w.extractLsb' 0 5)⟩,
  ⟨0xFC000000, 0xF4000000, fun w => .depdiFixed (w.extractLsb' 21 5) (w.extractLsb' 16 5) (w.extractLsb' 13 3) (w.extractLsb' 12 1) (w.extractLsb' 11 1) (w.extractLsb' 10 1) (w.extractLsb' 5 5) (w.extractLsb' 0 5)⟩]

/-- The table's rows 119 to 139: halfword. -/
def rowsHalfword : List Row := [
  ⟨0xFC00FFE0, 0x080003C0, fun w => .hadd (w.extractLsb' 21 5) (w.extractLsb' 16 5) (w.extractLsb' 0 5)⟩,
  ⟨0xFC00FFE0, 0x08000340, fun w => .haddSs (w.extractLsb' 21 5) (w.extractLsb' 16 5) (w.extractLsb' 0 5)⟩,
  ⟨0xFC00FFE0, 0x08000300, fun w => .haddUs (w.extractLsb' 21 5) (w.extractLsb' 16 5) (w.extractLsb' 0 5)⟩,
  ⟨0xFC00FFE0, 0x080001C0, fun w => .hsub (w.extractLsb' 21 5) (w.extractLsb' 16 5) (w.extractLsb' 0 5)⟩,
  ⟨0xFC00FFE0, 0x08000140, fun w => .hsubSs (w.extractLsb' 21 5) (w.extractLsb' 16 5) (w.extractLsb' 0 5)⟩,
  ⟨0xFC00FFE0, 0x08000100, fun w => .hsubUs (w.extractLsb' 21 5) (w.extractLsb' 16 5) (w.extractLsb' 0 5)⟩,
  ⟨0xFC00FFE0, 0x080002C0, fun w => .havg (w.extractLsb' 21 5) (w.extractLsb' 16 5) (w.extractLsb' 0 5)⟩,
  ⟨0xFC00FFE0, 0x08000740, fun w => .hshladd (w.extractLsb' 21 5) (w.extractLsb' 16 5) (w.extractLsb' 6 2) (w.extractLsb' 0 5)⟩,
  ⟨0xFC00FFE0, 0x08000780, fun w => .hshladd (w.extractLsb' 21 5) (w.extractLsb' 16 5) (w.extractLsb' 6 2) (w.extractLsb' 0 5)⟩,
  ⟨0xFC00FFE0, 0x080007C0, fun w => .hshladd (w.extractLsb' 21 5) (w.extractLsb' 16 5) (w.extractLsb' 6 2) (w.extractLsb' 0 5)⟩,
  ⟨0xFC00FFE0, 0x08000540, fun w => .hshradd (w.extractLsb' 21 5) (w.extractLsb' 16 5) (w.extractLsb' 6 2) (w.extractLsb' 0 5)⟩,
  ⟨0xFC00FFE0, 0x08000580, fun w => .hshradd (w.extractLsb' 21 5) (w.extractLsb' 16 5) (w.extractLsb' 6 2) (w.extractLsb' 0 5)⟩,
  ⟨0xFC00FFE0, 0x080005C0, fun w => .hshradd (w.extractLsb' 21 5) (w.extractLsb' 16 5) (w.extractLsb' 6 2) (w.extractLsb' 0 5)⟩,
  ⟨0xFFE0FC20, 0xF8008800, fun w => .hshl (w.extractLsb' 16 5) (w.extractLsb' 6 4) (w.extractLsb' 0 5)⟩,
  ⟨0xFC1FFC20, 0xF800C800, fun w => .hshrU (w.extractLsb' 21 5) (w.extractLsb' 6 4) (w.extractLsb' 0 5)⟩,
  ⟨0xFC1FFC20, 0xF800CC00, fun w => .hshrS (w.extractLsb' 21 5) (w.extractLsb' 6 4) (w.extractLsb' 0 5)⟩,
  ⟨0xFC00FFE0, 0xF8008400, fun w => .mixhL (w.extractLsb' 21 5) (w.extractLsb' 16 5) (w.extractLsb' 0 5)⟩,
  ⟨0xFC00FFE0, 0xF800C400, fun w => .mixhR (w.extractLsb' 21 5) (w.extractLsb' 16 5) (w.extractLsb' 0 5)⟩,
  ⟨0xFC00FFE0, 0xF8008000, fun w => .mixwL (w.extractLsb' 21 5) (w.extractLsb' 16 5) (w.extractLsb' 0 5)⟩,
  ⟨0xFC00FFE0, 0xF800C000, fun w => .mixwR (w.extractLsb' 21 5) (w.extractLsb' 16 5) (w.extractLsb' 0 5)⟩,
  ⟨0xFC009020, 0xF8000000, fun w => .permh (w.extractLsb' 21 5) (w.extractLsb' 16 5) (w.extractLsb' 13 2) (w.extractLsb' 10 2) (w.extractLsb' 8 2) (w.extractLsb' 6 2) (w.extractLsb' 0 5)⟩]

/-- The table's rows 140 to 155: system control. -/
def rowsSystemControl : List Row := [
  ⟨0xFC001FE0, 0x00000000, fun w => .brk (w.extractLsb' 13 13) (w.extractLsb' 0 5)⟩,
  ⟨0xFC10FFFF, 0x00000400, fun _ => .sync⟩,
  ⟨0xFC10FFFF, 0x00100400, fun _ => .syncdma⟩,
  ⟨0xFC001FFF, 0x00000C00, fun _ => .rfi⟩,
  ⟨0xFC001FFF, 0x00000CA0, fun _ => .rfiR⟩,
  ⟨0xFC00FFE0, 0x00000D60, fun w => .ssm (w.extractLsb' 16 10) (w.extractLsb' 0 5)⟩,
  ⟨0xFC00FFE0, 0x00000E60, fun w => .rsm (w.extractLsb' 16 10) (w.extractLsb' 0 5)⟩,
  ⟨0xFFE0FFFF, 0x00001860, fun w => .mtsm (w.extractLsb' 16 5)⟩,
  ⟨0xFC003FE0, 0x000010A0, fun w => .ldsid (w.extractLsb' 21 5) (w.extractLsb' 14 2) (w.extractLsb' 0 5)⟩,
  ⟨0xFC001FFF, 0x00001820, fun w => .mtsp (w.extractLsb' 16 5) (w.extractLsb' 13 3)⟩,
  ⟨0xFC1F1FE0, 0x000004A0, fun w => .mfsp (w.extractLsb' 13 3) (w.extractLsb' 0 5)⟩,
  ⟨0xFC001FFF, 0x00001840, fun w => .mtctl (w.extractLsb' 21 5) (w.extractLsb' 16 5)⟩,
  ⟨0xFFE01FFF, 0x016018C0, fun w => .mtsarcm (w.extractLsb' 16 5)⟩,
  ⟨0xFC1F1FE0, 0x000008A0, fun w => .mfctl (w.extractLsb' 21 5) (w.extractLsb' 14 1) (w.extractLsb' 0 5)⟩,
  ⟨0xFC1F1FE0, 0x000014A0, fun w => .mfia (w.extractLsb' 0 5)⟩,
  ⟨0xFC000000, 0x14000000, fun w => .diag (w.extractLsb' 0 26)⟩]

/-- The table's rows 156 to 176: cache and TLB. -/
def rowsCacheTlb : List Row := [
  ⟨0xFC00FFFF, 0x04000800, fun w => .iitlbt (w.extractLsb' 21 5) (w.extractLsb' 16 5)⟩,
  ⟨0xFC001FC0, 0x04000200, fun w => .pitlb (w.extractLsb' 21 5) (w.extractLsb' 16 5) (w.extractLsb' 13 3) (w.extractLsb' 5 1)⟩,
  ⟨0xFC001FC0, 0x04000600, fun w => .pitlbL (w.extractLsb' 21 5) (w.extractLsb' 16 5) (w.extractLsb' 13 3) (w.extractLsb' 5 1)⟩,
  ⟨0xFC001FC0, 0x04000240, fun w => .pitlbe (w.extractLsb' 21 5) (w.extractLsb' 16 5) (w.extractLsb' 13 3) (w.extractLsb' 5 1)⟩,
  ⟨0xFC001FC0, 0x04000280, fun w => .ficExplicit (w.extractLsb' 21 5) (w.extractLsb' 16 5) (w.extractLsb' 13 3) (w.extractLsb' 5 1)⟩,
  ⟨0xFC001FC0, 0x040002C0, fun w => .fice (w.extractLsb' 21 5) (w.extractLsb' 16 5) (w.extractLsb' 13 3) (w.extractLsb' 5 1)⟩,
  ⟨0xFC00FFFF, 0x04001800, fun w => .idtlbt (w.extractLsb' 21 5) (w.extractLsb' 16 5)⟩,
  ⟨0xFC003FC0, 0x04001200, fun w => .pdtlb (w.extractLsb' 21 5) (w.extractLsb' 16 5) (w.extractLsb' 14 2) (w.extractLsb' 5 1)⟩,
  ⟨0xFC003FC0, 0x04001600, fun w => .pdtlbL (w.extractLsb' 21 5) (w.extractLsb' 16 5) (w.extractLsb' 14 2) (w.extractLsb' 5 1)⟩,
  ⟨0xFC003FC0, 0x04001240, fun w => .pdtlbe (w.extractLsb' 21 5) (w.extractLsb' 16 5) (w.extractLsb' 14 2) (w.extractLsb' 5 1)⟩,
  ⟨0xFC003FC0, 0x04001280, fun w => .fdcIndexed (w.extractLsb' 21 5) (w.extractLsb' 16 5) (w.extractLsb' 14 2) (w.extractLsb' 5 1)⟩,
  ⟨0xFC003FE0, 0x04003280, fun w => .fdcShort (w.extractLsb' 21 5) (w.extractLsb' 16 5) (w.extractLsb' 14 2)⟩,
  ⟨0xFC003FC0, 0x040012C0, fun w => .fdce (w.extractLsb' 21 5) (w.extractLsb' 16 5) (w.extractLsb' 14 2) (w.extractLsb' 5 1)⟩,
  ⟨0xFC003FDF, 0x04001380, fun w => .pdc (w.extractLsb' 21 5) (w.extractLsb' 16 5) (w.extractLsb' 14 2) (w.extractLsb' 5 1)⟩,
  ⟨0xFC003FDF, 0x040013C0, fun w => .ficImplicit (w.extractLsb' 21 5) (w.extractLsb' 16 5) (w.extractLsb' 14 2) (w.extractLsb' 5 1)⟩,
  ⟨0xFC003FE0, 0x04001180, fun w => .probeR (w.extractLsb' 21 5) (w.extractLsb' 16 5) (w.extractLsb' 14 2) (w.extractLsb' 0 5)⟩,
  ⟨0xFC003FE0, 0x040011C0, fun w => .probeW (w.extractLsb' 21 5) (w.extractLsb' 16 5) (w.extractLsb' 14 2) (w.extractLsb' 0 5)⟩,
  ⟨0xFC003FE0, 0x04003180, fun w => .probeiR (w.extractLsb' 21 5) (w.extractLsb' 16 5) (w.extractLsb' 14 2) (w.extractLsb' 0 5)⟩,
  ⟨0xFC003FE0, 0x040031C0, fun w => .probeiW (w.extractLsb' 21 5) (w.extractLsb' 16 5) (w.extractLsb' 14 2) (w.extractLsb' 0 5)⟩,
  ⟨0xFC003FC0, 0x04001340, fun w => .lpa (w.extractLsb' 21 5) (w.extractLsb' 16 5) (w.extractLsb' 14 2) (w.extractLsb' 5 1) (w.extractLsb' 0 5)⟩,
  ⟨0xFC003FE0, 0x04001300, fun w => .lci (w.extractLsb' 21 5) (w.extractLsb' 16 5) (w.extractLsb' 14 2) (w.extractLsb' 0 5)⟩]

/-- The table's rows 177 to 201: assist. -/
def rowsAssist : List Row := [
  ⟨0xFC000600, 0x10000000, fun w => .spop0 (w.extractLsb' 11 15) (w.extractLsb' 6 3) (w.extractLsb' 5 1) (w.extractLsb' 0 5)⟩,
  ⟨0xFC000600, 0x10000200, fun w => .spop1 (w.extractLsb' 11 15) (w.extractLsb' 6 3) (w.extractLsb' 5 1) (w.extractLsb' 0 5)⟩,
  ⟨0xFC000600, 0x10000400, fun w => .spop2 (w.extractLsb' 21 5) (w.extractLsb' 11 10) (w.extractLsb' 6 3) (w.extractLsb' 5 1) (w.extractLsb' 0 5)⟩,
  ⟨0xFC000600, 0x10000600, fun w => .spop3 (w.extractLsb' 21 5) (w.extractLsb' 16 5) (w.extractLsb' 11 5) (w.extractLsb' 6 3) (w.extractLsb' 5 1) (w.extractLsb' 0 5)⟩,
  ⟨0xFC003FC0, 0x30000280, fun w => .pmdis (w.extractLsb' 5 1)⟩,
  ⟨0xFC003FE0, 0x30000680, fun _ => .pmenb⟩,
  ⟨0xFC0001C0, 0x30000040, fun w => .copr1 (w.extractLsb' 9 17) (w.extractLsb' 5 1) (w.extractLsb' 0 5)⟩,
  ⟨0xFC0001C0, 0x300000C0, fun w => .copr3 (w.extractLsb' 9 17) (w.extractLsb' 5 1) (w.extractLsb' 0 5)⟩,
  ⟨0xFC000100, 0x30000100, fun w => .copr4to7 (w.extractLsb' 9 17) (w.extractLsb' 6 2) (w.extractLsb' 5 1) (w.extractLsb' 0 5)⟩,
  ⟨0xFC001380, 0x24000080, fun w => .cldwIndexed2 (w.extractLsb' 21 5) (w.extractLsb' 16 5) (w.extractLsb' 14 2) (w.extractLsb' 13 1) (w.extractLsb' 10 2) (w.extractLsb' 6 1) (w.extractLsb' 5 1) (w.extractLsb' 0 5)⟩,
  ⟨0xFC001380, 0x24001080, fun w => .cldwShort2 (w.extractLsb' 21 5) (w.extractLsb' 16 5) (w.extractLsb' 14 2) (w.extractLsb' 13 1) (w.extractLsb' 10 2) (w.extractLsb' 6 1) (w.extractLsb' 5 1) (w.extractLsb' 0 5)⟩,
  ⟨0xFC001300, 0x24000100, fun w => .cldwIndexed4 (w.extractLsb' 21 5) (w.extractLsb' 16 5) (w.extractLsb' 14 2) (w.extractLsb' 13 1) (w.extractLsb' 10 2) (w.extractLsb' 6 2) (w.extractLsb' 5 1) (w.extractLsb' 0 5)⟩,
  ⟨0xFC001300, 0x24001100, fun w => .cldwShort4 (w.extractLsb' 21 5) (w.extractLsb' 16 5) (w.extractLsb' 14 2) (w.extractLsb' 13 1) (w.extractLsb' 10 2) (w.extractLsb' 6 2) (w.extractLsb' 5 1) (w.extractLsb' 0 5)⟩,
  ⟨0xFC001380, 0x24000280, fun w => .cstwIndexed2 (w.extractLsb' 21 5) (w.extractLsb' 16 5) (w.extractLsb' 14 2) (w.extractLsb' 13 1) (w.extractLsb' 10 2) (w.extractLsb' 6 1) (w.extractLsb' 5 1) (w.extractLsb' 0 5)⟩,
  ⟨0xFC001380, 0x24001280, fun w => .cstwShort2 (w.extractLsb' 21 5) (w.extractLsb' 16 5) (w.extractLsb' 14 2) (w.extractLsb' 13 1) (w.extractLsb' 10 2) (w.extractLsb' 6 1) (w.extractLsb' 5 1) (w.extractLsb' 0 5)⟩,
  ⟨0xFC001300, 0x24000300, fun w => .cstwIndexed4 (w.extractLsb' 21 5) (w.extractLsb' 16 5) (w.extractLsb' 14 2) (w.extractLsb' 13 1) (w.extractLsb' 10 2) (w.extractLsb' 6 2) (w.extractLsb' 5 1) (w.extractLsb' 0 5)⟩,
  ⟨0xFC001300, 0x24001300, fun w => .cstwShort4 (w.extractLsb' 21 5) (w.extractLsb' 16 5) (w.extractLsb' 14 2) (w.extractLsb' 13 1) (w.extractLsb' 10 2) (w.extractLsb' 6 2) (w.extractLsb' 5 1) (w.extractLsb' 0 5)⟩,
  ⟨0xFC001380, 0x2C000080, fun w => .clddIndexed2 (w.extractLsb' 21 5) (w.extractLsb' 16 5) (w.extractLsb' 14 2) (w.extractLsb' 13 1) (w.extractLsb' 10 2) (w.extractLsb' 6 1) (w.extractLsb' 5 1) (w.extractLsb' 0 5)⟩,
  ⟨0xFC001380, 0x2C001080, fun w => .clddShort2 (w.extractLsb' 21 5) (w.extractLsb' 16 5) (w.extractLsb' 14 2) (w.extractLsb' 13 1) (w.extractLsb' 10 2) (w.extractLsb' 6 1) (w.extractLsb' 5 1) (w.extractLsb' 0 5)⟩,
  ⟨0xFC001300, 0x2C000100, fun w => .clddIndexed4 (w.extractLsb' 21 5) (w.extractLsb' 16 5) (w.extractLsb' 14 2) (w.extractLsb' 13 1) (w.extractLsb' 10 2) (w.extractLsb' 6 2) (w.extractLsb' 5 1) (w.extractLsb' 0 5)⟩,
  ⟨0xFC001300, 0x2C001100, fun w => .clddShort4 (w.extractLsb' 21 5) (w.extractLsb' 16 5) (w.extractLsb' 14 2) (w.extractLsb' 13 1) (w.extractLsb' 10 2) (w.extractLsb' 6 2) (w.extractLsb' 5 1) (w.extractLsb' 0 5)⟩,
  ⟨0xFC001380, 0x2C000280, fun w => .cstdIndexed2 (w.extractLsb' 21 5) (w.extractLsb' 16 5) (w.extractLsb' 14 2) (w.extractLsb' 13 1) (w.extractLsb' 10 2) (w.extractLsb' 6 1) (w.extractLsb' 5 1) (w.extractLsb' 0 5)⟩,
  ⟨0xFC001380, 0x2C001280, fun w => .cstdShort2 (w.extractLsb' 21 5) (w.extractLsb' 16 5) (w.extractLsb' 14 2) (w.extractLsb' 13 1) (w.extractLsb' 10 2) (w.extractLsb' 6 1) (w.extractLsb' 5 1) (w.extractLsb' 0 5)⟩,
  ⟨0xFC001300, 0x2C000300, fun w => .cstdIndexed4 (w.extractLsb' 21 5) (w.extractLsb' 16 5) (w.extractLsb' 14 2) (w.extractLsb' 13 1) (w.extractLsb' 10 2) (w.extractLsb' 6 2) (w.extractLsb' 5 1) (w.extractLsb' 0 5)⟩,
  ⟨0xFC001300, 0x2C001300, fun w => .cstdShort4 (w.extractLsb' 21 5) (w.extractLsb' 16 5) (w.extractLsb' 14 2) (w.extractLsb' 13 1) (w.extractLsb' 10 2) (w.extractLsb' 6 2) (w.extractLsb' 5 1) (w.extractLsb' 0 5)⟩]

/-- The table's rows 202 to 215: floating-point loads and stores. -/
def rowsFloatingPointLoadsStores : List Row := [
  ⟨0xFC000004, 0x5C000000, fun w => .fldwLong (w.extractLsb' 21 5) (w.extractLsb' 16 5) (w.extractLsb' 14 2) (w.extractLsb' 3 11) (w.extractLsb' 1 1) (w.extractLsb' 0 1)⟩,
  ⟨0xFC000000, 0x58000000, fun w => .fldwLongMod (w.extractLsb' 21 5) (w.extractLsb' 16 5) (w.extractLsb' 14 2) (w.extractLsb' 3 11) (w.extractLsb' 2 1) (w.extractLsb' 1 1) (w.extractLsb' 0 1)⟩,
  ⟨0xFC001380, 0x24001000, fun w => .fldwShort (w.extractLsb' 21 5) (w.extractLsb' 16 5) (w.extractLsb' 14 2) (w.extractLsb' 13 1) (w.extractLsb' 10 2) (w.extractLsb' 6 1) (w.extractLsb' 5 1) (w.extractLsb' 0 5)⟩,
  ⟨0xFC001380, 0x24000000, fun w => .fldwIndexed (w.extractLsb' 21 5) (w.extractLsb' 16 5) (w.extractLsb' 14 2) (w.extractLsb' 13 1) (w.extractLsb' 10 2) (w.extractLsb' 6 1) (w.extractLsb' 5 1) (w.extractLsb' 0 5)⟩,
  ⟨0xFC000004, 0x7C000000, fun w => .fstwLong (w.extractLsb' 21 5) (w.extractLsb' 16 5) (w.extractLsb' 14 2) (w.extractLsb' 3 11) (w.extractLsb' 1 1) (w.extractLsb' 0 1)⟩,
  ⟨0xFC000000, 0x78000000, fun w => .fstwLongMod (w.extractLsb' 21 5) (w.extractLsb' 16 5) (w.extractLsb' 14 2) (w.extractLsb' 3 11) (w.extractLsb' 2 1) (w.extractLsb' 1 1) (w.extractLsb' 0 1)⟩,
  ⟨0xFC001380, 0x24001200, fun w => .fstwShort (w.extractLsb' 21 5) (w.extractLsb' 16 5) (w.extractLsb' 14 2) (w.extractLsb' 13 1) (w.extractLsb' 10 2) (w.extractLsb' 6 1) (w.extractLsb' 5 1) (w.extractLsb' 0 5)⟩,
  ⟨0xFC001380, 0x24000200, fun w => .fstwIndexed (w.extractLsb' 21 5) (w.extractLsb' 16 5) (w.extractLsb' 14 2) (w.extractLsb' 13 1) (w.extractLsb' 10 2) (w.extractLsb' 6 1) (w.extractLsb' 5 1) (w.extractLsb' 0 5)⟩,
  ⟨0xFC000002, 0x50000002, fun w => .flddLong (w.extractLsb' 21 5) (w.extractLsb' 16 5) (w.extractLsb' 14 2) (w.extractLsb' 4 10) (w.extractLsb' 3 1) (w.extractLsb' 2 1) (w.extractLsb' 0 1)⟩,
  ⟨0xFC0013C0, 0x2C001000, fun w => .flddShort (w.extractLsb' 21 5) (w.extractLsb' 16 5) (w.extractLsb' 14 2) (w.extractLsb' 13 1) (w.extractLsb' 10 2) (w.extractLsb' 5 1) (w.extractLsb' 0 5)⟩,
  ⟨0xFC0013C0, 0x2C000000, fun w => .flddIndexed (w.extractLsb' 21 5) (w.extractLsb' 16 5) (w.extractLsb' 14 2) (w.extractLsb' 13 1) (w.extractLsb' 10 2) (w.extractLsb' 5 1) (w.extractLsb' 0 5)⟩,
  ⟨0xFC000002, 0x70000002, fun w => .fstdLong (w.extractLsb' 21 5) (w.extractLsb' 16 5) (w.extractLsb' 14 2) (w.extractLsb' 4 10) (w.extractLsb' 3 1) (w.extractLsb' 2 1) (w.extractLsb' 0 1)⟩,
  ⟨0xFC0013C0, 0x2C001200, fun w => .fstdShort (w.extractLsb' 21 5) (w.extractLsb' 16 5) (w.extractLsb' 14 2) (w.extractLsb' 13 1) (w.extractLsb' 10 2) (w.extractLsb' 5 1) (w.extractLsb' 0 5)⟩,
  ⟨0xFC0013C0, 0x2C000200, fun w => .fstdIndexed (w.extractLsb' 21 5) (w.extractLsb' 16 5) (w.extractLsb' 14 2) (w.extractLsb' 13 1) (w.extractLsb' 10 2) (w.extractLsb' 5 1) (w.extractLsb' 0 5)⟩]

/-- The table's rows 216 to 241: floating-point operations. -/
def rowsFloatingPointOperations1 : List Row := [
  ⟨0xFFFFFFFF, 0x30000000, fun _ => .fid⟩,
  ⟨0xFC1FE7E0, 0x30004000, fun w => .fcpy (w.extractLsb' 21 5) (w.extractLsb' 11 2) (w.extractLsb' 0 5)⟩,
  ⟨0xFC1FF720, 0x38004000, fun w => .fcpyE (w.extractLsb' 21 5) (w.extractLsb' 11 1) (w.extractLsb' 7 1) (w.extractLsb' 6 1) (w.extractLsb' 0 5)⟩,
  ⟨0xFC1FE7E0, 0x30006000, fun w => .fabs (w.extractLsb' 21 5) (w.extractLsb' 11 2) (w.extractLsb' 0 5)⟩,
  ⟨0xFC1FF720, 0x38006000, fun w => .fabsE (w.extractLsb' 21 5) (w.extractLsb' 11 1) (w.extractLsb' 7 1) (w.extractLsb' 6 1) (w.extractLsb' 0 5)⟩,
  ⟨0xFC1FE7E0, 0x30008000, fun w => .fsqrt (w.extractLsb' 21 5) (w.extractLsb' 11 2) (w.extractLsb' 0 5)⟩,
  ⟨0xFC1FF720, 0x38008000, fun w => .fsqrtE (w.extractLsb' 21 5) (w.extractLsb' 11 1) (w.extractLsb' 7 1) (w.extractLsb' 6 1) (w.extractLsb' 0 5)⟩,
  ⟨0xFC1FE7E0, 0x3000A000, fun w => .frnd (w.extractLsb' 21 5) (w.extractLsb' 11 2) (w.extractLsb' 0 5)⟩,
  ⟨0xFC1FF720, 0x3800A000, fun w => .frndE (w.extractLsb' 21 5) (w.extractLsb' 11 1) (w.extractLsb' 7 1) (w.extractLsb' 6 1) (w.extractLsb' 0 5)⟩,
  ⟨0xFC1FE7E0, 0x3000C000, fun w => .fneg (w.extractLsb' 21 5) (w.extractLsb' 11 2) (w.extractLsb' 0 5)⟩,
  ⟨0xFC1FF720, 0x3800C000, fun w => .fnegE (w.extractLsb' 21 5) (w.extractLsb' 11 1) (w.extractLsb' 7 1) (w.extractLsb' 6 1) (w.extractLsb' 0 5)⟩,
  ⟨0xFC1FE7E0, 0x3000E000, fun w => .fnegabs (w.extractLsb' 21 5) (w.extractLsb' 11 2) (w.extractLsb' 0 5)⟩,
  ⟨0xFC1FF720, 0x3800E000, fun w => .fnegabsE (w.extractLsb' 21 5) (w.extractLsb' 11 1) (w.extractLsb' 7 1) (w.extractLsb' 6 1) (w.extractLsb' 0 5)⟩,
  ⟨0xFC1F87E0, 0x30000200, fun w => .fcnvFF (w.extractLsb' 21 5) (w.extractLsb' 13 2) (w.extractLsb' 11 2) (w.extractLsb' 0 5)⟩,
  ⟨0xFC1FD720, 0x38000200, fun w => .fcnvFFE (w.extractLsb' 21 5) (w.extractLsb' 13 1) (w.extractLsb' 11 1) (w.extractLsb' 7 1) (w.extractLsb' 6 1) (w.extractLsb' 0 5)⟩,
  ⟨0xFC1F87E0, 0x30008200, fun w => .fcnvXF (w.extractLsb' 21 5) (w.extractLsb' 13 2) (w.extractLsb' 11 2) (w.extractLsb' 0 5)⟩,
  ⟨0xFC1FD720, 0x38008200, fun w => .fcnvXFE (w.extractLsb' 21 5) (w.extractLsb' 13 1) (w.extractLsb' 11 1) (w.extractLsb' 7 1) (w.extractLsb' 6 1) (w.extractLsb' 0 5)⟩,
  ⟨0xFC1F87E0, 0x30010200, fun w => .fcnvFX (w.extractLsb' 21 5) (w.extractLsb' 13 2) (w.extractLsb' 11 2) (w.extractLsb' 0 5)⟩,
  ⟨0xFC1FD720, 0x38010200, fun w => .fcnvFXE (w.extractLsb' 21 5) (w.extractLsb' 13 1) (w.extractLsb' 11 1) (w.extractLsb' 7 1) (w.extractLsb' 6 1) (w.extractLsb' 0 5)⟩,
  ⟨0xFC1F87E0, 0x30018200, fun w => .fcnvFXT (w.extractLsb' 21 5) (w.extractLsb' 13 2) (w.extractLsb' 11 2) (w.extractLsb' 0 5)⟩,
  ⟨0xFC1FD720, 0x38018200, fun w => .fcnvFXTE (w.extractLsb' 21 5) (w.extractLsb' 13 1) (w.extractLsb' 11 1) (w.extractLsb' 7 1) (w.extractLsb' 6 1) (w.extractLsb' 0 5)⟩,
  ⟨0xFC1F87E0, 0x30028200, fun w => .fcnvUF (w.extractLsb' 21 5) (w.extractLsb' 13 2) (w.extractLsb' 11 2) (w.extractLsb' 0 5)⟩,
  ⟨0xFC1FD720, 0x38028200, fun w => .fcnvUFE (w.extractLsb' 21 5) (w.extractLsb' 13 1) (w.extractLsb' 11 1) (w.extractLsb' 7 1) (w.extractLsb' 6 1) (w.extractLsb' 0 5)⟩,
  ⟨0xFC1F87E0, 0x30030200, fun w => .fcnvFU (w.extractLsb' 21 5) (w.extractLsb' 13 2) (w.extractLsb' 11 2) (w.extractLsb' 0 5)⟩,
  ⟨0xFC1FD720, 0x38030200, fun w => .fcnvFUE (w.extractLsb' 21 5) (w.extractLsb' 13 1) (w.extractLsb' 11 1) (w.extractLsb' 7 1) (w.extractLsb' 6 1) (w.extractLsb' 0 5)⟩,
  ⟨0xFC1F87E0, 0x30038200, fun w => .fcnvFUT (w.extractLsb' 21 5) (w.extractLsb' 13 2) (w.extractLsb' 11 2) (w.extractLsb' 0 5)⟩]

/-- The table's rows 242 to 258: floating-point operations. -/
def rowsFloatingPointOperations2 : List Row := [
  ⟨0xFC1FD720, 0x38038200, fun w => .fcnvFUTE (w.extractLsb' 21 5) (w.extractLsb' 13 1) (w.extractLsb' 11 1) (w.extractLsb' 7 1) (w.extractLsb' 6 1) (w.extractLsb' 0 5)⟩,
  ⟨0xFC0007E0, 0x30000400, fun w => .fcmp (w.extractLsb' 21 5) (w.extractLsb' 16 5) (w.extractLsb' 13 3) (w.extractLsb' 11 2) (w.extractLsb' 0 5)⟩,
  ⟨0xFC000760, 0x38000400, fun w => .fcmpE (w.extractLsb' 21 5) (w.extractLsb' 16 5) (w.extractLsb' 13 3) (w.extractLsb' 12 1) (w.extractLsb' 11 1) (w.extractLsb' 7 1) (w.extractLsb' 0 5)⟩,
  ⟨0xFFFF1FE0, 0x30000420, fun w => .ftest (w.extractLsb' 13 3) (w.extractLsb' 0 5)⟩,
  ⟨0xFC00E7E0, 0x30000600, fun w => .fadd (w.extractLsb' 21 5) (w.extractLsb' 16 5) (w.extractLsb' 11 2) (w.extractLsb' 0 5)⟩,
  ⟨0xFC00E720, 0x38000600, fun w => .faddE (w.extractLsb' 21 5) (w.extractLsb' 16 5) (w.extractLsb' 12 1) (w.extractLsb' 11 1) (w.extractLsb' 7 1) (w.extractLsb' 6 1) (w.extractLsb' 0 5)⟩,
  ⟨0xFC00E7E0, 0x30002600, fun w => .fsub (w.extractLsb' 21 5) (w.extractLsb' 16 5) (w.extractLsb' 11 2) (w.extractLsb' 0 5)⟩,
  ⟨0xFC00E720, 0x38002600, fun w => .fsubE (w.extractLsb' 21 5) (w.extractLsb' 16 5) (w.extractLsb' 12 1) (w.extractLsb' 11 1) (w.extractLsb' 7 1) (w.extractLsb' 6 1) (w.extractLsb' 0 5)⟩,
  ⟨0xFC00E7E0, 0x30004600, fun w => .fmpy (w.extractLsb' 21 5) (w.extractLsb' 16 5) (w.extractLsb' 11 2) (w.extractLsb' 0 5)⟩,
  ⟨0xFC00E720, 0x38004600, fun w => .fmpyE (w.extractLsb' 21 5) (w.extractLsb' 16 5) (w.extractLsb' 12 1) (w.extractLsb' 11 1) (w.extractLsb' 7 1) (w.extractLsb' 6 1) (w.extractLsb' 0 5)⟩,
  ⟨0xFC00E7E0, 0x30006600, fun w => .fdiv (w.extractLsb' 21 5) (w.extractLsb' 16 5) (w.extractLsb' 11 2) (w.extractLsb' 0 5)⟩,
  ⟨0xFC00E720, 0x38006600, fun w => .fdivE (w.extractLsb' 21 5) (w.extractLsb' 16 5) (w.extractLsb' 12 1) (w.extractLsb' 11 1) (w.extractLsb' 7 1) (w.extractLsb' 6 1) (w.extractLsb' 0 5)⟩,
  ⟨0xFC00EF60, 0x38004700, fun w => .xmpyu (w.extractLsb' 21 5) (w.extractLsb' 16 5) (w.extractLsb' 12 1) (w.extractLsb' 7 1) (w.extractLsb' 0 5)⟩,
  ⟨0xFC000000, 0x18000000, fun w => .fmpyadd (w.extractLsb' 21 5) (w.extractLsb' 16 5) (w.extractLsb' 11 5) (w.extractLsb' 6 5) (w.extractLsb' 5 1) (w.extractLsb' 0 5)⟩,
  ⟨0xFC000000, 0x98000000, fun w => .fmpysub (w.extractLsb' 21 5) (w.extractLsb' 16 5) (w.extractLsb' 11 5) (w.extractLsb' 6 5) (w.extractLsb' 5 1) (w.extractLsb' 0 5)⟩,
  ⟨0xFC000020, 0xB8000000, fun w => .fmpyfadd (w.extractLsb' 21 5) (w.extractLsb' 16 5) (w.extractLsb' 13 3) (w.extractLsb' 12 1) (w.extractLsb' 11 1) (w.extractLsb' 8 3) (w.extractLsb' 7 1) (w.extractLsb' 6 1) (w.extractLsb' 0 5)⟩,
  ⟨0xFC000020, 0xB8000020, fun w => .fmpynfadd (w.extractLsb' 21 5) (w.extractLsb' 16 5) (w.extractLsb' 13 3) (w.extractLsb' 12 1) (w.extractLsb' 11 1) (w.extractLsb' 8 3) (w.extractLsb' 7 1) (w.extractLsb' 6 1) (w.extractLsb' 0 5)⟩]

/-- The opcode table in its own order; the first row that matches a word is its row (PUSHNOM stands before PUSHBTS
and CLRBTS before POPBTS, 42_branch.md R500 to R503). -/
def opcodeTable : List Row :=
  rowsMemoryReferenceImmediate1 ++ rowsMemoryReferenceImmediate2 ++ rowsBranch1 ++ rowsBranch2 ++ rowsComputation1 ++ rowsComputation2 ++ rowsShiftExtractDeposit ++ rowsHalfword ++ rowsSystemControl ++ rowsCacheTlb ++ rowsAssist ++ rowsFloatingPointLoadsStores ++ rowsFloatingPointOperations1 ++ rowsFloatingPointOperations2

/-- The instruction whose row a word matches, before the checks of `Instr.wellFormed`. -/
def rawDecode (w : BitVec 32) : Option Instr := (opcodeTable.find? (·.hits w)).map (·.build w)

/-- Why a word is no instruction; what the machine then does is `Machine.rejected`. -/
inductive Reject where
  /-- An undefined major opcode, extension or sub-opcode outside the assists (30_encoding.md R370, D11). -/
  | illegal
  /-- An undefined floating-point encoding (50_fp_instructions.md R912; doubleword loads and stores with uid 1,
  49_floating_point.md R818). -/
  | fpUndefined
  /-- A reserved floating-point sub-opcode (R912; 51_fp_exceptions.md R946). -/
  | fpReserved
  /-- An undefined performance monitor sub-opcode (48_assist_sfu_copr.md R770), or a reserved one, 0x10 to 0x1F
  (93_implementation_defined.md section 5). -/
  | pmUndefined
deriving DecidableEq, Repr

/-- The class of a word that is no well-formed instruction. A reserved sub-opcode of class 3 is reserved whatever its format code is, the
undefined code 2 among them (50_fp_instructions.md R912 and R839 meet there). DESIGN CHOICE, log entry 39. -/
def rejectClass (w : BitVec 32) : Reject :=
  let op := w.extractLsb' 26 6
  let uid := w.extractLsb' 6 3
  let cls := w.extractLsb' 9 2
  let sub := w.extractLsb' 13 3
  if op = 0x0C#6 ∧ uid = 0#3 then
    if cls = 3#2 ∧ w.extractLsb' 5 1 = 0#1 ∧ (sub = 4#3 ∨ sub = 5#3 ∨ sub = 6#3) then .fpReserved else .fpUndefined
  else if op = 0x0E#6 then
    if cls = 3#2 ∧ w.extractLsb' 8 1 = 0#1 ∧ w.extractLsb' 5 1 = 0#1 ∧ (sub = 5#3 ∨ sub = 6#3) then .fpReserved
    else .fpUndefined
  else if op = 0x0C#6 ∧ uid = 2#3 then .pmUndefined
  else if op = 0x0B#6 ∧ uid = 1#3 then .fpUndefined
  else .illegal

/-- Decoding: total on every 32-bit word, refusing by name. -/
def decode (w : BitVec 32) : Except Reject Instr :=
  match rawDecode w with
  | some i => if i.wellFormed then .ok i else .error (rejectClass w)
  | none => .error (rejectClass w)

/-- The host's name for the decoder: the instruction of the 32-bit word `w` (one word whatever `nbits` is). -/
def decodeTableWord (_nbits w : Nat) : Option Instr :=
  match decode (BitVec.ofNat 32 w) with
  | .ok i => some i
  | .error _ => none

/-- The word of an instruction, from the formats of 30_encoding.md R302 to R322; reserved bits are zero. -/
def encode (i : Instr) : BitVec 32 :=
  match i with
  | .ldbLong b t sr im14 => 0x10#6 ++ b ++ t ++ sr ++ im14
  | .ldhLong b t sr im14 => 0x11#6 ++ b ++ t ++ sr ++ im14
  | .ldwLong b t sr im14 => 0x12#6 ++ b ++ t ++ sr ++ im14
  | .ldwLongMod b t sr im14 => 0x13#6 ++ b ++ t ++ sr ++ im14
  | .stbLong b r sr im14 => 0x18#6 ++ b ++ r ++ sr ++ im14
  | .sthLong b r sr im14 => 0x19#6 ++ b ++ r ++ sr ++ im14
  | .stwLong b r sr im14 => 0x1A#6 ++ b ++ r ++ sr ++ im14
  | .stwLongMod b r sr im14 => 0x1B#6 ++ b ++ r ++ sr ++ im14
  | .ldwLong11 b t sr im11a iv => 0x17#6 ++ b ++ t ++ sr ++ im11a ++ 0x2#2 ++ iv
  | .stwLong11 b r sr im11a iv => 0x1F#6 ++ b ++ r ++ sr ++ im11a ++ 0x2#2 ++ iv
  | .lddLong b t sr im10a m a iv => 0x14#6 ++ b ++ t ++ sr ++ im10a ++ m ++ a ++ 0x0#1 ++ iv
  | .stdLong b r sr im10a m a iv => 0x1C#6 ++ b ++ r ++ sr ++ im10a ++ m ++ a ++ 0x0#1 ++ iv
  | .ldbShort b im5 sr a cc m t => 0x3#6 ++ b ++ im5 ++ sr ++ a ++ 0x1#1 ++ cc ++ 0x0#4 ++ m ++ t
  | .ldbIndexed b x sr u cc m t => 0x3#6 ++ b ++ x ++ sr ++ u ++ 0x0#1 ++ cc ++ 0x0#4 ++ m ++ t
  | .ldhShort b im5 sr a cc m t => 0x3#6 ++ b ++ im5 ++ sr ++ a ++ 0x1#1 ++ cc ++ 0x1#4 ++ m ++ t
  | .ldhIndexed b x sr u cc m t => 0x3#6 ++ b ++ x ++ sr ++ u ++ 0x0#1 ++ cc ++ 0x1#4 ++ m ++ t
  | .ldwShort b im5 sr a cc m t => 0x3#6 ++ b ++ im5 ++ sr ++ a ++ 0x1#1 ++ cc ++ 0x2#4 ++ m ++ t
  | .ldwIndexed b x sr u cc m t => 0x3#6 ++ b ++ x ++ sr ++ u ++ 0x0#1 ++ cc ++ 0x2#4 ++ m ++ t
  | .lddShort b im5 sr a cc m t => 0x3#6 ++ b ++ im5 ++ sr ++ a ++ 0x1#1 ++ cc ++ 0x3#4 ++ m ++ t
  | .lddIndexed b x sr u cc m t => 0x3#6 ++ b ++ x ++ sr ++ u ++ 0x0#1 ++ cc ++ 0x3#4 ++ m ++ t
  | .lddaShort b im5 a cc m t => 0x3#6 ++ b ++ im5 ++ 0x0#2 ++ a ++ 0x1#1 ++ cc ++ 0x4#4 ++ m ++ t
  | .lddaIndexed b x u cc m t => 0x3#6 ++ b ++ x ++ 0x0#2 ++ u ++ 0x0#1 ++ cc ++ 0x4#4 ++ m ++ t
  | .ldcdShort b im5 sr a cc m t => 0x3#6 ++ b ++ im5 ++ sr ++ a ++ 0x1#1 ++ cc ++ 0x5#4 ++ m ++ t
  | .ldcdIndexed b x sr u cc m t => 0x3#6 ++ b ++ x ++ sr ++ u ++ 0x0#1 ++ cc ++ 0x5#4 ++ m ++ t
  | .ldwaShort b im5 a cc m t => 0x3#6 ++ b ++ im5 ++ 0x0#2 ++ a ++ 0x1#1 ++ cc ++ 0x6#4 ++ m ++ t
  | .ldwaIndexed b x u cc m t => 0x3#6 ++ b ++ x ++ 0x0#2 ++ u ++ 0x0#1 ++ cc ++ 0x6#4 ++ m ++ t
  | .ldcwShort b im5 sr a cc m t => 0x3#6 ++ b ++ im5 ++ sr ++ a ++ 0x1#1 ++ cc ++ 0x7#4 ++ m ++ t
  | .ldcwIndexed b x sr u cc m t => 0x3#6 ++ b ++ x ++ sr ++ u ++ 0x0#1 ++ cc ++ 0x7#4 ++ m ++ t
  | .stbShort b r sr a cc m im5 => 0x3#6 ++ b ++ r ++ sr ++ a ++ 0x1#1 ++ cc ++ 0x8#4 ++ m ++ im5
  | .sthShort b r sr a cc m im5 => 0x3#6 ++ b ++ r ++ sr ++ a ++ 0x1#1 ++ cc ++ 0x9#4 ++ m ++ im5
  | .stwShort b r sr a cc m im5 => 0x3#6 ++ b ++ r ++ sr ++ a ++ 0x1#1 ++ cc ++ 0xA#4 ++ m ++ im5
  | .stdShort b r sr a cc m im5 => 0x3#6 ++ b ++ r ++ sr ++ a ++ 0x1#1 ++ cc ++ 0xB#4 ++ m ++ im5
  | .stby b r sr a cc m im5 => 0x3#6 ++ b ++ r ++ sr ++ a ++ 0x1#1 ++ cc ++ 0xC#4 ++ m ++ im5
  | .stdby b r sr a cc m im5 => 0x3#6 ++ b ++ r ++ sr ++ a ++ 0x1#1 ++ cc ++ 0xD#4 ++ m ++ im5
  | .stwa b r a cc m im5 => 0x3#6 ++ b ++ r ++ 0x0#2 ++ a ++ 0x1#1 ++ cc ++ 0xE#4 ++ m ++ im5
  | .stda b r a cc m im5 => 0x3#6 ++ b ++ r ++ 0x0#2 ++ a ++ 0x1#1 ++ cc ++ 0xF#4 ++ m ++ im5
  | .ldo b t iv im14 => 0xD#6 ++ b ++ t ++ iv ++ im14
  | .ldil t im21 => 0x8#6 ++ t ++ im21
  | .addil r im21 => 0xA#6 ++ r ++ im21
  | .bl17 t w1 w2 n w => 0x3A#6 ++ t ++ w1 ++ 0x0#3 ++ w2 ++ n ++ w
  | .bGate t w1 w2 n w => 0x3A#6 ++ t ++ w1 ++ 0x1#3 ++ w2 ++ n ++ w
  | .blPush w3 w1 w2 n w => 0x3A#6 ++ w3 ++ w1 ++ 0x4#3 ++ w2 ++ n ++ w
  | .bl22 w3 w1 w2 n w => 0x3A#6 ++ w3 ++ w1 ++ 0x5#3 ++ w2 ++ n ++ w
  | .pushbts r => 0x740#11 ++ r ++ 0x4001#16
  | .popbts iv => 0xE8004#20 ++ iv ++ 0x5#3
  | .blr t x n => 0x3A#6 ++ t ++ x ++ 0x1000#14 ++ n ++ 0x0#1
  | .bv b x n => 0x3A#6 ++ b ++ x ++ 0x3000#14 ++ n ++ 0x0#1
  | .bve b n p => 0x3A#6 ++ b ++ 0x3400#19 ++ n ++ p
  | .bveL b n p => 0x3A#6 ++ b ++ 0x3C00#19 ++ n ++ p
  | .be b w1 sr w2 n w => 0x38#6 ++ b ++ w1 ++ sr ++ w2 ++ n ++ w
  | .beL b w1 sr w2 n w => 0x39#6 ++ b ++ w1 ++ sr ++ w2 ++ n ++ w
  | .addbT r2 r1 c w1 n w => 0x28#6 ++ r2 ++ r1 ++ c ++ w1 ++ n ++ w
  | .addbF r2 r1 c w1 n w => 0x2A#6 ++ r2 ++ r1 ++ c ++ w1 ++ n ++ w
  | .addibT r im5 c w1 n w => 0x29#6 ++ r ++ im5 ++ c ++ w1 ++ n ++ w
  | .addibF r im5 c w1 n w => 0x2B#6 ++ r ++ im5 ++ c ++ w1 ++ n ++ w
  | .cmpbT r2 r1 c w1 n w => 0x20#6 ++ r2 ++ r1 ++ c ++ w1 ++ n ++ w
  | .cmpbF r2 r1 c w1 n w => 0x22#6 ++ r2 ++ r1 ++ c ++ w1 ++ n ++ w
  | .cmpbDT r2 r1 c w1 n w => 0x27#6 ++ r2 ++ r1 ++ c ++ w1 ++ n ++ w
  | .cmpbDF r2 r1 c w1 n w => 0x2F#6 ++ r2 ++ r1 ++ c ++ w1 ++ n ++ w
  | .cmpibT r im5 c w1 n w => 0x21#6 ++ r ++ im5 ++ c ++ w1 ++ n ++ w
  | .cmpibF r im5 c w1 n w => 0x23#6 ++ r ++ im5 ++ c ++ w1 ++ n ++ w
  | .cmpibD r im5 c w1 n w => 0x3B#6 ++ r ++ im5 ++ c ++ w1 ++ n ++ w
  | .movb r2 r1 c w1 n w => 0x32#6 ++ r2 ++ r1 ++ c ++ w1 ++ n ++ w
  | .movib r im5 c w1 n w => 0x33#6 ++ r ++ im5 ++ c ++ w1 ++ n ++ w
  | .bbFixed p r c d w1 n w => 0x31#6 ++ p ++ r ++ c ++ 0x1#1 ++ d ++ w1 ++ n ++ w
  | .bbSar r c d w1 n w => 0x600#11 ++ r ++ c ++ 0x1#1 ++ d ++ w1 ++ n ++ w
  | .add r2 r1 c f d t => 0x2#6 ++ r2 ++ r1 ++ c ++ f ++ 0x18#6 ++ d ++ t
  | .addC r2 r1 c f d t => 0x2#6 ++ r2 ++ r1 ++ c ++ f ++ 0x1C#6 ++ d ++ t
  | .addL r2 r1 c f d t => 0x2#6 ++ r2 ++ r1 ++ c ++ f ++ 0x28#6 ++ d ++ t
  | .addTsv r2 r1 c f d t => 0x2#6 ++ r2 ++ r1 ++ c ++ f ++ 0x38#6 ++ d ++ t
  | .addCTsv r2 r1 c f d t => 0x2#6 ++ r2 ++ r1 ++ c ++ f ++ 0x3C#6 ++ d ++ t
  | .sub r2 r1 c f d t => 0x2#6 ++ r2 ++ r1 ++ c ++ f ++ 0x10#6 ++ d ++ t
  | .subTc r2 r1 c f d t => 0x2#6 ++ r2 ++ r1 ++ c ++ f ++ 0x13#6 ++ d ++ t
  | .subB r2 r1 c f d t => 0x2#6 ++ r2 ++ r1 ++ c ++ f ++ 0x14#6 ++ d ++ t
  | .subTsv r2 r1 c f d t => 0x2#6 ++ r2 ++ r1 ++ c ++ f ++ 0x30#6 ++ d ++ t
  | .subTsvTc r2 r1 c f d t => 0x2#6 ++ r2 ++ r1 ++ c ++ f ++ 0x33#6 ++ d ++ t
  | .subBTsv r2 r1 c f d t => 0x2#6 ++ r2 ++ r1 ++ c ++ f ++ 0x34#6 ++ d ++ t
  | .and r2 r1 c f d t => 0x2#6 ++ r2 ++ r1 ++ c ++ f ++ 0x8#6 ++ d ++ t
  | .andcm r2 r1 c f d t => 0x2#6 ++ r2 ++ r1 ++ c ++ f ++ 0x0#6 ++ d ++ t
  | .or r2 r1 c f d t => 0x2#6 ++ r2 ++ r1 ++ c ++ f ++ 0x9#6 ++ d ++ t
  | .xor r2 r1 c f d t => 0x2#6 ++ r2 ++ r1 ++ c ++ f ++ 0xA#6 ++ d ++ t
  | .cmpclr r2 r1 c f d t => 0x2#6 ++ r2 ++ r1 ++ c ++ f ++ 0x22#6 ++ d ++ t
  | .uxor r2 r1 c f d t => 0x2#6 ++ r2 ++ r1 ++ c ++ f ++ 0xE#6 ++ d ++ t
  | .uaddcm r2 r1 c f d t => 0x2#6 ++ r2 ++ r1 ++ c ++ f ++ 0x26#6 ++ d ++ t
  | .uaddcmTc r2 r1 c f d t => 0x2#6 ++ r2 ++ r1 ++ c ++ f ++ 0x27#6 ++ d ++ t
  | .shladd r2 r1 c f sa d t => 0x2#6 ++ r2 ++ r1 ++ c ++ f ++ 0x6#4 ++ sa ++ d ++ t
  | .shladdL r2 r1 c f sa d t => 0x2#6 ++ r2 ++ r1 ++ c ++ f ++ 0xA#4 ++ sa ++ d ++ t
  | .shladdTsv r2 r1 c f sa d t => 0x2#6 ++ r2 ++ r1 ++ c ++ f ++ 0xE#4 ++ sa ++ d ++ t
  | .ds r2 r1 c f t => 0x2#6 ++ r2 ++ r1 ++ c ++ f ++ 0x22#7 ++ t
  | .dcor r c f d t => 0x2#6 ++ r ++ 0x0#5 ++ c ++ f ++ 0x2E#6 ++ d ++ t
  | .dcorI r c f d t => 0x2#6 ++ r ++ 0x0#5 ++ c ++ f ++ 0x2F#6 ++ d ++ t
  | .addi r t c f e1 im11 => 0x2D#6 ++ r ++ t ++ c ++ f ++ e1 ++ im11
  | .addiTc r t c f e1 im11 => 0x2C#6 ++ r ++ t ++ c ++ f ++ e1 ++ im11
  | .subi r t c f e1 im11 => 0x25#6 ++ r ++ t ++ c ++ f ++ e1 ++ im11
  | .cmpiclr r t c f d im11 => 0x24#6 ++ r ++ t ++ c ++ f ++ d ++ im11
  | .shrpwSar r2 r1 c t => 0x34#6 ++ r2 ++ r1 ++ c ++ 0x0#8 ++ t
  | .shrpdSar r2 r1 c t => 0x34#6 ++ r2 ++ r1 ++ c ++ 0x10#8 ++ t
  | .shrpwFixed r2 r1 c cpos t => 0x34#6 ++ r2 ++ r1 ++ c ++ 0x2#3 ++ cpos ++ t
  | .shrpdFixed r2 r1 c cp cpos t => 0x34#6 ++ r2 ++ r1 ++ c ++ 0x0#1 ++ cp ++ 0x1#1 ++ cpos ++ t
  | .extrwSar r t c se clen => 0x34#6 ++ r ++ t ++ c ++ 0x2#2 ++ se ++ 0x0#5 ++ clen
  | .extrdSar r t c se cl clen => 0x34#6 ++ r ++ t ++ c ++ 0x2#2 ++ se ++ 0x1#1 ++ cl ++ 0x0#3 ++ clen
  | .extrwFixed r t c se pos clen => 0x34#6 ++ r ++ t ++ c ++ 0x3#2 ++ se ++ pos ++ clen
  | .extrdFixed r t c cl p se pos clen => 0x36#6 ++ r ++ t ++ c ++ cl ++ p ++ se ++ pos ++ clen
  | .depwSar t r c nz clen => 0x35#6 ++ t ++ r ++ c ++ 0x0#2 ++ nz ++ 0x0#5 ++ clen
  | .depdSar t r c nz cl clen => 0x35#6 ++ t ++ r ++ c ++ 0x0#2 ++ nz ++ 0x1#1 ++ cl ++ 0x0#3 ++ clen
  | .depwFixed t r c nz cpos clen => 0x35#6 ++ t ++ r ++ c ++ 0x1#2 ++ nz ++ cpos ++ clen
  | .depwiSar t im5 c nz clen => 0x35#6 ++ t ++ im5 ++ c ++ 0x2#2 ++ nz ++ 0x0#5 ++ clen
  | .depdiSar t im5 c nz cl clen => 0x35#6 ++ t ++ im5 ++ c ++ 0x2#2 ++ nz ++ 0x1#1 ++ cl ++ 0x0#3 ++ clen
  | .depwiFixed t im5 c nz cpos clen => 0x35#6 ++ t ++ im5 ++ c ++ 0x3#2 ++ nz ++ cpos ++ clen
  | .depdFixed t r c cl cp nz cpos clen => 0x3C#6 ++ t ++ r ++ c ++ cl ++ cp ++ nz ++ cpos ++ clen
  | .depdiFixed t im5 c cl cp nz cpos clen => 0x3D#6 ++ t ++ im5 ++ c ++ cl ++ cp ++ nz ++ cpos ++ clen
  | .hadd r2 r1 t => 0x2#6 ++ r2 ++ r1 ++ 0x1E#11 ++ t
  | .haddSs r2 r1 t => 0x2#6 ++ r2 ++ r1 ++ 0x1A#11 ++ t
  | .haddUs r2 r1 t => 0x2#6 ++ r2 ++ r1 ++ 0x18#11 ++ t
  | .hsub r2 r1 t => 0x2#6 ++ r2 ++ r1 ++ 0xE#11 ++ t
  | .hsubSs r2 r1 t => 0x2#6 ++ r2 ++ r1 ++ 0xA#11 ++ t
  | .hsubUs r2 r1 t => 0x2#6 ++ r2 ++ r1 ++ 0x8#11 ++ t
  | .havg r2 r1 t => 0x2#6 ++ r2 ++ r1 ++ 0x16#11 ++ t
  | .hshladd r2 r1 sa t => 0x2#6 ++ r2 ++ r1 ++ 0x7#8 ++ sa ++ 0x0#1 ++ t
  | .hshradd r2 r1 sa t => 0x2#6 ++ r2 ++ r1 ++ 0x5#8 ++ sa ++ 0x0#1 ++ t
  | .hshl r sa t => 0x7C0#11 ++ r ++ 0x22#6 ++ sa ++ 0x0#1 ++ t
  | .hshrU r sa t => 0x3E#6 ++ r ++ 0x32#11 ++ sa ++ 0x0#1 ++ t
  | .hshrS r sa t => 0x3E#6 ++ r ++ 0x33#11 ++ sa ++ 0x0#1 ++ t
  | .mixhL r2 r1 t => 0x3E#6 ++ r2 ++ r1 ++ 0x420#11 ++ t
  | .mixhR r2 r1 t => 0x3E#6 ++ r2 ++ r1 ++ 0x620#11 ++ t
  | .mixwL r2 r1 t => 0x3E#6 ++ r2 ++ r1 ++ 0x400#11 ++ t
  | .mixwR r2 r1 t => 0x3E#6 ++ r2 ++ r1 ++ 0x600#11 ++ t
  | .permh r rb c0 c1 c2 c3 t => 0x3E#6 ++ r ++ rb ++ 0x0#1 ++ c0 ++ 0x0#1 ++ c1 ++ c2 ++ c3 ++ 0x0#1 ++ t
  | .brk im13 im5 => 0x0#6 ++ im13 ++ 0x0#8 ++ im5
  | .ssm iv t => 0x0#6 ++ iv ++ 0x6B#11 ++ t
  | .rsm iv t => 0x0#6 ++ iv ++ 0x73#11 ++ t
  | .mtsm r => 0x0#11 ++ r ++ 0x1860#16
  | .ldsid b sr t => 0x0#6 ++ b ++ 0x0#5 ++ sr ++ 0x85#9 ++ t
  | .mtsp r sr => 0x0#11 ++ r ++ sr ++ 0x1820#13
  | .mfsp sr t => 0x0#16 ++ sr ++ 0x25#8 ++ t
  | .mtctl t r => 0x0#6 ++ t ++ r ++ 0x1840#16
  | .mtsarcm r => 0xB#11 ++ r ++ 0x18C0#16
  | .mfctl r e t => 0x0#6 ++ r ++ 0x0#6 ++ e ++ 0x45#9 ++ t
  | .mfia t => 0xA5#27 ++ t
  | .diag im26 => 0x5#6 ++ im26
  | .iitlbt r2 r1 => 0x1#6 ++ r2 ++ r1 ++ 0x800#16
  | .pitlb b x sr m => 0x1#6 ++ b ++ x ++ sr ++ 0x8#7 ++ m ++ 0x0#5
  | .pitlbL b x sr m => 0x1#6 ++ b ++ x ++ sr ++ 0x18#7 ++ m ++ 0x0#5
  | .pitlbe b x sr m => 0x1#6 ++ b ++ x ++ sr ++ 0x9#7 ++ m ++ 0x0#5
  | .ficExplicit b x sr m => 0x1#6 ++ b ++ x ++ sr ++ 0xA#7 ++ m ++ 0x0#5
  | .fice b x sr m => 0x1#6 ++ b ++ x ++ sr ++ 0xB#7 ++ m ++ 0x0#5
  | .idtlbt r2 r1 => 0x1#6 ++ r2 ++ r1 ++ 0x1800#16
  | .pdtlb b x sr m => 0x1#6 ++ b ++ x ++ sr ++ 0x48#8 ++ m ++ 0x0#5
  | .pdtlbL b x sr m => 0x1#6 ++ b ++ x ++ sr ++ 0x58#8 ++ m ++ 0x0#5
  | .pdtlbe b x sr m => 0x1#6 ++ b ++ x ++ sr ++ 0x49#8 ++ m ++ 0x0#5
  | .fdcIndexed b x sr m => 0x1#6 ++ b ++ x ++ sr ++ 0x4A#8 ++ m ++ 0x0#5
  | .fdcShort b im5 sr => 0x1#6 ++ b ++ im5 ++ sr ++ 0x3280#14
  | .fdce b x sr m => 0x1#6 ++ b ++ x ++ sr ++ 0x4B#8 ++ m ++ 0x0#5
  | .pdc b x sr m => 0x1#6 ++ b ++ x ++ sr ++ 0x4E#8 ++ m ++ 0x0#5
  | .ficImplicit b x sr m => 0x1#6 ++ b ++ x ++ sr ++ 0x4F#8 ++ m ++ 0x0#5
  | .probeR b r sr t => 0x1#6 ++ b ++ r ++ sr ++ 0x8C#9 ++ t
  | .probeW b r sr t => 0x1#6 ++ b ++ r ++ sr ++ 0x8E#9 ++ t
  | .probeiR b iv sr t => 0x1#6 ++ b ++ iv ++ sr ++ 0x18C#9 ++ t
  | .probeiW b iv sr t => 0x1#6 ++ b ++ iv ++ sr ++ 0x18E#9 ++ t
  | .lpa b x sr m t => 0x1#6 ++ b ++ x ++ sr ++ 0x4D#8 ++ m ++ t
  | .lci b x sr t => 0x1#6 ++ b ++ x ++ sr ++ 0x98#9 ++ t
  | .spop0 sop1 sfu n sop2 => 0x4#6 ++ sop1 ++ 0x0#2 ++ sfu ++ n ++ sop2
  | .spop1 sop sfu n t => 0x4#6 ++ sop ++ 0x1#2 ++ sfu ++ n ++ t
  | .spop2 r sop1 sfu n sop2 => 0x4#6 ++ r ++ sop1 ++ 0x2#2 ++ sfu ++ n ++ sop2
  | .spop3 r2 r1 sop1 sfu n sop2 => 0x4#6 ++ r2 ++ r1 ++ sop1 ++ 0x3#2 ++ sfu ++ n ++ sop2
  | .pmdis n => 0xC0000A#26 ++ n ++ 0x0#5
  | .copr1 sop1 n sop2 => 0xC#6 ++ sop1 ++ 0x1#3 ++ n ++ sop2
  | .copr3 sop1 n sop2 => 0xC#6 ++ sop1 ++ 0x3#3 ++ n ++ sop2
  | .copr4to7 sop1 uidlo n sop2 => 0xC#6 ++ sop1 ++ 0x1#1 ++ uidlo ++ n ++ sop2
  | .cldwIndexed2 b x sr u cc uidlo m t => 0x9#6 ++ b ++ x ++ sr ++ u ++ 0x0#1 ++ cc ++ 0x1#3 ++ uidlo ++ m ++ t
  | .cldwShort2 b im5 sr a cc uidlo m t => 0x9#6 ++ b ++ im5 ++ sr ++ a ++ 0x1#1 ++ cc ++ 0x1#3 ++ uidlo ++ m ++ t
  | .cldwIndexed4 b x sr u cc uidlo m t => 0x9#6 ++ b ++ x ++ sr ++ u ++ 0x0#1 ++ cc ++ 0x1#2 ++ uidlo ++ m ++ t
  | .cldwShort4 b im5 sr a cc uidlo m t => 0x9#6 ++ b ++ im5 ++ sr ++ a ++ 0x1#1 ++ cc ++ 0x1#2 ++ uidlo ++ m ++ t
  | .cstwIndexed2 b x sr u cc uidlo m r => 0x9#6 ++ b ++ x ++ sr ++ u ++ 0x0#1 ++ cc ++ 0x5#3 ++ uidlo ++ m ++ r
  | .cstwShort2 b im5 sr a cc uidlo m r => 0x9#6 ++ b ++ im5 ++ sr ++ a ++ 0x1#1 ++ cc ++ 0x5#3 ++ uidlo ++ m ++ r
  | .cstwIndexed4 b x sr u cc uidlo m r => 0x9#6 ++ b ++ x ++ sr ++ u ++ 0x0#1 ++ cc ++ 0x3#2 ++ uidlo ++ m ++ r
  | .cstwShort4 b im5 sr a cc uidlo m r => 0x9#6 ++ b ++ im5 ++ sr ++ a ++ 0x1#1 ++ cc ++ 0x3#2 ++ uidlo ++ m ++ r
  | .clddIndexed2 b x sr u cc uidlo m t => 0xB#6 ++ b ++ x ++ sr ++ u ++ 0x0#1 ++ cc ++ 0x1#3 ++ uidlo ++ m ++ t
  | .clddShort2 b im5 sr a cc uidlo m t => 0xB#6 ++ b ++ im5 ++ sr ++ a ++ 0x1#1 ++ cc ++ 0x1#3 ++ uidlo ++ m ++ t
  | .clddIndexed4 b x sr u cc uidlo m t => 0xB#6 ++ b ++ x ++ sr ++ u ++ 0x0#1 ++ cc ++ 0x1#2 ++ uidlo ++ m ++ t
  | .clddShort4 b im5 sr a cc uidlo m t => 0xB#6 ++ b ++ im5 ++ sr ++ a ++ 0x1#1 ++ cc ++ 0x1#2 ++ uidlo ++ m ++ t
  | .cstdIndexed2 b x sr u cc uidlo m r => 0xB#6 ++ b ++ x ++ sr ++ u ++ 0x0#1 ++ cc ++ 0x5#3 ++ uidlo ++ m ++ r
  | .cstdShort2 b im5 sr a cc uidlo m r => 0xB#6 ++ b ++ im5 ++ sr ++ a ++ 0x1#1 ++ cc ++ 0x5#3 ++ uidlo ++ m ++ r
  | .cstdIndexed4 b x sr u cc uidlo m r => 0xB#6 ++ b ++ x ++ sr ++ u ++ 0x0#1 ++ cc ++ 0x3#2 ++ uidlo ++ m ++ r
  | .cstdShort4 b im5 sr a cc uidlo m r => 0xB#6 ++ b ++ im5 ++ sr ++ a ++ 0x1#1 ++ cc ++ 0x3#2 ++ uidlo ++ m ++ r
  | .fldwLong b t sr im11a h iv => 0x17#6 ++ b ++ t ++ sr ++ im11a ++ 0x0#1 ++ h ++ iv
  | .fldwLongMod b t sr im11a a h iv => 0x16#6 ++ b ++ t ++ sr ++ im11a ++ a ++ h ++ iv
  | .fldwShort b im5 sr a cc h m t => 0x9#6 ++ b ++ im5 ++ sr ++ a ++ 0x1#1 ++ cc ++ 0x0#3 ++ h ++ m ++ t
  | .fldwIndexed b x sr u cc h m t => 0x9#6 ++ b ++ x ++ sr ++ u ++ 0x0#1 ++ cc ++ 0x0#3 ++ h ++ m ++ t
  | .fstwLong b r sr im11a h iv => 0x1F#6 ++ b ++ r ++ sr ++ im11a ++ 0x0#1 ++ h ++ iv
  | .fstwLongMod b r sr im11a a h iv => 0x1E#6 ++ b ++ r ++ sr ++ im11a ++ a ++ h ++ iv
  | .fstwShort b im5 sr a cc h m r => 0x9#6 ++ b ++ im5 ++ sr ++ a ++ 0x1#1 ++ cc ++ 0x4#3 ++ h ++ m ++ r
  | .fstwIndexed b x sr u cc h m r => 0x9#6 ++ b ++ x ++ sr ++ u ++ 0x0#1 ++ cc ++ 0x4#3 ++ h ++ m ++ r
  | .flddLong b t sr im10a m a iv => 0x14#6 ++ b ++ t ++ sr ++ im10a ++ m ++ a ++ 0x1#1 ++ iv
  | .flddShort b im5 sr a cc m t => 0xB#6 ++ b ++ im5 ++ sr ++ a ++ 0x1#1 ++ cc ++ 0x0#4 ++ m ++ t
  | .flddIndexed b x sr u cc m t => 0xB#6 ++ b ++ x ++ sr ++ u ++ 0x0#1 ++ cc ++ 0x0#4 ++ m ++ t
  | .fstdLong b r sr im10a m a iv => 0x1C#6 ++ b ++ r ++ sr ++ im10a ++ m ++ a ++ 0x1#1 ++ iv
  | .fstdShort b im5 sr a cc m r => 0xB#6 ++ b ++ im5 ++ sr ++ a ++ 0x1#1 ++ cc ++ 0x8#4 ++ m ++ r
  | .fstdIndexed b x sr u cc m r => 0xB#6 ++ b ++ x ++ sr ++ u ++ 0x0#1 ++ cc ++ 0x8#4 ++ m ++ r
  | .fcpy r fmt t => 0xC#6 ++ r ++ 0x2#8 ++ fmt ++ 0x0#6 ++ t
  | .fcpyE r f rx tx t => 0xE#6 ++ r ++ 0x4#9 ++ f ++ 0x0#3 ++ rx ++ tx ++ 0x0#1 ++ t
  | .fabs r fmt t => 0xC#6 ++ r ++ 0x3#8 ++ fmt ++ 0x0#6 ++ t
  | .fabsE r f rx tx t => 0xE#6 ++ r ++ 0x6#9 ++ f ++ 0x0#3 ++ rx ++ tx ++ 0x0#1 ++ t
  | .fsqrt r fmt t => 0xC#6 ++ r ++ 0x4#8 ++ fmt ++ 0x0#6 ++ t
  | .fsqrtE r f rx tx t => 0xE#6 ++ r ++ 0x8#9 ++ f ++ 0x0#3 ++ rx ++ tx ++ 0x0#1 ++ t
  | .frnd r fmt t => 0xC#6 ++ r ++ 0x5#8 ++ fmt ++ 0x0#6 ++ t
  | .frndE r f rx tx t => 0xE#6 ++ r ++ 0xA#9 ++ f ++ 0x0#3 ++ rx ++ tx ++ 0x0#1 ++ t
  | .fneg r fmt t => 0xC#6 ++ r ++ 0x6#8 ++ fmt ++ 0x0#6 ++ t
  | .fnegE r f rx tx t => 0xE#6 ++ r ++ 0xC#9 ++ f ++ 0x0#3 ++ rx ++ tx ++ 0x0#1 ++ t
  | .fnegabs r fmt t => 0xC#6 ++ r ++ 0x7#8 ++ fmt ++ 0x0#6 ++ t
  | .fnegabsE r f rx tx t => 0xE#6 ++ r ++ 0xE#9 ++ f ++ 0x0#3 ++ rx ++ tx ++ 0x0#1 ++ t
  | .fcnvFF r df sf t => 0xC#6 ++ r ++ 0x0#6 ++ df ++ sf ++ 0x10#6 ++ t
  | .fcnvFFE r df sf rx tx t => 0xE#6 ++ r ++ 0x0#7 ++ df ++ 0x0#1 ++ sf ++ 0x2#3 ++ rx ++ tx ++ 0x0#1 ++ t
  | .fcnvXF r df sf t => 0xC#6 ++ r ++ 0x1#6 ++ df ++ sf ++ 0x10#6 ++ t
  | .fcnvXFE r df sf rx tx t => 0xE#6 ++ r ++ 0x2#7 ++ df ++ 0x0#1 ++ sf ++ 0x2#3 ++ rx ++ tx ++ 0x0#1 ++ t
  | .fcnvFX r df sf t => 0xC#6 ++ r ++ 0x2#6 ++ df ++ sf ++ 0x10#6 ++ t
  | .fcnvFXE r df sf rx tx t => 0xE#6 ++ r ++ 0x4#7 ++ df ++ 0x0#1 ++ sf ++ 0x2#3 ++ rx ++ tx ++ 0x0#1 ++ t
  | .fcnvFXT r df sf t => 0xC#6 ++ r ++ 0x3#6 ++ df ++ sf ++ 0x10#6 ++ t
  | .fcnvFXTE r df sf rx tx t => 0xE#6 ++ r ++ 0x6#7 ++ df ++ 0x0#1 ++ sf ++ 0x2#3 ++ rx ++ tx ++ 0x0#1 ++ t
  | .fcnvUF r df sf t => 0xC#6 ++ r ++ 0x5#6 ++ df ++ sf ++ 0x10#6 ++ t
  | .fcnvUFE r df sf rx tx t => 0xE#6 ++ r ++ 0xA#7 ++ df ++ 0x0#1 ++ sf ++ 0x2#3 ++ rx ++ tx ++ 0x0#1 ++ t
  | .fcnvFU r df sf t => 0xC#6 ++ r ++ 0x6#6 ++ df ++ sf ++ 0x10#6 ++ t
  | .fcnvFUE r df sf rx tx t => 0xE#6 ++ r ++ 0xC#7 ++ df ++ 0x0#1 ++ sf ++ 0x2#3 ++ rx ++ tx ++ 0x0#1 ++ t
  | .fcnvFUT r df sf t => 0xC#6 ++ r ++ 0x7#6 ++ df ++ sf ++ 0x10#6 ++ t
  | .fcnvFUTE r df sf rx tx t => 0xE#6 ++ r ++ 0xE#7 ++ df ++ 0x0#1 ++ sf ++ 0x2#3 ++ rx ++ tx ++ 0x0#1 ++ t
  | .fcmp r1 r2 y fmt c => 0xC#6 ++ r1 ++ r2 ++ y ++ fmt ++ 0x20#6 ++ c
  | .fcmpE r1 r2 y x2 f x1 c => 0xE#6 ++ r1 ++ r2 ++ y ++ x2 ++ f ++ 0x4#3 ++ x1 ++ 0x0#2 ++ c
  | .ftest y c => 0x3000#16 ++ y ++ 0x21#8 ++ c
  | .fadd r1 r2 fmt t => 0xC#6 ++ r1 ++ r2 ++ 0x0#3 ++ fmt ++ 0x30#6 ++ t
  | .faddE r1 r2 x2 f x1 tx t => 0xE#6 ++ r1 ++ r2 ++ 0x0#3 ++ x2 ++ f ++ 0x6#3 ++ x1 ++ tx ++ 0x0#1 ++ t
  | .fsub r1 r2 fmt t => 0xC#6 ++ r1 ++ r2 ++ 0x1#3 ++ fmt ++ 0x30#6 ++ t
  | .fsubE r1 r2 x2 f x1 tx t => 0xE#6 ++ r1 ++ r2 ++ 0x1#3 ++ x2 ++ f ++ 0x6#3 ++ x1 ++ tx ++ 0x0#1 ++ t
  | .fmpy r1 r2 fmt t => 0xC#6 ++ r1 ++ r2 ++ 0x2#3 ++ fmt ++ 0x30#6 ++ t
  | .fmpyE r1 r2 x2 f x1 tx t => 0xE#6 ++ r1 ++ r2 ++ 0x2#3 ++ x2 ++ f ++ 0x6#3 ++ x1 ++ tx ++ 0x0#1 ++ t
  | .fdiv r1 r2 fmt t => 0xC#6 ++ r1 ++ r2 ++ 0x3#3 ++ fmt ++ 0x30#6 ++ t
  | .fdivE r1 r2 x2 f x1 tx t => 0xE#6 ++ r1 ++ r2 ++ 0x3#3 ++ x2 ++ f ++ 0x6#3 ++ x1 ++ tx ++ 0x0#1 ++ t
  | .xmpyu r1 r2 x2 x1 t => 0xE#6 ++ r1 ++ r2 ++ 0x2#3 ++ x2 ++ 0x7#4 ++ x1 ++ 0x0#2 ++ t
  | .fmpyadd rm1 rm2 ta ra f tm => 0x6#6 ++ rm1 ++ rm2 ++ ta ++ ra ++ f ++ tm
  | .fmpysub rm1 rm2 ta ra f tm => 0x26#6 ++ rm1 ++ rm2 ++ ta ++ ra ++ f ++ tm
  | .fmpyfadd rm1 rm2 raHi x2 f raLo x1 tx t => 0x2E#6 ++ rm1 ++ rm2 ++ raHi ++ x2 ++ f ++ raLo ++ x1 ++ tx ++ 0x0#1 ++ t
  | .fmpynfadd rm1 rm2 raHi x2 f raLo x1 tx t => 0x2E#6 ++ rm1 ++ rm2 ++ raHi ++ x2 ++ f ++ raLo ++ x1 ++ tx ++ 0x1#1 ++ t
  | .pushnom => 0xE8004001#32
  | .clrbts => 0xE8004005#32
  | .sync => 0x400#32
  | .syncdma => 0x100400#32
  | .rfi => 0xC00#32
  | .rfiR => 0xCA0#32
  | .pmenb => 0x30000680#32
  | .fid => 0x30000000#32

end Sys2Proof
end

