-- ==== Sys2Proof/Machine/Fetched.lean ====
section
/-! DEFINITION. What surrounds the execution of a decoded instruction: the latch of its word, the words that decode to no
instruction, an instruction whose fetch fails, and a word placed where the next fetch reads. -/

namespace Sys2Proof.Machine

/-- The state with the fetched word latched, as IIR and the exception registers will record it (10_state.md R74; log entry 4). -/
def State.latch (s : State) (w : Word) : State := { s with iword := w }

/-- The doubleword address that an undefined opcode 0B word with uid 1 forms, by the fields of 48_assist_sfu_copr.md R766. -/
def State.undefinedEa (s : State) (w : Word) : Ea :=
  if w.extractLsb' 12 1 = 1#1 then s.shortEa (w.extractLsb' 21 5) (w.extractLsb' 16 5) (w.extractLsb' 14 2) (w.extractLsb' 13 1) (w.extractLsb' 5 1)
  else s.indexedEa (w.extractLsb' 21 5) (w.extractLsb' 16 5) (w.extractLsb' 14 2) (w.extractLsb' 13 1) (w.extractLsb' 5 1) 3

/-- An undefined floating-point word with the coprocessor off: the assist emulation trap, which for a load or store comes after the
reference's checks and names its address (R758, 60_exceptions.md R1037). -/
def State.emulateUndefined (s : State) (w : Word) : Res Done :=
  if w.extractLsb' 26 6 = 0x0B#6 then do
    let a ← (s.undefinedEa w).resolve s
    let _ ← s.check (if w.extractLsb' 9 1 = 1#1 then .store else .load) a 8
    .error (.trap .assistEmulation (.data a))
  else .error emulationTrap

/-- Why a rejected word does not execute: the illegal instruction trap (30_encoding.md R370, D11), after the configuration bits
of an assist's words (50_fp_instructions.md R878, R912); reserved floating-point sub-opcodes raise the assist exception trap
(51_fp_exceptions.md R946). -/
def State.rejectResult (s : State) (r : Reject) : Res Done :=
  match r with
  | .illegal => .error (trapInstr .illegalInstruction)
  | .fpUndefined =>
    if s.fpMixed then .error (.refuse .mixedFpEnable)
    else if s.fpOff then s.emulateUndefined s.iword
    else .error (trapInstr .illegalInstruction)
  | .fpReserved => do
    s.fpGate
    if Config.fpReservedOpIsUnimplemented then
      done s ((s.fpTrapped (if s.iword.extractLsb' 26 6 = 0x0C#6 then code0C else code0E)).fpDid .other) false
    else .error (trapInstr .assistException)
  | .pmUndefined =>
    if s.coprEnabled 2#3 then .error (trapInstr .illegalInstruction) else .error emulationTrap

/-- The outcome of a word that decodes to no instruction. -/
def rejected (r : Reject) (s : State) : Host.Outcome State Fault Refusal := complete s (s.rejectResult r)

/-- The outcome of an instruction that could not be fetched. -/
def unfetched (s : State) (e : Stop) : Host.Outcome State Fault Refusal := complete s (.error e)

/-- The state with `w` in memory where the current instruction is fetched, and with PSW[N] = 0 and no TLB removal coming so that it is
fetched. -/
def State.placeWord (s : State) (w : Word) : State :=
  match s.fetchPlace with
  | .ok pa =>
    { s with psw := withBit s.psw Psw.N false, removals := [], mem := s.mem.store (s.flag Psw.E) pa.toNat 4 (w.zeroExtend 64) }
  | .error _ => s

end Sys2Proof.Machine
end

