-- ==== Sys2Proof/Machine/Relied.lean ====
section
/-! DEFINITION. The TLB entries that the hardware removes on its own before a step (10_state.md R90), and the translations that it leaves
because software may rely on them (21_translation.md R275; 70_reset_and_hazards.md R1116). DESIGN CHOICE for the form, log entries 33 and 62. -/

namespace Sys2Proof.Machine

/-! ### What the step is about to do -/

/-- What a step is about to do with the current instruction. -/
inductive Coming where
  | executed (w : Word)
  | nullified (w : Word)
  /-- A pending interruption, or a fetch that fails. -/
  | none
deriving DecidableEq, Repr

/-- What the step is about to do, as the TLBs stand. -/
def State.coming (s : State) : Coming :=
  match pendingInterruption s, s.fetch with
  | .none, .ok w => if s.flag Psw.N then .nullified w else .executed w
  | _, _ => .none

/-- The virtual address of the current instruction. -/
def State.here (s : State) : BitVec 96 := s.gva s.iasqFront s.fetchOffset

/-- The major opcode of a word (30_encoding.md R301). -/
def majorOpcode (w : Word) : Nat := (w.extractLsb' 26 6).toNat

/-- The memory management instructions, major opcode 01 (R275). -/
def isMemoryManagement (w : Word) : Bool := majorOpcode w == 0x01

/-- DIAG, major opcode 05. -/
def isDiagnose (w : Word) : Bool := majorOpcode w == 0x05

/-- A word of the Branch Target Stack instructions, major opcode 3A with ext3 = 2 and bit {31} = 1: none of them is a branch (42_branch.md
section 4). -/
def isStackWord (w : Word) : Bool := majorOpcode w == 0x3A && w.extractLsb' 13 3 == 2#3 && w.getLsbD 0

/-- The branch instructions, by their major opcodes (42_branch.md). -/
def isBranch (w : Word) : Bool :=
  !(isStackWord w) && [0x20, 0x21, 0x22, 0x23, 0x27, 0x28, 0x29, 0x2A, 0x2B, 0x2F, 0x30, 0x31, 0x32, 0x33, 0x38, 0x39, 0x3A, 0x3B].contains (majorOpcode w)

/-- An undefined instruction. A reserved floating-point sub-opcode is none: it has a behaviour of its own (49_floating_point.md R837;
93_implementation_defined.md section 5). -/
def isUndefined (w : Word) : Bool :=
  match decode w with
  | .ok _ => false
  | .error .fpReserved => false
  | .error .illegal => true
  | .error .fpUndefined => true
  | .error .pmUndefined => true

/-- LPA, the one memory management instruction under which a data translation may still be relied upon (R275 1). -/
def isLpa (i : Instr) : Bool := match i with | .lpa .. => true | _ => false

/-! ### The data references of an instruction -/

/-- The address of an instruction's data reference: that of a load, a store, a semaphore, or a load or store of a coprocessor (21_translation.md
R266). The non-access references of R267, LPA's among them, are none. DEDUCED, log entry 62. -/
def State.dataReference (s : State) (i : Instr) : Option Ea :=
  match i with
  | .ldbLong b _ sr im14 => some (s.longEa b sr im14)
  | .ldhLong b _ sr im14 => some (s.longEa b sr im14)
  | .ldwLong b _ sr im14 => some (s.longEa b sr im14)
  | .ldwLongMod b _ sr im14 => some (s.longModifyEa b sr im14)
  | .stbLong b _ sr im14 => some (s.longEa b sr im14)
  | .sthLong b _ sr im14 => some (s.longEa b sr im14)
  | .stwLong b _ sr im14 => some (s.longEa b sr im14)
  | .stwLongMod b _ sr im14 => some (s.longModifyEa b sr im14)
  | .ldwLong11 b _ sr im11a iv => some (s.long11Ea b sr im11a iv)
  | .stwLong11 b _ sr im11a iv => some (s.long11Ea b sr im11a iv)
  | .lddLong b _ sr im10a m a iv => some (s.long10Ea b sr im10a m a iv)
  | .stdLong b _ sr im10a m a iv => some (s.long10Ea b sr im10a m a iv)
  | .ldbShort b im5 sr a _ m _ => some (s.shortEa b im5 sr a m)
  | .ldbIndexed b x sr u _ m _ => some (s.indexedEa b x sr u m 0)
  | .ldhShort b im5 sr a _ m _ => some (s.shortEa b im5 sr a m)
  | .ldhIndexed b x sr u _ m _ => some (s.indexedEa b x sr u m 1)
  | .ldwShort b im5 sr a _ m _ => some (s.shortEa b im5 sr a m)
  | .ldwIndexed b x sr u _ m _ => some (s.indexedEa b x sr u m 2)
  | .lddShort b im5 sr a _ m _ => some (s.shortEa b im5 sr a m)
  | .lddIndexed b x sr u _ m _ => some (s.indexedEa b x sr u m 3)
  | .ldcdShort b im5 sr a _ m _ => some (s.shortEa b im5 sr a m)
  | .ldcdIndexed b x sr u _ m _ => some (s.indexedEa b x sr u m 3)
  | .ldcwShort b im5 sr a _ m _ => some (s.shortEa b im5 sr a m)
  | .ldcwIndexed b x sr u _ m _ => some (s.indexedEa b x sr u m 3)
  | .stbShort b _ sr a _ m im5 => some (s.shortEa b im5 sr a m)
  | .sthShort b _ sr a _ m im5 => some (s.shortEa b im5 sr a m)
  | .stwShort b _ sr a _ m im5 => some (s.shortEa b im5 sr a m)
  | .stdShort b _ sr a _ m im5 => some (s.shortEa b im5 sr a m)
  | .stby b _ sr a _ m im5 => some (s.partialEa 4 b im5 sr a m)
  | .stdby b _ sr a _ m im5 => some (s.partialEa 8 b im5 sr a m)
  | .cldwIndexed2 b x sr u _ _ m _ => some (s.indexedEa b x sr u m 2)
  | .cldwShort2 b im5 sr a _ _ m _ => some (s.shortEa b im5 sr a m)
  | .cldwIndexed4 b x sr u _ _ m _ => some (s.indexedEa b x sr u m 2)
  | .cldwShort4 b im5 sr a _ _ m _ => some (s.shortEa b im5 sr a m)
  | .cstwIndexed2 b x sr u _ _ m _ => some (s.indexedEa b x sr u m 2)
  | .cstwShort2 b im5 sr a _ _ m _ => some (s.shortEa b im5 sr a m)
  | .cstwIndexed4 b x sr u _ _ m _ => some (s.indexedEa b x sr u m 2)
  | .cstwShort4 b im5 sr a _ _ m _ => some (s.shortEa b im5 sr a m)
  | .clddIndexed2 b x sr u _ _ m _ => some (s.indexedEa b x sr u m 3)
  | .clddShort2 b im5 sr a _ _ m _ => some (s.shortEa b im5 sr a m)
  | .clddIndexed4 b x sr u _ _ m _ => some (s.indexedEa b x sr u m 3)
  | .clddShort4 b im5 sr a _ _ m _ => some (s.shortEa b im5 sr a m)
  | .cstdIndexed2 b x sr u _ _ m _ => some (s.indexedEa b x sr u m 3)
  | .cstdShort2 b im5 sr a _ _ m _ => some (s.shortEa b im5 sr a m)
  | .cstdIndexed4 b x sr u _ _ m _ => some (s.indexedEa b x sr u m 3)
  | .cstdShort4 b im5 sr a _ _ m _ => some (s.shortEa b im5 sr a m)
  | .fldwLong b _ sr im11a _ iv => some (s.fpLongEa b sr im11a iv .none)
  | .fldwLongMod b _ sr im11a a _ iv => some (s.fpLongEa b sr im11a iv (longMod a))
  | .fldwShort b im5 sr a _ _ m _ => some (s.shortEa b im5 sr a m)
  | .fldwIndexed b x sr u _ _ m _ => some (s.indexedEa b x sr u m 2)
  | .fstwLong b _ sr im11a _ iv => some (s.fpLongEa b sr im11a iv .none)
  | .fstwLongMod b _ sr im11a a _ iv => some (s.fpLongEa b sr im11a iv (longMod a))
  | .fstwShort b im5 sr a _ _ m _ => some (s.shortEa b im5 sr a m)
  | .fstwIndexed b x sr u _ _ m _ => some (s.indexedEa b x sr u m 2)
  | .flddLong b _ sr im10a m a iv => some (s.long10Ea b sr im10a m a iv)
  | .flddShort b im5 sr a _ m _ => some (s.shortEa b im5 sr a m)
  | .flddIndexed b x sr u _ m _ => some (s.indexedEa b x sr u m 3)
  | .fstdLong b _ sr im10a m a iv => some (s.long10Ea b sr im10a m a iv)
  | .fstdShort b im5 sr a _ m _ => some (s.shortEa b im5 sr a m)
  | .fstdIndexed b x sr u _ m _ => some (s.indexedEa b x sr u m 3)
  | _ => none

/-- The address of an instruction's virtual data reference. -/
def State.virtualReference (s : State) (i : Instr) : Option Ea :=
  if s.flag Psw.D then s.dataReference i else none

/-- The page of `tlb` that holds `g` holds `g'`. -/
def onPage (tlb : List TlbEntry) (g g' : BitVec 96) : Bool :=
  match tlbLookup tlb g with
  | some e => e.covers g'
  | none => false

/-- The instruction makes no virtual data reference to another page than that of `g`. -/
def State.refersOnlyTo (s : State) (g : BitVec 96) (i : Instr) : Bool :=
  match s.virtualReference i with
  | none => true
  | some e =>
    match e.resolveVirtual s with
    | .ok a => onPage s.dtlb g (s.gva a.space a.offset)
    | .error _ => false

/-! ### How long a translation may be relied upon (R275) -/

/-- The data translation of `g` stays relied upon (R275 1): no instruction is fetched virtually, no reference goes to another page, and none
would have, had it not been nullified, and no memory management instruction but LPA, no DIAG and no undefined instruction executes. -/
def State.keepsData (s : State) (g : BitVec 96) : Bool :=
  !(s.flag Psw.C) &&
    match s.coming with
    | .none => false
    | .nullified w =>
      match decode w with
      | .ok i => s.refersOnlyTo g i
      | .error _ => true
    | .executed w =>
      match decode w with
      | .ok i => (!(isMemoryManagement w) || isLpa i) && !(isDiagnose w) && s.refersOnlyTo g i
      | .error _ => !(isUndefined w)

/-- The place of the current instruction on its page, in words, and the words of the page. -/
def State.wordOnPage (s : State) (e : TlbEntry) : Nat × Nat :=
  let words := 2 ^ (pageBits e.size - 2)
  ((s.fetchOffset.toNat / 4) % words, words)

/-- The eight words after the current instruction are on its page, and none of them is a branch, a memory management instruction, DIAG or
undefined (R275 2). -/
def State.quietAhead (s : State) : Bool :=
  match s.fetchEntry, s.fetchPlace with
  | some e, .ok pa =>
    decide ((s.wordOnPage e).1 + 8 < (s.wordOnPage e).2) &&
      (List.range 8).all fun k =>
        match s.loadAt (pa + 4 * BitVec.ofNat 64 (k + 1)) 4 with
        | .ok v =>
          let w : Word := v.extractLsb' 0 32
          !(isBranch w || isMemoryManagement w || isDiagnose w || isUndefined w)
        | .error _ => false
  | _, _ => false

/-- The current instruction is fetched virtually from the page of `g`. -/
def State.onCodePage (s : State) (g : BitVec 96) : Bool := s.flag Psw.C && onPage s.itlb g s.here

/-- A word that makes no virtual data reference, or would make none were it not nullified. -/
def State.refersToNothing (s : State) (w : Word) : Bool :=
  match decode w with
  | .ok i => (s.virtualReference i).isNone
  | .error _ => true

/-- The instruction translation of `g` stays relied upon (R275 2). -/
def State.keepsCode (s : State) (g : BitVec 96) : Bool :=
  s.onCodePage g &&
    match s.coming with
    | .none => false
    | .nullified w => s.refersToNothing w
    | .executed w => s.refersToNothing w && !(isMemoryManagement w) && !(isDiagnose w) && !(isUndefined w) && s.quietAhead

/-! ### How an instruction translation comes to be relied upon (R275 2) -/

/-- The PSW[Q] that SSM, RSM or MTSM leaves. -/
def State.leavesQ (s : State) (i : Instr) : Option Bool :=
  match i with
  | .ssm iv _ => some (s.flag Psw.Q || bitAt (maskImage iv) Psw.Q)
  | .rsm iv _ => some (s.flag Psw.Q && !(bitAt (maskImage iv) Psw.Q))
  | .mtsm r => some (bitAt (s.readGr r) Psw.Q)
  | _ => none

/-- The instruction about to execute is a system mask instruction, and leaves PSW[Q] so. -/
def State.comingQ (s : State) : Option Bool :=
  match s.coming with
  | .executed w => match decode w with | .ok i => s.leavesQ i | .error _ => none
  | _ => none

/-- The instruction about to execute clears PSW[Q] as R275 2 asks: at least 8 instructions after another system mask instruction, with no
memory management instruction, virtual data reference or other page between, and not within 8 instructions of a page boundary. -/
def State.opensCode (s : State) : Bool :=
  s.flag Psw.C && s.flag Psw.Q && s.comingQ == some false && s.quietAhead &&
    match s.fetchEntry, s.relied.between with
    | some e, some (n, p) => decide (7 ≤ n) && e.covers p && decide (8 ≤ (s.wordOnPage e).1)
    | _, _ => false

/-- The count of instructions since a system mask instruction, with the current one, nullified or not; it begins anew after the last such
instruction when the page changes (R275 2; log entry 62). -/
def State.nextBetween (s : State) : Option (Nat × BitVec 96) :=
  let counted (w : Word) : Option (Nat × BitVec 96) :=
    let first := if s.relied.mask then some (1, s.here) else none
    if !(s.flag Psw.C) || isMemoryManagement w || !(s.refersToNothing w) then none
    else
      match s.relied.between with
      | some (n, p) => if s.onCodePage p then some (n + 1, s.here) else first
      | none => first
  match s.coming with
  | .none => none
  | .nullified w => counted w
  | .executed w => counted w

/-- The instruction about to execute is a system mask instruction that leaves PSW[Q] alone. -/
def State.nextMask (s : State) : Bool := s.flag Psw.C && s.comingQ == some (s.flag Psw.Q)

/-! ### Between instructions -/

/-- The data translation still relied upon in the coming step. -/
def State.keptData (s : State) : Option (BitVec 96) := s.relied.data.filter fun g => s.keepsData g

/-- The instruction translation still relied upon in the coming step. -/
def State.keptCode (s : State) : Option (BitVec 96) := s.relied.code.filter fun g => s.keepsCode g

/-- A TLB without the entries the hardware removes, but for the one of `kept` (10_state.md R90; R275). -/
def removeEntries (now : List Removal) (instruction : Bool) (kept : Option (BitVec 96)) (tlb : List TlbEntry) : List TlbEntry :=
  tlb.filter fun e => !(now.any fun r => r.instruction == instruction && e.covers r.gva) || kept.any e.covers

/-- The hardware's own removals before a step (R90), and what may be relied upon after it (R275). -/
def State.passTime (s : State) : State :=
  let now := s.removals.headD []
  { s with
    itlb := removeEntries now true s.keptCode s.itlb
    dtlb := removeEntries now false s.keptData s.dtlb
    removals := s.removals.tail
    relied := ⟨s.keptData, if s.opensCode then some s.here else s.keptCode, s.nextBetween, s.nextMask⟩ }

end Sys2Proof.Machine
end

