-- ==== Sys2Proof/Machine/Step.lean ====
section
/-! DEFINITION. One step of the machine (60_exceptions.md R1003; 42_branch.md R472). -/

namespace Sys2Proof.Machine

/-- The fetched word `w` executed in `s`. -/
def executeWord (s : State) (w : Word) : Host.Outcome State Fault Refusal :=
  match decode w with
  | .ok i => exec i (s.latch w)
  | .error r => rejected r (s.latch w)

/-- The current instruction fetched, decoded and executed (R1003 step 3). -/
def executeCurrent (s : State) : Host.Outcome State Fault Refusal :=
  match s.fetch with
  | .ok w => executeWord s w
  | .error e => unfetched s e

/-- A pending interruption, a nullified instruction, or an instruction (R1003). -/
def stepNow (s : State) : Host.Outcome State Fault Refusal :=
  match pendingInterruption s with
  | some n => .next (takePending s n)
  | none => if s.flag Psw.N then nullified s else executeCurrent s

/-- One step, after the TLB removals that the hardware makes before it (10_state.md R90). -/
def step (s : State) : Host.Outcome State Fault Refusal := stepNow s.passTime

/-- The instruction word `w` stored where the next step fetches; every instruction is one word. -/
def State.withFetchWord (s : State) (_nbits w : Nat) : State := s.placeWord (BitVec.ofNat 32 w)

end Sys2Proof.Machine
end

