-- ==== Sys2Proof/Safety.lean ====
section
/-! DEFINITION. The words of the claims: an instruction that completes and what it leaves alone, a data reference that is
allowed, a floating-point unit that is ready, and the machine's invariant. -/

namespace Sys2Proof

open Machine

/-- The step from `s` answers a next state: the machine neither faults nor meets an operation the spec leaves undefined. -/
def goesOn (s : State) : Prop := ∃ t, step s = .next t

/-! ### An instruction that completes -/

/-- Nothing outside the instruction comes between it and its next state: the back of the queue does not end its space
(20_memory.md R159), and no group 4 trap is enabled (60_exceptions.md R1004). -/
def Plain (s : State) : Prop :=
  s.atEndOfSpace = false ∧ s.flag Psw.L = false ∧ s.flag Psw.H = false ∧ s.flag Psw.T = false

/-- The PSW bits every completed instruction settles: N, B, X, Y, Z (42_branch.md R472). -/
def statusBits : Dword := bitMask Psw.N ||| bitMask Psw.B ||| bitMask Psw.X ||| bitMask Psw.Y ||| bitMask Psw.Z

/-- The PSW bits of the carry/borrow field (10_state.md R57). -/
def carryBits : Dword := 0x000000FF0000FF00

/-- How `t` follows `s` when an instruction completes: the queues, N and B, the bits cleared, the recovery counter and the
interval timer (42_branch.md R470, R472; 10_state.md R62). That the timer advances by TIMER_RATE for each instruction is the decision of
60_exceptions.md R1055 (D1, log entry 22), not the source's; that Y and Z are cleared is D4 (log entry 19). -/
structure Ended (s t : State) (nullify taken : Bool) (offset space : Dword) : Prop where
  front : t.iaoqFront = s.iaoqBack
  frontSpace : t.iasqFront = s.iasqBack
  back : t.iaoqBack = offset
  backSpace : t.iasqBack = space
  nullifies : t.flag Psw.N = nullify
  branched : t.flag Psw.B = taken
  cleared : t.flag Psw.X = false ∧ t.flag Psw.Y = false ∧ t.flag Psw.Z = false
  recovery : t.rctr = if s.flag Psw.R then s.rctr - 1 else s.rctr
  timer : t.itmr = s.itmr + Config.timerRate

/-- Everything but the PSW, the queues, the recovery counter, the interval timer and the external interrupt requests is in
`t` what it is in `d`. -/
def AsIn (d t : State) : Prop :=
  t = { d with
    psw := t.psw, iaoqFront := t.iaoqFront, iaoqBack := t.iaoqBack, iasqFront := t.iasqFront, iasqBack := t.iasqBack
    rctr := t.rctr, itmr := t.itmr, eirr := t.eirr }

/-- The external interrupt requests of `t` are those of `d`, and the interval timer's when its count comes to the comparison register's value: bit
0 with PSW[W] = 1, bit 32 with PSW[W] = 0 (60_exceptions.md R1055). One count for each instruction is the decision D1, and that the PSW[W] of
`t` picks the bit is the model's choice (log entry 22). -/
def SameRequests (d t : State) : Prop :=
  t.eirr = if d.itmr.extractLsb' 0 32 + 1#32 = d.itmrCompare then d.eirr ||| (if t.flag Psw.W then bitMask 0 else bitMask 32) else d.eirr

/-- The PSW of `t` is that of `d` but for N, B, X, Y and Z. -/
def SamePsw (d t : State) : Prop := t.psw &&& ~~~statusBits = d.psw &&& ~~~statusBits

/-- The instruction completes from `s`: the state it leaves is that of `d`, and the next instruction is the one at the back of
the queue, nullified when `nullify` is true. -/
def Completes (i : Instr) (s d : State) (nullify : Bool) : Prop :=
  ∃ t, exec i s = .next t ∧ Ended s t nullify false (s.iaoqBack + 4) s.iasqBack ∧ AsIn d t ∧ SameRequests d t ∧ SamePsw d t

/-- The instruction completes as a taken branch to `offset` in `space`. -/
def BranchesTo (i : Instr) (s d : State) (nullify : Bool) (offset space : Dword) : Prop :=
  ∃ t, exec i s = .next t ∧ Ended s t nullify true offset space ∧ AsIn d t ∧ SameRequests d t ∧ SamePsw d t

/-- The instruction takes the interruption `n` and has no other effect (60_exceptions.md R1006). -/
def Traps (i : Instr) (s : State) (n : Interruption) (p : Params) : Prop := exec i s = .next (takeInterruption s n p)

/-- The instruction is a taken branch to `offset` in `space`; past the end of the space it is undefined (20_memory.md R159). `past`
is that the sum of base and displacement passes the end. -/
def BranchesWithin (i : Instr) (s d : State) (nullify : Bool) (past : Bool) (offset space : Dword) : Prop :=
  (past = false → BranchesTo i s d nullify offset space) ∧ (past = true → exec i s = .refused .endOfSpace)

/-- A conditional branch's two ends (42_branch.md R478): taken to IAOQ_Front + displacement + 8, with n nullifying the next
instruction when it is forward; not taken, with n nullifying it when it is backward. -/
def BranchesWhen (i : Instr) (s d : State) (disp : Dword) (n : BitVec 1) (cond : Bool) : Prop :=
  (cond = true → BranchesWithin i s d (isSet n && decide (0 ≤ disp.toInt)) (s.pastEnd s.iaoqFront disp 8) (s.iaoqFront + disp + 8)
    s.iasqBack) ∧
  (cond = false → Completes i s d (isSet n && decide (disp.toInt < 0)))

/-- An arithmetic instruction with traps: `ov` its signed overflow trap, `tc` its trap on condition; the overflow trap comes
first, and a trap leaves no result (43_computation.md R543 to R548). -/
def TrapsOrCompletes (i : Instr) (s d : State) (ov tc overflow cond : Bool) : Prop :=
  ((ov && overflow) = true → Traps i s .overflow .instr) ∧
  ((ov && overflow) = false → (tc && cond) = true → Traps i s .conditional .instr) ∧
  ((ov && overflow) = false → (tc && cond) = false → Completes i s d cond)

/-- A doubleword result in GR[t], and nullification by the condition on it (44_shift_extract_deposit.md R591). -/
def ShiftsTo (i : Instr) (s : State) (t : BitVec 5) (c : BitVec 3) (res : Dword) : Prop :=
  Completes i s (s.writeGr t res) (shiftCondition c true res)

/-- A word result in the low half of GR[t], whose upper half is a free value (44_shift_extract_deposit.md R591, R601 b). -/
def ShiftsToWord (i : Instr) (s : State) (t : BitVec 5) (c : BitVec 3) (res : Dword) : Prop :=
  Completes i s ((s.writeGr t ((s.free 0).extractLsb' 32 32 ++ res.extractLsb' 0 32)).drawn 1) (shiftCondition c false res)

/-- Four halfwords in GR[t] and nothing else (45_multimedia.md R620). -/
def LanesTo (i : Instr) (s : State) (t : BitVec 5) (f : Nat → BitVec 16) : Prop :=
  Completes i s (s.writeGr t (f 0 ++ f 1 ++ f 2 ++ f 3)) false

/-! ### Words that no instruction has -/

/-- The word is no instruction and takes the illegal instruction trap (30_encoding.md R370, D11). -/
def IllegalWord (s : State) (w : Word) : Prop :=
  decode w = .error .illegal ∧ executeWord s w = .next (takeInterruption (s.latch w) .illegalInstruction .instr)

/-- An undefined floating-point word (50_fp_instructions.md R878, R912; 49_floating_point.md R818), whose configuration bits are looked at first; one of
opcode 0B forms its address and takes its reference's interruptions before the emulation trap (60_exceptions.md R1037; log entry 39). -/
def UndefinedFpWord (s : State) (w : Word) : Prop :=
  decode w = .error .fpUndefined ∧
  (s.coprEnabled 0#3 ≠ s.coprEnabled 1#3 → executeWord s w = .refused .mixedFpEnable) ∧
  (s.coprEnabled 0#3 = true → s.coprEnabled 1#3 = true → executeWord s w = .next (takeInterruption (s.latch w) .illegalInstruction .instr)) ∧
  (s.coprEnabled 0#3 = false → s.coprEnabled 1#3 = false →
    (w >>> 26 ≠ 0x0B#32 → executeWord s w = .next (takeInterruption (s.latch w) .assistEmulation .instrUndefinedAddress)) ∧
    (∀ (k : RefKind) (a : DataAddr), w >>> 26 = 0x0B#32 → k = (if w.extractLsb' 9 1 = 1#1 then .store else .load) →
      ((s.latch w).undefinedEa w).resolve (s.latch w) = .ok a →
      (∀ p, (s.latch w).check k a 8 = .ok p → executeWord s w = .next (takeInterruption (s.latch w) .assistEmulation (.data a))) ∧
      (∀ i p, (s.latch w).check k a 8 = .error (.trap i p) → executeWord s w = .next (takeInterruption (s.latch w) i p))))

/-- A reserved floating-point word: the reserved-op exception is an immediate assist exception trap (51_fp_exceptions.md R946); what keeps an operation
from executing comes first (50_fp_instructions.md R878). -/
def ReservedFpWord (s : State) (w : Word) : Prop :=
  decode w = .error .fpReserved ∧
  (s.coprEnabled 0#3 ≠ s.coprEnabled 1#3 → executeWord s w = .refused .mixedFpEnable) ∧
  (s.coprEnabled 0#3 = false → s.coprEnabled 1#3 = false →
    executeWord s w = .next (takeInterruption (s.latch w) .assistEmulation .instrUndefinedAddress)) ∧
  (s.coprEnabled 0#3 = true → s.coprEnabled 1#3 = true → s.fpSequence ≠ .identified → s.fpTrap = true ∨ s.fpPending = false →
    executeWord s w = .next (takeInterruption (s.latch w) .assistException .instr))

/-- Part 1 of `assignedWords`. -/
def assignedWords1 : List (Word × List Word) := [
  (0xFC000000, [0x40000000, 0x44000000, 0x48000000, 0x4C000000, 0x60000000, 0x64000000, 0x68000000, 0x6C000000, 0x34000000, 0x20000000, 0x28000000, 0xE0000000,
    0xE4000000, 0xA0000000, 0xA8000000, 0xA4000000, 0xAC000000, 0x80000000, 0x88000000, 0x9C000000, 0xBC000000, 0x84000000, 0x8C000000, 0xEC000000,
    0xC8000000, 0xCC000000, 0xB4000000, 0xB0000000, 0x94000000, 0x90000000, 0xD8000000, 0xF0000000, 0xF4000000, 0x14000000, 0x58000000, 0x78000000,
    0x18000000, 0x98000000]),
  (0xFC000006, [0x5C000004, 0x7C000004]),
  (0xFC000002, [0x50000000, 0x70000000, 0x50000002, 0x70000002]),
  (0xFC0013C0, [0x0C001000, 0x0C000000, 0x0C001040, 0x0C000040, 0x0C001080, 0x0C000080, 0x0C0010C0, 0x0C0000C0, 0x0C001140, 0x0C000140, 0x0C0011C0, 0x0C0001C0,
    0x0C001200, 0x0C001240, 0x0C001280, 0x0C0012C0, 0x0C001300, 0x0C001340, 0x2C001000, 0x2C000000, 0x2C001200, 0x2C000200])]

/-- Part 2 of `assignedWords`. -/
def assignedWords2 : List (Word × List Word) := [
  (0xFC00D3C0, [0x0C001100, 0x0C000100, 0x0C001180, 0x0C000180, 0x0C001380, 0x0C0013C0]),
  (0xFC00E000, [0xE8000000, 0xE8002000, 0xE8008000, 0xE800A000]),
  (0xFFFFFFFF, [0xE8004001, 0xE8004005, 0x30000000]),
  (0xFFE0FFFF, [0xE8004001, 0x00001860]),
  (0xFFFFF007, [0xE8004005]),
  (0xFC00F001, [0xE8004000, 0xE800C000]),
  (0xFC1FF000, [0xE800D000, 0xE800F000]),
  (0xFC004000, [0xC4004000]),
  (0xFFE04000, [0xC0004000]),
  (0xFC000FC0, [0x08000600, 0x08000700, 0x08000A00, 0x08000E00, 0x08000F00, 0x08000400, 0x080004C0, 0x08000500, 0x08000C00, 0x08000CC0, 0x08000D00, 0x08000200,
    0x08000000, 0x08000240, 0x08000280, 0x08000880, 0x08000380, 0x08000980, 0x080009C0, 0x08000640, 0x08000680, 0x080006C0, 0x08000A40, 0x08000A80,
    0x08000AC0, 0x08000E40, 0x08000E80, 0x08000EC0]),
  (0xFC000FE0, [0x08000440]),
  (0xFC1F0FC0, [0x08000B80, 0x08000BC0]),
  (0xFC001FE0, [0xD0000000, 0xD0000200, 0x00000000]),
  (0xFC001C00, [0xD0000800]),
  (0xFC001400, [0xD0000400]),
  (0xFC001BE0, [0xD0001000, 0xD4000000, 0xD4001000]),
  (0xFC001AE0, [0xD0001200, 0xD4000200, 0xD4001200]),
  (0xFC001800, [0xD0001800, 0xD4000800, 0xD4001800])]

/-- Part 3 of `assignedWords`. -/
def assignedWords3 : List (Word × List Word) := [
  (0xFC00FFE0, [0x080003C0, 0x08000340, 0x08000300, 0x080001C0, 0x08000140, 0x08000100, 0x080002C0, 0x08000740, 0x08000780, 0x080007C0, 0x08000540, 0x08000580,
    0x080005C0, 0xF8008400, 0xF800C400, 0xF8008000, 0xF800C000, 0x00000D60, 0x00000E60]),
  (0xFFE0FC20, [0xF8008800]),
  (0xFC1FFC20, [0xF800C800, 0xF800CC00]),
  (0xFC009020, [0xF8000000]),
  (0xFC10FFFF, [0x00000400, 0x00100400]),
  (0xFC001FFF, [0x00000C00, 0x00000CA0, 0x00001820, 0x00001840]),
  (0xFC003FE0, [0x000010A0, 0x04003280, 0x04001180, 0x040011C0, 0x04003180, 0x040031C0, 0x04001300, 0x30000680]),
  (0xFC1F1FE0, [0x000004A0, 0x000008A0, 0x000014A0]),
  (0xFFE01FFF, [0x016018C0]),
  (0xFC00FFFF, [0x04000800, 0x04001800]),
  (0xFC001FC0, [0x04000200, 0x04000600, 0x04000240, 0x04000280, 0x040002C0]),
  (0xFC003FC0, [0x04001200, 0x04001600, 0x04001240, 0x04001280, 0x040012C0, 0x04001340, 0x30000280]),
  (0xFC003FDF, [0x04001380, 0x040013C0]),
  (0xFC000600, [0x10000000, 0x10000200, 0x10000400, 0x10000600]),
  (0xFC0001C0, [0x30000040, 0x300000C0]),
  (0xFC000100, [0x30000100])]

/-- Part 4 of `assignedWords`. -/
def assignedWords4 : List (Word × List Word) := [
  (0xFC001380, [0x24000080, 0x24001080, 0x24000280, 0x24001280, 0x2C000080, 0x2C001080, 0x2C000280, 0x2C001280, 0x24001000, 0x24000000, 0x24001200, 0x24000200]),
  (0xFC001300, [0x24000100, 0x24001100, 0x24000300, 0x24001300, 0x2C000100, 0x2C001100, 0x2C000300, 0x2C001300]),
  (0xFC000004, [0x5C000000, 0x7C000000]),
  (0xFC1FE7E0, [0x30004000, 0x30006000, 0x30008000, 0x3000A000, 0x3000C000, 0x3000E000]),
  (0xFC1FF720, [0x38004000, 0x38006000, 0x38008000, 0x3800A000, 0x3800C000, 0x3800E000]),
  (0xFC1F87E0, [0x30000200, 0x30008200, 0x30010200, 0x30018200, 0x30028200, 0x30030200, 0x30038200]),
  (0xFC1FD720, [0x38000200, 0x38008200, 0x38010200, 0x38018200, 0x38028200, 0x38030200, 0x38038200]),
  (0xFC0007E0, [0x30000400]),
  (0xFC000760, [0x38000400]),
  (0xFFFF1FE0, [0x30000420]),
  (0xFC00E7E0, [0x30000600, 0x30002600, 0x30004600, 0x30006600]),
  (0xFC00E720, [0x38000600, 0x38002600, 0x38004600, 0x38006600]),
  (0xFC00EF60, [0x38004700]),
  (0xFC000020, [0xB8000000, 0xB8000020])]

/-- The words of the rows of spec/opcode_table.json: under each mask, the bits that a word of a row has (30_encoding.md R371). -/
def assignedWords : List (Word × List Word) := assignedWords1 ++ assignedWords2 ++ assignedWords3 ++ assignedWords4

/-- The word matches a row of the table: its major opcode and extension are assigned, and its constant fields are as printed. -/
def Assigned (w : Word) : Prop := ∃ g ∈ assignedWords, w &&& g.1 ∈ g.2

/-- An undefined or reserved word of the performance monitor coprocessor, whose configuration bit is looked at first (48_assist_sfu_copr.md R770, R776;
93_implementation_defined.md section 5). -/
def UndefinedPmWord (s : State) (w : Word) : Prop :=
  decode w = .error .pmUndefined ∧
  (s.ccr.getMsbD 2 = true → executeWord s w = .next (takeInterruption (s.latch w) .illegalInstruction .instr)) ∧
  (s.ccr.getMsbD 2 = false → executeWord s w = .next (takeInterruption (s.latch w) .assistEmulation .instrUndefinedAddress))

/-! ### Data references -/

/-- The instruction takes what the check of its reference `e` of `n` bytes stops with, and does nothing else (21_translation.md R266). -/
def TakesCheck (k : RefKind) (n : Nat) (s : State) (e : Ea) (i : Instr) : Prop :=
  ∀ d, e.resolve s = .ok d →
    (∀ j q, s.check k d n = .error (.trap j q) → Traps i s j q) ∧ (∀ x, s.check k d n = .error (.refuse x) → exec i s = .refused x)

/-- The same of a semaphore, which is undefined off its 16 bytes before that (20_memory.md R146; log entry 30). -/
def TakesSemaphoreCheck (n : Nat) (s : State) (e : Ea) (i : Instr) : Prop :=
  ∀ d, e.resolve s = .ok d →
    ((s.usedOffset d.offset).toNat % 16 ≠ 0 → exec i s = .refused .unalignedSemaphore) ∧
    ((s.usedOffset d.offset).toNat % 16 = 0 →
      (∀ j q, s.check .semaphore d n = .error (.trap j q) → Traps i s j q) ∧
      (∀ x, s.check .semaphore d n = .error (.refuse x) → exec i s = .refused x))

/-- The reference `e` of `n` bytes is allowed in `s` and its first byte is the physical memory address `pa` (20_memory.md R150,
21_translation.md R266). -/
def Reaches (s : State) (k : RefKind) (e : Ea) (n pa : Nat) : Prop :=
  ∃ a p, e.resolve s = .ok a ∧ s.check k a n = .ok p ∧ region p.pa = .memory ∧ p.pa.toNat = pa

/-- The word reference `e` is allowed in `s` and is to IO_EIR, which lies in I/O space (60_exceptions.md R1058; log entry 48). -/
def ReachesIoEir (s : State) (e : Ea) : Prop :=
  ∃ a p, e.resolve s = .ok a ∧ s.check .store a 4 = .ok p ∧ region p.pa = .io ∧ p.pa = Config.ioEirAddress

/-- The state after a write of the word `v` to IO_EIR: it sets EIRR bit v mod 64, or 32 + (v mod 32) with the default width bit 0 (60_exceptions.md R1058,
D40). -/
def withIoEir (s : State) (v : BitVec 32) : State :=
  { s with eirr := s.eirr ||| bitMask (if s.defaultWidth then v.toNat % 64 else 32 + v.toNat % 32) }

/-- The byte at distance `k` from the address of an `n`-byte datum `v`, in the byte order of PSW[E] (20_memory.md R141, R143). -/
def byteOf (little : Bool) (n k : Nat) (v : Dword) : Byte :=
  BitVec.ofNat 8 (v.toNat >>> (8 * (if little then k else n - 1 - k)))

/-- The instruction completes as a store of the rightmost `n` bytes of `v` at `pa`, leaving all else as in `d`: the bytes are those
of `v`, and every other byte reads as before. -/
def Stores (i : Instr) (s d : State) (n pa : Nat) (v : Dword) : Prop :=
  ∃ t, exec i s = .next t ∧ Ended s t false false (s.iaoqBack + 4) s.iasqBack ∧ AsIn { d with mem := t.mem } t ∧
    SameRequests d t ∧ SamePsw d t ∧
    (∀ k, k < n → t.mem.get (pa + k) = byteOf (s.flag Psw.E) n k v) ∧
    (∀ b, (b < pa ∨ pa + n ≤ b) → t.mem.get b = s.mem.get b)

/-! ### Coprocessor loads and stores -/

/-- A coprocessor load (48_assist_sfu_copr.md R758, R767, R768): what it does with the unit's configuration bit 0, when the unit
reports an exception, when its reference is not allowed, and when the datum reaches CPR[unit][t]. -/
def CoprLoads (i : Instr) (s : State) (e : Ea) (unit : BitVec 3) (double : Bool) (t : BitVec 5) : Prop :=
  ∀ (pa : Nat) (c : Config.CoprTransfer), c = s.coprTransfer unit t false double →
    (s.coprEnabled unit = true → transferRaises c = true → (∃ a, e.resolve s = .ok a) → Traps i s .assistException .instr) ∧
    ((s.coprEnabled unit = true → transferRaises c = false) → TakesCheck .load (if double then 8 else 4) s e i) ∧
    (Reaches s .load e (if double then 8 else 4) pa →
      (s.coprEnabled unit = false → ∃ a, e.resolve s = .ok a ∧ Traps i s .assistEmulation (.data a)) ∧
      (s.coprEnabled unit = true → transferRaises c = false → Completes i s
        ((e.writeBack s).setCpr unit t
          (if double then s.mem.load (s.flag Psw.E) pa 8
            else Config.coprLoadWord c ((s.mem.load (s.flag Psw.E) pa 4).extractLsb' 0 32))) false))

/-- A coprocessor store (R758, R769, R774). -/
def CoprStores (i : Instr) (s : State) (e : Ea) (unit : BitVec 3) (double : Bool) (r : BitVec 5) : Prop :=
  ∀ (pa : Nat) (c : Config.CoprTransfer), c = s.coprTransfer unit r true double →
    (s.coprEnabled unit = true → transferRaises c = true → (∃ a, e.resolve s = .ok a) → Traps i s .assistException .instr) ∧
    ((s.coprEnabled unit = true → transferRaises c = false) → TakesCheck .store (if double then 8 else 4) s e i) ∧
    (Reaches s .store e (if double then 8 else 4) pa →
      (s.coprEnabled unit = false → ∃ a, e.resolve s = .ok a ∧ Traps i s .assistEmulation (.data a)) ∧
      (s.coprEnabled unit = true → transferRaises c = false →
        Stores i s (e.writeBack s) (if double then 8 else 4) pa
          (if double then c.value else (Config.coprStoreWord c).zeroExtend 64)))

/-! ### Floating point -/

/-- Both configuration bits are 1, no delayed trap is armed, the exception registers hold no exception, and the last floating-point
instruction was not FID (50_fp_instructions.md R878, R880). -/
def FpReady (s : State) : Prop :=
  s.coprEnabled 0#3 = true ∧ s.coprEnabled 1#3 = true ∧ s.fpTrap = false ∧ s.fpPending = false ∧ s.fpSequence ≠ .identified

/-- Both configuration bits are 1, no delayed trap is armed, and the last floating-point instruction was not FID
(50_fp_instructions.md R875, R880). -/
def FpOn (s : State) : Prop :=
  s.coprEnabled 0#3 = true ∧ s.coprEnabled 1#3 = true ∧ s.fpTrap = false ∧ s.fpSequence ≠ .identified

/-- When a floating-point load or store takes a trap or is undefined instead of its access (48_assist_sfu_copr.md R756, R758;
50_fp_instructions.md R875, R880): `cancels` says that it executes with T = 1 and after FID. -/
def FpReference (i : Instr) (s : State) (k : RefKind) (e : Ea) (n pa : Nat) (cancels : Bool) : Prop :=
  (s.coprEnabled 0#3 ≠ s.coprEnabled 1#3 → exec i s = .refused .mixedFpEnable) ∧
  (s.coprEnabled 0#3 = false → s.coprEnabled 1#3 = false → TakesCheck k n s e i ∧
    (Reaches s k e n pa → ∃ a, e.resolve s = .ok a ∧ Traps i s .assistEmulation (.data a))) ∧
  (s.coprEnabled 0#3 = true → s.coprEnabled 1#3 = true → cancels = false →
    (s.fpSequence = .identified → exec i s = .refused .fpIdentifyAlone) ∧
    (s.fpSequence ≠ .identified → s.fpTrap = true → Traps i s .assistException .instr))

/-- FLDW (50_fp_instructions.md R871): the word `w` to the half of FPR[t] that h names; undefined for 0R and the halves of the
exception registers, and for 0L when the word's T bit is 1. -/
def FpLoadsWord (i : Instr) (s : State) (e : Ea) (t : BitVec 5) (h : BitVec 1) : Prop :=
  ∀ (pa : Nat) (w : BitVec 32), w = (s.mem.load (s.flag Psw.E) pa 4).extractLsb' 0 32 →
    FpReference i s .load e 4 pa false ∧
    (FpOn s → 4 ≤ t.toNat ∨ (t = 0#5 ∧ h = 0#1) → TakesCheck .load 4 s e i) ∧
    (FpOn s → t.toNat < 4 → t ≠ 0#5 ∨ h = 1#1 → exec i s = .refused .fpExceptionWord) ∧
    (FpOn s → Reaches s .load e 4 pa → t = 0#5 → h = 0#1 → w.getMsbD 25 = true → exec i s = .refused .fpLoadOfTrapBit) ∧
    (FpOn s → Reaches s .load e 4 pa → 4 ≤ t.toNat ∨ (t = 0#5 ∧ h = 0#1 ∧ w.getMsbD 25 = false) →
      Completes i s (((e.writeBack s).writeFpr t
        (if h = 0#1 then w ++ (s.readFpr t).extractLsb' 0 32 else (s.readFpr t).extractLsb' 32 32 ++ w)).fpLoaded t false) false)

/-- FLDD (R872). -/
def FpLoadsDouble (i : Instr) (s : State) (e : Ea) (t : BitVec 5) : Prop :=
  ∀ pa : Nat, FpReference i s .load e 8 pa false ∧ (FpOn s → TakesCheck .load 8 s e i) ∧
    (FpOn s → Reaches s .load e 8 pa →
      Completes i s (((e.writeBack s).writeFpr t (s.mem.load (s.flag Psw.E) pa 8)).fpLoaded t true) false)

/-- FSTW (R873): of 0L the Status Register, its undefined bits any value (49_floating_point.md R829, R830). -/
def FpStoresWord (i : Instr) (s : State) (e : Ea) (r : BitVec 5) (h : BitVec 1) : Prop :=
  ∀ pa : Nat, FpReference i s .store e 4 pa false ∧
    (FpOn s → 4 ≤ r.toNat ∨ (r = 0#5 ∧ h = 0#1) → TakesCheck .store 4 s e i) ∧
    (FpOn s → r.toNat < 4 → r ≠ 0#5 ∨ h = 1#1 → exec i s = .refused .fpExceptionWord) ∧
    (FpOn s → Reaches s .store e 4 pa → 4 ≤ r.toNat →
      Stores i s ((e.writeBack s).fpDid .other) 4 pa
        ((if h = 0#1 then (s.readFpr r).extractLsb' 32 32 else (s.readFpr r).extractLsb' 0 32).zeroExtend 64)) ∧
    (FpOn s → Reaches s .store e 4 pa → r = 0#5 → h = 0#1 →
      Stores i s (((e.writeBack s).drawn 1).fpDid .other) 4 pa (((s.fpStored 0#5).extractLsb' 32 32).zeroExtend 64))

/-- FSTD (R874): of register 0 it executes with T = 1 too and clears T. -/
def FpStoresDouble (i : Instr) (s : State) (e : Ea) (r : BitVec 5) : Prop :=
  ∀ pa : Nat, FpReference i s .store e 8 pa (r = 0#5) ∧ (FpOn s → TakesCheck .store 8 s e i) ∧
    (s.coprEnabled 0#3 = true → s.coprEnabled 1#3 = true → r = 0#5 → TakesCheck .store 8 s e i) ∧
    (FpOn s → Reaches s .store e 8 pa → r ≠ 0#5 → Stores i s ((e.writeBack s).fpDid .other) 8 pa (s.readFpr r)) ∧
    (s.coprEnabled 0#3 = true → s.coprEnabled 1#3 = true → Reaches s .store e 8 pa → r = 0#5 →
      Stores i s ((((e.writeBack s).drawn 1).setFpTrap false).fpDid .stored) 8 pa (s.fpStored 0#5))

/-- A source operand the instructions define: not an exception register, and no extension bit but on a single word
(49_floating_point.md R805, R806). -/
def FpSource (r : FpReg) : Prop := (r.n = 0#5 ∨ 4 ≤ r.n.toNat) ∧ (r.size = .single ∨ r.h = 0#1)

/-- A destination operand the instructions define: a data register. -/
def FpDestination (r : FpReg) : Prop := 4 ≤ r.n.toNat ∧ (r.size = .single ∨ r.h = 0#1)

/-- Operands that are undefined and refused (49_floating_point.md R805, R806): an exception register as a source or register 0 to 3 as a destination, and an
extension bit on a doubleword (the decision D27; 10_state.md R81). Which of the two refusals an instruction with both takes is not said. -/
def FpRefuses (i : Instr) (s : State) (dests srcs : List FpReg) : Prop :=
  ∀ register bit : Prop, register = ((∃ x ∈ srcs, x.n ≠ 0#5 ∧ x.n.toNat < 4) ∨ ∃ x ∈ dests, x.n.toNat < 4) →
    bit = (∃ x ∈ dests ++ srcs, x.size ≠ .single ∧ x.h = 1#1) →
    (register → ¬bit → exec i s = .refused .fpRegister) ∧ (bit → ¬register → exec i s = .refused .fpExtensionBit) ∧
    (register → bit → exec i s = .refused .fpRegister ∨ exec i s = .refused .fpExtensionBit)

/-- A floating-point operation on operands without a quad delivers `r`, or is undefined by its operands; one with a quad is unimplemented
(51_fp_exceptions.md R947). -/
def FpCompletes (i : Instr) (s : State) (code : BitVec 6) (d : FpReg) (srcs : List FpReg) (r : Delivery) : Prop :=
  ((∃ x ∈ d :: srcs, x.size = .quad) → Completes i s ((s.fpDeliver code d srcs .unimplemented).fpDid .other) false) ∧
  ((∀ x ∈ d :: srcs, x.size ≠ .quad) → (∀ x ∈ srcs, FpSource x) → FpDestination d →
    Completes i s ((s.fpDeliver code d srcs r).fpDid .other) false) ∧
  ((∀ x ∈ d :: srcs, x.size ≠ .quad) → FpRefuses i s [d] srcs)

/-- A compare (50_fp_instructions.md R897): a trapped invalid operation and an unimplemented one leave C, CQ and CA; undefined operands are refused. -/
def FpCompares (i : Instr) (s : State) (code : BitVec 6) (r1 r2 : FpReg) (y : BitVec 3) (c : BitVec 5) : Prop :=
  (r1.size = .quad → Completes i s ((s.fpTrapped code).fpDid .other) false) ∧
  (r1.size ≠ .quad → FpRefuses i s [] [r1, r2]) ∧
  (∀ v, v = r1.size.fmt.compare (s.fpRead r1) (s.fpRead r2) c → r1.size ≠ .quad → FpSource r1 → FpSource r2 →
    (v.2 = true → s.fpEnv.traps fpV = true → Completes i s ((s.fpTrapped 0b100000#6).fpDid .other) false) ∧
    (v.2 = false ∨ s.fpEnv.traps fpV = false →
      Completes i s (((s.fpCompareResult y v.1).fpFlags (if v.2 then fpV else 0#5)).fpDid .other) false))

/-- The floating-point operations, COPR of unit 0 and the opcodes 06, 0E, 26 and 2E, which the coprocessor's state may keep from
executing (50_fp_instructions.md R878). -/
def isFpOperation (i : Instr) : Bool :=
  match i with
  | .fid | .fcpy .. | .fcpyE .. | .fabs .. | .fabsE .. | .fsqrt .. | .fsqrtE .. | .frnd .. | .frndE .. | .fneg .. | .fnegE ..
  | .fnegabs .. | .fnegabsE .. | .fcnvFF .. | .fcnvFFE .. | .fcnvXF .. | .fcnvXFE .. | .fcnvFX .. | .fcnvFXE .. | .fcnvFXT ..
  | .fcnvFXTE .. | .fcnvUF .. | .fcnvUFE .. | .fcnvFU .. | .fcnvFUE .. | .fcnvFUT .. | .fcnvFUTE .. | .fcmp .. | .fcmpE .. | .ftest ..
  | .fadd .. | .faddE .. | .fsub .. | .fsubE .. | .fmpy .. | .fmpyE .. | .fdiv .. | .fdivE .. | .xmpyu .. | .fmpyadd .. | .fmpysub ..
  | .fmpyfadd .. | .fmpynfadd .. => true
  | _ => false

/-- The pattern's value is the real number `v`, which is (-1)^neg · m · 2^e (49_floating_point.md R812). -/
def Denotes (x : FpVal) (v : ℝ) : Prop := ∃ (neg : Bool) (m : Nat) (e : Int), x = .fin neg m e ∧ v = (if neg then -1 else 1) * m * 2 ^ e

/-- k · 2^q with sign `neg` differs from the exact result `v` as the rounding mode `rm` allows (49_floating_point.md R850, R851). -/
def RoundedFrom (rm : BitVec 2) (v : ℝ) (neg : Bool) (k : Nat) (q : Int) : Prop :=
  (0 < v → neg = false) ∧ (v < 0 → neg = true) ∧
  (rm = 0#2 → abs (k * 2 ^ q - abs v) ≤ 2 ^ q / 2 ∧ (abs (k * 2 ^ q - abs v) = 2 ^ q / 2 → k % 2 = 0)) ∧
  (rm = 1#2 ∨ (rm = 2#2 ∧ v < 0) ∨ (rm = 3#2 ∧ 0 < v) → k * 2 ^ q ≤ abs v ∧ abs v < (k + 1) * 2 ^ q) ∧
  ((rm = 2#2 ∧ 0 < v) ∨ (rm = 3#2 ∧ v < 0) → (k - 1) * 2 ^ q < abs v ∧ abs v ≤ k * 2 ^ q)

/-- The rounding of the exact result `v` that the delivery `r` makes in the mode `rm`: a value delivered without overflow is k · 2^q with the
sign of `v`, it differs from `v` as the mode allows, and the inexact flag says whether it differs. -/
def Rounds (f : Fmt) (rm : BitVec 2) (v : ℝ) (r : Delivery) : Prop :=
  ∀ (bits : Nat) (x : BitVec 5), r = .value bits x → x &&& fpO = 0#5 →
    ∃ (neg : Bool) (k : Nat) (q : Int), f.value bits = .fin neg k q ∧ RoundedFrom rm v neg k q ∧ (x &&& fpI ≠ 0#5 ↔ (k : ℝ) * 2 ^ q ≠ abs v)

/-- The exact results that overflow the format (51_fp_exceptions.md R954, Table 10-7). -/
def Overflows (f : Fmt) (rm : BitVec 2) (v : ℝ) : Prop :=
  (rm = 0#2 ∧ 2 ^ f.emax * (2 - 2 ^ (-(f.p : Int))) ≤ abs v) ∨ (rm = 1#2 ∧ 2 ^ (f.emax + 1) ≤ abs v) ∨
  (rm = 2#2 ∧ (2 ^ f.emax * (2 - 2 ^ (1 - (f.p : Int))) < v ∨ v ≤ -(2 ^ (f.emax + 1)))) ∨
  (rm = 3#2 ∧ (2 ^ (f.emax + 1) ≤ v ∨ v < -(2 ^ f.emax * (2 - 2 ^ (1 - (f.p : Int))))))

/-- The exact results that are tiny (51_fp_exceptions.md R955, Table 10-8). -/
def Tiny (f : Fmt) (rm : BitVec 2) (v : ℝ) : Prop :=
  v ≠ 0 ∧
  ((rm = 0#2 ∧ abs v < 2 ^ f.emin * (1 - 2 ^ (-(f.p : Int) - 1))) ∨ (rm = 1#2 ∧ abs v < 2 ^ f.emin) ∨
   (rm = 2#2 ∧ -(2 ^ f.emin) < v ∧ v ≤ 2 ^ f.emin * (1 - 2 ^ (-(f.p : Int)))) ∨
   (rm = 3#2 ∧ -(2 ^ f.emin * (1 - 2 ^ (-(f.p : Int)))) ≤ v ∧ v < 2 ^ f.emin))

/-- A pattern of the format: the infinity of sign `neg`. -/
def IsInfinity (f : Fmt) (neg : Bool) (bits : Nat) : Prop := bits < 2 ^ (f.p + f.ew) ∧ f.value bits = .inf neg

/-- A pattern of the format: the zero of sign `neg`. -/
def IsZero (f : Fmt) (neg : Bool) (bits : Nat) : Prop := bits < 2 ^ (f.p + f.ew) ∧ ∃ e, f.value bits = .fin neg 0 e

/-- A pattern of the format: its largest number, of sign `neg`. -/
def IsLargest (f : Fmt) (neg : Bool) (bits : Nat) : Prop :=
  bits < 2 ^ (f.p + f.ew) ∧ ∃ (k : Nat) (q : Int), f.value bits = .fin neg k q ∧ (k : ℝ) * 2 ^ q = 2 ^ f.emax * (2 - 2 ^ (1 - (f.p : Int)))

/-- The untrapped result of an overflow of sign `neg` (51_fp_exceptions.md R954, the list). -/
def IsOverflow (f : Fmt) (rm : BitVec 2) (neg : Bool) (bits : Nat) : Prop :=
  (rm = 0#2 ∨ (rm = 2#2 ∧ neg = false) ∨ (rm = 3#2 ∧ neg = true) → IsInfinity f neg bits) ∧
  (rm = 1#2 ∨ (rm = 2#2 ∧ neg = true) ∨ (rm = 3#2 ∧ neg = false) → IsLargest f neg bits)

/-- How the delivery `r` of the exact result `v` reports overflow and underflow (51_fp_exceptions.md R953 to R956); `arith` for an operation that is no
conversion, whose trapped results are bias-adjusted. -/
def Delivers (f : Fmt) (env : FpEnv) (arith : Bool) (v : ℝ) (r : Delivery) : Prop :=
  (Overflows f env.rm v →
    (env.traps fpO = false → ∃ bits, IsOverflow f env.rm (decide (v < 0)) bits ∧
      r = (if env.traps fpI then .trapped 0b000010#6 (some bits) fpO else .value bits (fpO ||| fpI))) ∧
    (env.traps fpO = true → (∀ bits x, r ≠ .value bits x) ∧
      (arith = true → ∃ c bits x, r = .trapped c (some bits) x ∧ (c = 0b001000#6 ∨ (c = 0b001010#6 ∧ env.traps fpI = true)) ∧
        ∃ neg k q, f.value bits = .fin neg k q ∧ RoundedFrom env.rm (v / 2 ^ f.adjust) neg k q))) ∧
  (¬Overflows f env.rm v →
    (∀ bits x, r = .value bits x → x &&& (fpV ||| fpZ ||| fpO) = 0#5 ∧ (x &&& fpU ≠ 0#5 ↔ Tiny f env.rm v ∧ x &&& fpI ≠ 0#5)) ∧
    (env.traps fpI = false → env.traps fpU = false → ∃ bits x, r = .value bits x) ∧
    (Tiny f env.rm v → env.traps fpU = true → (∀ bits x, r ≠ .value bits x) ∧
      (arith = true → ∃ c bits x, r = .trapped c (some bits) x ∧ c.extractLsb' 2 2 = 0b01#2 ∧
        ∃ neg k q, f.value bits = .fin neg k q ∧ RoundedFrom env.rm (v * 2 ^ f.adjust) neg k q)))

/-- A signaling NaN (49_floating_point.md R813). -/
def IsSignaling (f : Fmt) (w : Nat) : Prop := f.value w = .nan ∧ (f.fraction w).testBit (f.p - 2) = true

/-- `q` is the quiet NaN that the signaling NaN `w` is converted to: the first fraction bit 0, the second set if no other is or by the implementation's
option, the others and the sign copied (49_floating_point.md R854, item 2). -/
def Quiets (f : Fmt) (w q : Nat) : Prop :=
  q < 2 ^ (f.p + f.ew) ∧ f.value q = .nan ∧ f.negative q = f.negative w ∧ (f.fraction q).testBit (f.p - 2) = false ∧
  (f.fraction q).testBit (f.p - 3) = ((f.fraction w).testBit (f.p - 3) || decide (f.fraction w % 2 ^ (f.p - 2) = 0) || Config.fpQuietSetsB2) ∧
  ∀ i < f.p - 3, (f.fraction q).testBit i = (f.fraction w).testBit i

/-- An invalid operation: a trap that leaves the operands, or the flag and a NaN that is `good` (51_fp_exceptions.md R950). -/
def GivesInvalid (env : FpEnv) (good : Nat → Prop) (r : Delivery) : Prop :=
  (env.traps fpV = true → r = .trapped 0b100000#6 none 0#5) ∧ (env.traps fpV = false → ∃ q, good q ∧ r = .value q fpV)

/-- The NaN made of operands none of which is one (49_floating_point.md R856; its sign is D31's). -/
def IsNewNan (f : Fmt) (q : Nat) : Prop := q < 2 ^ (f.p + f.ew) ∧ f.value q = .nan ∧ f.negative q = false ∧ f.fraction q = 2 ^ (f.p - 3)

/-- The operation on `ops` propagates NaNs: the first signaling one, quieted, as an invalid operation, else the first quiet one as it is
(49_floating_point.md R854). -/
def PropagatesNan (f : Fmt) (env : FpEnv) (ops : List Nat) (r : Delivery) : Prop :=
  ∀ (before later : List Nat) (w : Nat), ops = before ++ w :: later →
    (IsSignaling f w → (∀ x ∈ before, ¬IsSignaling f x) → GivesInvalid env (Quiets f w) r) ∧
    (f.value w = .nan → (∀ x ∈ ops, ¬IsSignaling f x) → (∀ x ∈ before, f.value x ≠ .nan) → r = .value w 0#5)

/-- The exact infinity, or zero, of sign `neg`. -/
def GivesInfinity (f : Fmt) (neg : Bool) (x : BitVec 5) (r : Delivery) : Prop := ∃ bits, IsInfinity f neg bits ∧ r = .value bits x
def GivesZero (f : Fmt) (neg : Bool) (r : Delivery) : Prop := ∃ bits, IsZero f neg bits ∧ r = .value bits 0#5

/-- The special sums: of infinities, and exact zeros (50_fp_instructions.md R900; 49_floating_point.md R852, R857). -/
def SumSpecials (f : Fmt) (env : FpEnv) (x y : FpVal) (r : Delivery) : Prop :=
  (∀ n1 n2, x = .inf n1 → y = .inf n2 → (n1 = n2 → GivesInfinity f n1 0#5 r) ∧ (n1 ≠ n2 → GivesInvalid env (IsNewNan f) r)) ∧
  (∀ n1 n2 m e, (x = .inf n1 ∧ y = .fin n2 m e) ∨ (x = .fin n2 m e ∧ y = .inf n1) → GivesInfinity f n1 0#5 r) ∧
  (∀ n1 m1 e1 n2 m2 e2, x = .fin n1 m1 e1 → y = .fin n2 m2 e2 →
    (∀ u v : ℝ, Denotes x u → Denotes y v → u + v = 0 → GivesZero f (if n1 = n2 then n1 else env.rm == 3#2) r))

/-! ### The invariant -/

/-- No two translations of a TLB overlap and no page size is reserved (21_translation.md R271, R245). -/
def TlbOk (tlb : List TlbEntry) : Prop :=
  tlb.Pairwise (fun e f => overlaps e.gva e.size f = false) ∧ ∀ e ∈ tlb, e.size.toNat < 8

/-- What every step keeps: memory in its canonical form; reserved bits of PSW, IPSW and IVA zero (10_state.md R49, R67, R76);
configuration bits only of units that are present (R64, R65); TLBs without overlap; the branch target stack's depth
(R100); no more than the twelve entries of C and CQ (50_fp_instructions.md R898, log entry 44). -/
structure Inv (s : State) : Prop where
  memory : s.mem.wf = true
  psw : s.psw &&& ~~~Psw.defined = 0
  ipsw : s.ipsw &&& ~~~Psw.defined = 0
  iva : s.iva &&& 0x7FF#64 = 0
  units : s.ccr &&& ~~~Config.coprocessorsPresent = 0 ∧ s.scr &&& ~~~Config.sfusPresent = 0
  dtlb : TlbOk s.dtlb
  itlb : TlbOk s.itlb
  stack : s.bts.length = Config.btsDepth
  compares : s.fpQueue ≤ 12

end Sys2Proof
end

