-- ==== Sys2Proof/Certificates/Slice0/Obligations.lean ====
section
/-! DEFINITION. The statements about the machine. Each docstring names the rules of spec/ it formalises; what rests on the model's
choice names its log entry. -/

open Sys2Proof Sys2Proof.Machine

/-! ### Encoding -/

/-- Decoding the encoding of a well-formed instruction gives it back, whatever its operands (30_encoding.md R302 to R322,
R371). -/
def Obligations.DecodeOfEncode : Prop := ∀ i : Instr, i.wellFormed = true → decode (encode i) = .ok i

/-- Words that the instruction pages print decode to the instructions they print. -/
def Obligations.SampleWords : Prop :=
  decode 0x0C6810A4#32 = .ok (.ldwShort 3#5 0b01000#5 0#2 0#1 0#2 1#1 4#5) ∧
  decode 0x6BC23F99#32 = .ok (.stwLong 30#5 2#5 0#2 0x3F99#14) ∧
  decode 0x08A40706#32 = .ok (.addC 5#5 4#5 0#3 0#1 0#1 6#5) ∧
  decode 0x80832012#32 = .ok (.cmpbT 4#5 3#5 1#3 4#11 1#1 0#1) ∧
  decode 0xF0A41063#32 = .ok (.depdFixed 5#5 4#5 0#3 1#1 0#1 0#1 3#5 3#5) ∧
  decode 0xF8846906#32 = .ok (.permh 4#5 4#5 3#2 2#2 1#2 0#2 6#5) ∧
  decode 0x00000C00#32 = .ok .rfi ∧
  decode 0x04A41800#32 = .ok (.idtlbt 5#5 4#5) ∧
  decode 0x30850E06#32 = .ok (.fadd 4#5 5#5 1#2 6#5)

/-- The words that no instruction has (93_implementation_defined.md section 1, D11; fields by the spec's numbering, bit 0 leftmost). A word that matches no row of
spec/opcode_table.json (`Assigned`) takes the illegal instruction trap if it is none of the floating-point or performance monitor opcodes: an undefined major opcode, an unassigned
extension, a non-zero constant field (30_encoding.md R334 to R345, R370, R371; 60_exceptions.md R1020), here also by the extension fields of each opcode that has unassigned ones; so do the
undefined conditions (43_computation.md R540, R541, R560). The opcodes 04, 09, 36, 3C and 3D leave no word unassigned.
The undefined floating-point words (49_floating_point.md R818, R837, R839, R840, R843; 50_fp_instructions.md R912) do so with both configuration bits 1, take the assist emulation trap with both 0, those
of opcode 0B after the reference's own interruptions, and are undefined with one; the reserved ones take the assist exception trap at once (51_fp_exceptions.md R946), whatever their format
code is (log entry 39). Those of the performance monitor take the illegal instruction trap with CCR bit 2 set (48_assist_sfu_copr.md R770; the reserved ones by 93_implementation_defined.md
section 5, log entry 39), else the assist emulation trap. That the undefined words trap is the decision D11, not the source's. -/
def Obligations.UndefinedOpcodes : Prop :=
  ∀ (s : State) (w op : BitVec 32) (uid sub ext c : BitVec 3) (cls fmt : BitVec 2) (ext6 : BitVec 6) (rsv : Prop), op = w >>> 26 → uid = w.extractLsb' 6 3 →
    cls = w.extractLsb' 9 2 → sub = w.extractLsb' 13 3 → ext = w.extractLsb' 15 3 → fmt = w.extractLsb' 11 2 → c = sub → ext6 = w.extractLsb' 6 6 →
    rsv = (cls = 3#2 ∧ w.extractLsb' 5 1 = 0#1 ∧
      ((op = 0x0C ∧ uid = 0#3 ∧ sub ∈ [4#3, 5#3, 6#3]) ∨ (op = 0x0E ∧ w.extractLsb' 8 1 = 0#1 ∧ sub ∈ [5#3, 6#3]))) →
    (¬Assigned w → op ≠ 0x0B → op ≠ 0x0C → op ≠ 0x0E → IllegalWord s w) ∧
    (¬Assigned w → (op = 0x0C ∧ uid = 0#3) ∨ op = 0x0E → ¬rsv → UndefinedFpWord s w) ∧
    (¬Assigned w → op = 0x0B → UndefinedFpWord s w) ∧
    (¬Assigned w → op = 0x0C → uid = 2#3 → UndefinedPmWord s w) ∧
    (op ∈ [0x04#32, 0x09, 0x36, 0x3C, 0x3D] → ∃ i, decode w = .ok i) ∧
    (op ∈ [0x07#32, 0x15, 0x1D, 0x37, 0x3F, 0x0F] → IllegalWord s w) ∧
    (op = 0x00 → w.extractLsb' 5 8 ∉ [0x00#8, 0x20, 0x60, 0x65, 0x6B, 0x73, 0xC3, 0x85, 0xC1, 0x25, 0xA5, 0xC2, 0xC6, 0x45] → IllegalWord s w) ∧
    (op = 0x00 → w.extractLsb' 5 8 = 0xC2#8 → w.extractLsb' 0 5 ≠ 0#5 → IllegalWord s w) ∧
    (op = 0x01 → w.extractLsb' 12 1 = 0#1 → w.extractLsb' 6 7 ∉ [0x20#7, 0x08, 0x18, 0x09, 0x0A, 0x0B] → IllegalWord s w) ∧
    (op = 0x01 → w.extractLsb' 12 1 = 1#1 → w.extractLsb' 6 8 ∉ [0x60#8, 0x48, 0x49, 0x58, 0x4A, 0xCA, 0x4B, 0x4E, 0x4F, 0x46, 0xC6, 0x47, 0xC7, 0x4D, 0x4C] →
      IllegalWord s w) ∧
    (op = 0x02 → ext6 ∈ [0x01#6, 0x02, 0x03, 0x06, 0x12, 0x20, 0x21, 0x23, 0x24, 0x25, 0x2C, 0x2D, 0x31, 0x32, 0x35, 0x36, 0x37, 0x3D, 0x3E, 0x3F] →
      IllegalWord s w) ∧
    (op = 0x02 → ext6 ∈ [0x00#6, 0x08, 0x09, 0x0A] → c ∈ [4#3, 5#3, 6#3] → IllegalWord s w) ∧
    (op = 0x02 → ext6 ∈ [0x26#6, 0x27, 0x2E, 0x2F] → w.extractLsb' 5 1 = 0#1 → c ∈ [1#3, 5#3] → IllegalWord s w) ∧
    (op = 0x02 → ext6 = 0x0E#6 → 4 ≤ c.toNat ∨ (c = 1#3 ∧ w.extractLsb' 5 1 = 0#1) → IllegalWord s w) ∧
    (op = 0x02 → ext6 ∈ [0x04#6, 0x05, 0x07, 0x0B, 0x0C, 0x0D, 0x0F, 0x15, 0x16, 0x17, 0x1D, 0x1E, 0x1F] →
      w.extractLsb' 5 1 = 1#1 ∨ c ≠ 0#3 ∨ w.extractLsb' 12 1 = 1#1 → IllegalWord s w) ∧
    (op = 0x03 → w.extractLsb' 12 1 = 0#1 → w.extractLsb' 9 1 = 1#1 → IllegalWord s w) ∧
    (op = 0x34 → w.extractLsb' 10 3 = 0#3 → w.extractLsb' 5 4 ≠ 0#4 → IllegalWord s w) ∧
    ((op = 0x34 ∧ w.extractLsb' 11 2 = 2#2) ∨ (op = 0x35 ∧ w.extractLsb' 11 1 = 0#1) →
      w.extractLsb' 5 3 ≠ 0#3 ∨ w.extractLsb' 8 2 = 1#2 → IllegalWord s w) ∧
    (op = 0x3A → sub = 3#3 ∨ (sub = 7#3 ∧ w.extractLsb' 12 1 = 0#1) → IllegalWord s w) ∧
    (op = 0x3E → w.extractLsb' 15 1 = 1#1 → w.extractLsb' 13 1 = 1#1 ∨ (w.extractLsb' 14 1 = 0#1 ∧ w.extractLsb' 10 2 = 3#2) → IllegalWord s w) ∧
    (op = 0x0C → uid = 0#3 → (cls = 0#2 ∧ sub = 1#3) ∨ (cls = 1#2 ∧ ext = 4#3) ∨ (cls = 3#2 ∧ sub = 7#3) → UndefinedFpWord s w) ∧
    (op = 0x0C → uid = 0#3 → fmt = 2#2 → cls ≠ 3#2 ∨ sub.toNat < 4 → UndefinedFpWord s w) ∧
    (op = 0x0C → uid = 0#3 → cls = 1#2 → w.extractLsb' 13 2 = 2#2 ∨ (ext = 0#3 ∧ w.extractLsb' 13 2 = fmt) → UndefinedFpWord s w) ∧
    (op = 0x0C → uid = 0#3 → cls = 2#2 → w.extractLsb' 5 1 = 1#1 →
      (sub ≠ 1#3 ∧ w.extractLsb' 0 5 ≠ 0#5) ∨ w.extractLsb' 0 5 ∉ [0#5, 1#5, 2#5, 5#5, 6#5, 9#5, 13#5, 17#5] → UndefinedFpWord s w) ∧
    (op = 0x0E → (cls = 0#2 ∧ sub.toNat < 2) ∨ (cls = 1#2 ∧ ext = 4#3) ∨ (cls = 2#2 ∧ w.extractLsb' 5 1 = 1#1) ∨
      (cls = 1#2 ∧ ext = 0#3 ∧ w.extractLsb' 13 1 = w.extractLsb' 11 1) ∨
      (cls = 3#2 ∧ (sub = 4#3 ∨ sub = 7#3)) ∨ (cls = 3#2 ∧ w.extractLsb' 8 1 = 1#1 ∧ sub ≠ 2#3) → UndefinedFpWord s w) ∧
    (op = 0x0B → uid = 1#3 → UndefinedFpWord s w) ∧
    (rsv → ReservedFpWord s w) ∧
    (op = 0x0C → uid = 2#3 → w.extractLsb' 9 5 ≠ 1#5 → w.extractLsb' 9 5 ≠ 3#5 → UndefinedPmWord s w)

/-! ### The step -/

/-- With no interruption pending and PSW[N] = 0, a step executes the instruction that the fetched word decodes to, in the state after the
hardware's own TLB removals (HardwareRemovals), with its word latched (the model's form, log entries 4 and 33); the step adds nothing else. -/
def Obligations.StepRunsDecoded : Prop :=
  ∀ (r s : State) (w : Word) (i : Instr), s = r.passTime →
    pendingInterruption s = none → s.flag Psw.N = false → s.fetch = .ok w → decode w = .ok i → step r = exec i (s.latch w)

/-- Before a step the hardware removes the TLB entries that the state's schedule names, but for a translation that may be relied upon (10_state.md R90: "hardware
may remove any entry at any time"; 21_translation.md R273, R275; 70_reset_and_hazards.md R1116; that the schedule is a list the state holds is the model's form, log
entry 33): an entry stays just when no removal of its TLB names an address on its page or its page is the one relied upon; a translation that stays is found as
before, none is added, and but for what may be relied upon nothing else changes. The interruptions 18 to 22 and 26 to 28 of a translated address open the first window
of R275 and those of groups 1, 2 and 4 close it; an instruction that is no memory management instruction, no DIAG and no virtual data reference keeps it, so does
LPA, and so does a nullified instruction that would refer to no data, whatever it is. An executed undefined word ends both windows; a reserved floating-point one is not undefined
(49_floating_point.md R837; 93_implementation_defined.md section 5) and ends neither. An RSM that clears PSW[Q] as R275 (2) asks opens the second window, and an instruction on its page keeps it that refers to no data and is
neither a memory management instruction nor DIAG, with no branch, memory management instruction, DIAG or undefined instruction in the eight words after it; a nullified one need only refer to no data. The Branch Target
Stack instructions are no branches. The model's choices in the form
of the windows are log entry 62's. -/
def Obligations.HardwareRemovals : Prop :=
  (∀ (s : State) (now : List Removal), now = s.removals.headD [] →
    s.passTime = { s with itlb := s.passTime.itlb, dtlb := s.passTime.dtlb, removals := s.removals.tail, relied := s.passTime.relied } ∧
    (s.removals = [] → s.passTime.itlb = s.itlb ∧ s.passTime.dtlb = s.dtlb) ∧
    (∀ e, e ∈ s.passTime.itlb ↔ e ∈ s.itlb ∧
      ((∀ x ∈ now, x.instruction = true → e.covers x.gva = false) ∨ ∃ g, s.keptCode = some g ∧ e.covers g = true)) ∧
    (∀ e, e ∈ s.passTime.dtlb ↔ e ∈ s.dtlb ∧
      ((∀ x ∈ now, x.instruction = false → e.covers x.gva = false) ∨ ∃ g, s.keptData = some g ∧ e.covers g = true)) ∧
    (∀ (g : BitVec 96) (e : TlbEntry), tlbLookup s.dtlb g = some e →
      ((∀ x ∈ now, x.instruction = false → e.covers x.gva = false) ∨ ∃ k, s.keptData = some k ∧ e.covers k = true) →
      tlbLookup s.passTime.dtlb g = some e) ∧
    (∀ g : BitVec 96, tlbLookup s.dtlb g = none → tlbLookup s.passTime.dtlb g = none) ∧
    (∀ (g : BitVec 96) (e : TlbEntry) (x : Removal), TlbOk s.dtlb → tlbLookup s.dtlb g = some e → x ∈ now → x.instruction = false →
      e.covers x.gva = true → (∀ k, s.keptData = some k → e.covers k = false) → tlbLookup s.passTime.dtlb g = none)) ∧
  (∀ (s : State) (g : BitVec 96),
    (s.keptData = some g ↔ s.relied.data = some g ∧ s.keepsData g = true) ∧
    (s.keptCode = some g ↔ s.relied.code = some g ∧ s.keepsCode g = true) ∧
    (s.passTime.relied.data = s.keptData) ∧
    (s.passTime.relied.code = if s.opensCode then some s.here else s.keptCode)) ∧
  (∀ (s : State) (n : Interruption) (a : DataAddr) (p : Params),
    ((18 ≤ n.number ∧ n.number ≤ 22) ∨ (26 ≤ n.number ∧ n.number ≤ 28) →
      (s.flag Psw.D = true → (takeInterruption s n (.data a)).relied.data = some (s.gva a.space a.offset)) ∧
      (takeInterruption s n (.virtualData a)).relied.data = some (s.gva a.space a.offset)) ∧
    (n.number ≤ 5 ∨ (23 ≤ n.number ∧ n.number ≤ 25) ∨ n.number = 29 → (takeInterruption s n p).relied.data = none)) ∧
  (∀ (s : State) (g : BitVec 96) (w : Word) (i : Instr), s.coming = .nullified w → decode w = .ok i → s.virtualReference i = none →
    (s.flag Psw.C = false → s.keepsData g = true) ∧ (s.flag Psw.C = true → onPage s.itlb g s.here = true → s.keepsCode g = true)) ∧
  (∀ (s : State) (g : BitVec 96) (w : Word) (x : Reject), s.coming = .executed w → decode w = .error x →
    (x ≠ .fpReserved → s.keepsData g = false ∧ s.keepsCode g = false) ∧
    (x = .fpReserved → (s.flag Psw.C = false → s.keepsData g = true) ∧
      (s.flag Psw.C = true → s.quietAhead = true → onPage s.itlb g s.here = true → s.keepsCode g = true))) ∧
  (isBranch (encode .clrbts) = false ∧ isBranch (encode .pushnom) = false ∧ (∀ r, isBranch (encode (.pushbts r)) = false) ∧
    (∀ iv, isBranch (encode (.popbts iv)) = false) ∧ (∀ x t n, isBranch (encode (.blr x t n)) = true)) ∧
  (∀ (s : State) (g : BitVec 96) (w : Word) (i : Instr), s.coming = .executed w → decode w = .ok i →
    (s.flag Psw.C = false → majorOpcode w ≠ 0x01 → majorOpcode w ≠ 0x05 → s.virtualReference i = none → s.keepsData g = true) ∧
    (∀ (b x t : BitVec 5) (sr : BitVec 2) (m : BitVec 1), s.flag Psw.C = false → i = .lpa b x sr m t →
      majorOpcode w = 0x01 → s.keepsData g = true) ∧
    (s.flag Psw.C = true → majorOpcode w ≠ 0x01 → majorOpcode w ≠ 0x05 → s.virtualReference i = none → s.quietAhead = true →
      onPage s.itlb g s.here = true → s.keepsCode g = true) ∧
    (∀ (iv : BitVec 10) (t : BitVec 5) (k : Nat) (q : BitVec 96) (e : TlbEntry), i = .rsm iv t → s.flag Psw.Q = true → iv.getLsbD 3 = true →
      s.flag Psw.C = true → s.quietAhead = true → s.relied.between = some (k, q) → 7 ≤ k → s.fetchEntry = some e → e.covers q = true →
      8 ≤ (s.wordOnPage e).1 → s.opensCode = true))

/-- The fetch (20_memory.md R144, R159, R161, R162; 21_translation.md R265). With code translation off, from an address in the memory region (with PSW[W] = 0 one below the PDC and
I/O addresses, with PSW[W] = 1 one whose bits 2 to 5 are not 1111), the word is the four bytes there, in the byte order of PSW[E]: that the word is little endian with PSW[E] = 1 is R144 against 30_encoding.md R300, which has the
fetch big endian whatever PSW[E] is (DEDUCED, log entry 64). With code translation on, a page with no
entry gives the instruction TLB miss fault, one whose rights or identifier forbid the fetch the instruction memory protection trap, and
one that allows it the word at the page's place (used unmapped, log entry 55). -/
def Obligations.Fetch : Prop :=
  ∀ (s : State) (a : Nat) (big little : Word),
    big = s.mem.get a ++ s.mem.get (a + 1) ++ s.mem.get (a + 2) ++ s.mem.get (a + 3) →
    little = s.mem.get (a + 3) ++ s.mem.get (a + 2) ++ s.mem.get (a + 1) ++ s.mem.get a →
    (s.flag Psw.C = false → s.flag Psw.W = false → a < 0xF0000000 → a = (low32 s.fetchOffset).toNat →
      s.fetch = .ok (if s.flag Psw.E then little else big)) ∧
    (s.flag Psw.C = false → s.flag Psw.W = true → s.fetchOffset.extractLsb' 58 4 ≠ 0xF#4 → a = (s.fetchOffset.extractLsb' 0 62).toNat →
      s.fetch = .ok (if s.flag Psw.E then little else big)) ∧
    (∀ r : State, s = r.passTime → pendingInterruption s = none → s.flag Psw.N = false → s.flag Psw.C = true →
      (s.fetchEntry = none → step r = .next (takeInterruption s .instructionTlbMiss .none)) ∧
      (∀ e, s.fetchEntry = some e → (rightsOk e.rights .execute s.priv && s.pidOk e.accessId .execute) = false →
        step r = .next (takeInterruption s .instructionMemoryProtection .none))) ∧
    (s.flag Psw.C = true →
      (∀ e, s.fetchEntry = some e → rightsOk e.rights .execute s.priv = true → s.pidOk e.accessId .execute = true →
        region (e.translate (s.usedOffset s.fetchOffset)) = .memory →
        a = (e.translate (s.usedOffset s.fetchOffset)).toNat → s.fetch = .ok (if s.flag Psw.E then little else big)))

/-- A nullified instruction only advances the queues and clears N, B and X; the recovery counter stays (42_branch.md R471). Then the privilege transfer traps may follow it as they
follow an executed one (60_exceptions.md R1004: a branch's transfer trap is taken after its delay slot instruction, "executed or nullified"): with PSW[L] = 1 the lower-privilege transfer
trap when the instruction at the back of the queue has a lower privilege level than the nullified one, with PSW[H] = 1 the higher-privilege transfer trap when it has a higher one, both on the
state after the advance; no taken branch trap, whatever PSW[T] is. The model's choices: the interval timer counts it too (the decision of 60_exceptions.md R1055, log entry 22), Y and Z are
cleared (D4, log entry 19), a nullified instruction leaves the branch target stack as it is (log entry 13), and at the end of a space the step is undefined (20_memory.md R159) before any
trap (log entry 53). -/
def Obligations.NullifiedStep : Prop :=
  ∀ r s : State, s = r.passTime → pendingInterruption s = none → s.flag Psw.N = true →
    (s.atEndOfSpace = true → step r = .refused .endOfSpace) ∧
    (s.atEndOfSpace = false → ∃ u, u.iaoqFront = s.iaoqBack ∧ u.iasqFront = s.iasqBack ∧ u.iaoqBack = s.iaoqBack + 4 ∧
      u.iasqBack = s.iasqBack ∧ u.psw = s.psw &&& ~~~statusBits ∧ u.rctr = s.rctr ∧
      u.itmr = s.itmr + Config.timerRate ∧ SameRequests s u ∧ AsIn s u ∧
      (s.priv < s.iaoqBack.extractLsb' 0 2 → s.flag Psw.L = true → step r = .next (takeInterruption u .lowerPrivilegeTransfer .none)) ∧
      (s.iaoqBack.extractLsb' 0 2 < s.priv → s.flag Psw.H = true → step r = .next (takeInterruption u .higherPrivilegeTransfer .none)) ∧
      ((s.priv < s.iaoqBack.extractLsb' 0 2 → s.flag Psw.L = false) → (s.iaoqBack.extractLsb' 0 2 < s.priv → s.flag Psw.H = false) →
        step r = .next u))

/-- Group 1 and group 2 interruptions are taken before the instruction, the first of R1003 that is unmasked (60_exceptions.md R1003). That taking a
machine check, a power failure or a performance monitor interruption clears its pending request is the decision of 10_state.md R93 (D42, log entry 26). The
interval timer requests one when its low word comes to the comparison register: it sets bit 0 of EIRR with PSW[W] = 1, bit 32 with PSW[W] = 0, and no
other (R1055; the rate is the decision D1, log entry 22). -/
def Obligations.PendingOrder : Prop :=
  (∀ r s : State, s = r.passTime →
    (s.hpmcPending = true → s.flag Psw.M = false →
      step r = .next (takeInterruption { s with hpmcPending := false } .highPriorityMachineCheck .implementation)) ∧
    ((s.hpmcPending && !(s.flag Psw.M)) = false →
      (s.powerFailPending = true → s.flag Psw.I = true →
        step r = .next (takeInterruption { s with powerFailPending := false } .powerFailure .none)) ∧
      ((s.powerFailPending && s.flag Psw.I) = false →
        (s.flag Psw.R = true → s.rctr.msb = true → step r = .next (takeInterruption s .recoveryCounter .none)) ∧
        ((s.flag Psw.R && s.rctr.msb) = false →
          (s.flag Psw.I = true → s.eirr &&& s.eiem ≠ 0 → step r = .next (takeInterruption s .external .none)) ∧
          (s.flag Psw.I = true → s.eirr &&& s.eiem = 0 → s.lpmcPending = true →
            step r = .next (takeInterruption { s with lpmcPending := false } .lowPriorityMachineCheck .implementation)) ∧
          ((s.flag Psw.I = false ∨ (s.eirr &&& s.eiem = 0 ∧ s.lpmcPending = false)) → s.flag Psw.F = true →
            s.perfMonPending = true →
            step r = .next (takeInterruption { s with perfMonPending := false } .performanceMonitor .implementation)))))) ∧
  (∀ s : State,
    (s.itmr.extractLsb' 0 32 + 1#32 = s.itmrCompare →
      s.tick.eirr = s.eirr ||| (if s.flag Psw.W then bitMask 0 else bitMask 32)) ∧
    (s.itmr.extractLsb' 0 32 + 1#32 ≠ s.itmrCompare → s.tick.eirr = s.eirr))

/-- Every step keeps the machine's invariant: canonical memory, reserved bits zero, configuration bits only of present units, TLBs
without overlapping or reserved-size entries, the depth of the branch target stack, at most twelve compare results queued (log entry 44). -/
def Obligations.StepKeepsInv : Prop := ∀ s t : State, Inv s → step s = .next t → Inv t

/-- The invariant holds after reset. -/
def Obligations.ResetInv : Prop := Inv State.reset

/-- The start state that the spec chose, not the source, which gives none (70_reset_and_hazards.md R1100, R1101; D3, log entry 1): absolute
addressing at level 0, interruptions masked, assist units disabled, TLBs empty, nothing pending. The start address itself is the model's
choice (log entry 2). -/
def Obligations.ResetState : Prop :=
  State.reset.priv = 0#2 ∧ State.reset.iaoqBack = State.reset.iaoqFront + 4 ∧
  State.reset.iasqFront = 0 ∧ State.reset.iasqBack = 0 ∧
  State.reset.flag Psw.W = Config.defaultWidth ∧ State.reset.flag Psw.E = Config.defaultEndian ∧
  State.reset.psw &&& ~~~(bitMask Psw.W ||| bitMask Psw.E) = 0 ∧
  State.reset.pid12 = 0 ∧ State.reset.pid34 = 0 ∧ State.reset.pid56 = 0 ∧ State.reset.pid78 = 0 ∧
  State.reset.ccr = 0 ∧ State.reset.scr = 0 ∧ State.reset.eiem = 0 ∧ State.reset.eirr = 0 ∧ State.reset.itmr = 0 ∧
  State.reset.readFpr 0#5 = 0 ∧ State.reset.readFpr 1#5 = 0 ∧ State.reset.readFpr 2#5 = 0 ∧ State.reset.readFpr 3#5 = 0 ∧
  State.reset.itlb = [] ∧ State.reset.dtlb = [] ∧ State.reset.measurementEnabled = false ∧
  State.reset.bnr.getLsbD 0 = false ∧ (∀ e ∈ State.reset.bts, e.getLsbD 0 = false) ∧
  pendingInterruption State.reset = none

/-! ### Interruptions -/

/-- What every interruption installs: IPSW from the PSW, a PSW of zeros but W and E from the default bits and M for the
high-priority machine check, and the queues at IVA + 32 n at privilege level 0 when IVA is a vector base (60_exceptions.md R1007, R1008). That
the space queue becomes 0 is the decision D38 (R1007, log entry 24). -/
def Obligations.InterruptionEntry : Prop :=
  ∀ (s : State) (n : Interruption) (p : Params), s.iva &&& 0x7FF#64 = 0 →
    (takeInterruption s n p).ipsw = s.psw ∧
    (takeInterruption s n p).flag Psw.W = s.defaultWidth ∧
    (takeInterruption s n p).flag Psw.E = s.defaultEndian ∧
    (takeInterruption s n p).flag Psw.M = decide (n.number = 1) ∧
    (takeInterruption s n p).psw &&& ~~~(bitMask Psw.W ||| bitMask Psw.E ||| bitMask Psw.M) = 0 ∧
    (takeInterruption s n p).iaoqFront = s.iva + 32 * BitVec.ofNat 64 n.number ∧
    (takeInterruption s n p).iaoqBack = (takeInterruption s n p).iaoqFront + 4 ∧
    (takeInterruption s n p).priv = 0#2 ∧
    (takeInterruption s n p).iasqFront = 0 ∧ (takeInterruption s n p).iasqBack = 0

/-- With PSW[Q] = 1 an interruption saves GR 1, 8, 9, 16, 17, 24 and 25, and, if it is not the high-priority machine check, the queues, which that one leaves free (60_exceptions.md R1012, log
entry 26); with PSW[Q] = 0 it saves none of these and sets no parameter register. The parameters: IIR the instruction's word; for a data address with PSW[D] = 1 ISR the upper part of the
global virtual address and IOR the base register's selector bits and the offset's low word, with PSW[D] = 0 the two parts of the absolute offset, IOR's two upper bits free (60_exceptions.md
R1007; 10_state.md R71, R72, R74, R75, R80); the assist emulation trap of an operation IIR the instruction's word, ISR and IOR undefined (48_assist_sfu_copr.md R758), free values here (log
entry 5). The model's choices: the address that LPA or a probe translates is reported in the format of PSW[D] = 1 whatever PSW[D] is (DEDUCED, log entry 8), an interruption without parameters
leaves IIR, ISR and IOR as they were and one that passes the instruction alone ISR and IOR (D41, log entry 25), the parameters that are implementation dependent are free (D42, log entry 26),
and with code translation off and PSW[W] = 0 the saved offsets are not truncated (log entry 54). -/
def Obligations.InterruptionSaves : Prop :=
  ∀ (s : State) (n : Interruption) (p : Params) (a : DataAddr),
    (s.flag Psw.Q = true → n ≠ .highPriorityMachineCheck →
      (takeInterruption s n p).shr = #v[s.readGr 1#5, s.readGr 8#5, s.readGr 9#5, s.readGr 16#5, s.readGr 17#5, s.readGr 24#5,
        s.readGr 25#5] ∧
      (s.flag Psw.C = true → s.flag Psw.W = false →
        (takeInterruption s n p).iiasqFront = s.iasqFront ∧ (takeInterruption s n p).iiasqBack = s.iasqBack ∧
        (takeInterruption s n p).iiaoqFront = s.iaoqFront &&& 0xFFFFFFFF#64 ∧
        (takeInterruption s n p).iiaoqBack = s.iaoqBack &&& 0xFFFFFFFF#64) ∧
      (s.flag Psw.C = true → s.flag Psw.W = true →
        (takeInterruption s n p).iiasqFront = s.iasqFront ||| ((s.iaoqFront >>> 32) &&& 0x3FFFFFFF#64) ∧
        (takeInterruption s n p).iiasqBack = s.iasqBack ||| ((s.iaoqBack >>> 32) &&& 0x3FFFFFFF#64) ∧
        (takeInterruption s n p).iiaoqFront = s.iaoqFront ∧ (takeInterruption s n p).iiaoqBack = s.iaoqBack) ∧
      (s.flag Psw.C = false →
        (takeInterruption s n p).iiasqFront = 0 ∧ (takeInterruption s n p).iiasqBack = 0 ∧
        (takeInterruption s n p).iiaoqFront = s.iaoqFront ∧ (takeInterruption s n p).iiaoqBack = s.iaoqBack)) ∧
    (s.flag Psw.Q = false →
      (takeInterruption s n p).shr = s.shr ∧ (takeInterruption s n p).iiasqFront = s.iiasqFront ∧
      (takeInterruption s n p).iiasqBack = s.iiasqBack ∧ (takeInterruption s n p).iiaoqFront = s.iiaoqFront ∧
      (takeInterruption s n p).iiaoqBack = s.iiaoqBack ∧ (takeInterruption s n p).iir = s.iir ∧
      (takeInterruption s n p).isr = s.isr ∧ (takeInterruption s n p).ior = s.ior) ∧
    (s.flag Psw.Q = true → n ≠ .highPriorityMachineCheck →
      (takeInterruption s n .instr).iir = s.iword ∧ (takeInterruption s n .instr).isr = s.isr ∧
      (takeInterruption s n .instr).ior = s.ior ∧
      (takeInterruption s n (.data a)).iir = s.iword ∧
      (s.flag Psw.D = true → s.flag Psw.W = false →
        (takeInterruption s n (.data a)).isr = a.space ∧
        (takeInterruption s n (.data a)).ior = (a.base.extractLsb' 30 2 ++ 0#30 ++ a.offset.extractLsb' 0 32)) ∧
      (s.flag Psw.D = true → s.flag Psw.W = true →
        (takeInterruption s n (.data a)).isr = a.space ||| ((a.offset >>> 32) &&& 0x3FFFFFFF#64) ∧
        (takeInterruption s n (.data a)).ior = (a.base.extractLsb' 62 2 ++ 0#30 ++ a.offset.extractLsb' 0 32)) ∧
      (s.flag Psw.D = false →
        (takeInterruption s n (.data a)).isr = (if s.flag Psw.W then 0#34 ++ a.offset.extractLsb' 32 30 else 0) ∧
        ∃ any : BitVec 2, (takeInterruption s n (.data a)).ior = any ++ 0#30 ++ a.offset.extractLsb' 0 32) ∧
      (takeInterruption s n (.virtualData a)).iir = s.iword ∧
      (s.flag Psw.W = false →
        (takeInterruption s n (.virtualData a)).isr = a.space ∧
        (takeInterruption s n (.virtualData a)).ior = (a.base.extractLsb' 30 2 ++ 0#30 ++ a.offset.extractLsb' 0 32)) ∧
      (s.flag Psw.W = true →
        (takeInterruption s n (.virtualData a)).isr = a.space ||| ((a.offset >>> 32) &&& 0x3FFFFFFF#64) ∧
        (takeInterruption s n (.virtualData a)).ior = (a.base.extractLsb' 62 2 ++ 0#30 ++ a.offset.extractLsb' 0 32)) ∧
      (takeInterruption s n .instrUndefinedAddress).iir = s.iword ∧
      (takeInterruption s n .instrUndefinedAddress).isr = s.free 0 ∧ (takeInterruption s n .instrUndefinedAddress).ior = s.free 1 ∧
      (takeInterruption s n .instrUndefinedAddress).freeCount = s.freeCount + 2 ∧
      (takeInterruption s n .none).iir = s.iir ∧ (takeInterruption s n .none).isr = s.isr ∧ (takeInterruption s n .none).ior = s.ior ∧
      (takeInterruption s n .implementation).iir = (s.free 0).extractLsb' 0 32 ∧ (takeInterruption s n .implementation).isr = s.free 1 ∧
      (takeInterruption s n .implementation).ior = s.free 2) ∧
    (∀ u : State, u = takeInterruption s .highPriorityMachineCheck .implementation → s.flag Psw.Q = true →
      u.shr = #v[s.readGr 1#5, s.readGr 8#5, s.readGr 9#5, s.readGr 16#5, s.readGr 17#5, s.readGr 24#5, s.readGr 25#5] ∧
      u.iiasqFront = s.free 0 ∧ u.iiasqBack = s.free 1 ∧ u.iiaoqFront = s.free 2 ∧ u.iiaoqBack = s.free 3 ∧
      u.iir = (s.free 4).extractLsb' 0 32 ∧ u.isr = s.free 5 ∧ u.ior = s.free 6 ∧ u.freeCount = s.freeCount + 7)

/-- An interruption changes no general, space or floating-point register, no memory byte, no TLB entry, no queue-independent control
register and no assist state: the interrupted instruction is rolled back (60_exceptions.md R1006). -/
def Obligations.InterruptionRollsBack : Prop :=
  ∀ (s : State) (n : Interruption) (p : Params) (r : BitVec 5) (q : BitVec 3) (a : Nat),
    (takeInterruption s n p).readGr r = s.readGr r ∧ (takeInterruption s n p).readSr q = s.readSr q ∧
    (takeInterruption s n p).readFpr r = s.readFpr r ∧ (takeInterruption s n p).mem.get a = s.mem.get a ∧
    (takeInterruption s n p).itlb = s.itlb ∧ (takeInterruption s n p).dtlb = s.dtlb ∧
    (takeInterruption s n p).rctr = s.rctr ∧ (takeInterruption s n p).sar = s.sar ∧
    (takeInterruption s n p).pid12 = s.pid12 ∧ (takeInterruption s n p).pid34 = s.pid34 ∧
    (takeInterruption s n p).pid56 = s.pid56 ∧ (takeInterruption s n p).pid78 = s.pid78 ∧
    (takeInterruption s n p).ccr = s.ccr ∧ (takeInterruption s n p).scr = s.scr ∧ (takeInterruption s n p).iva = s.iva ∧
    (takeInterruption s n p).eiem = s.eiem ∧ (takeInterruption s n p).eirr = s.eirr ∧ (takeInterruption s n p).itmr = s.itmr ∧
    (takeInterruption s n p).itmrCompare = s.itmrCompare ∧ (takeInterruption s n p).tr = s.tr ∧
    (takeInterruption s n p).bts = s.bts ∧ (takeInterruption s n p).bnr = s.bnr ∧ (takeInterruption s n p).sfu = s.sfu ∧
    (takeInterruption s n p).copr = s.copr ∧ (takeInterruption s n p).cpr = s.cpr ∧
    (takeInterruption s n p).measurementEnabled = s.measurementEnabled

/-- RFI and RFI,R at privilege level 0 with PSW[Q], [I] and [R] = 0, and with PSW[L] = 0 or a return to level 0: the PSW and the queues come back from the
saved registers, with RFI,R the seven shadowed registers too, and everything an RFI may not touch stays; the interval timer counts an RFI as it counts any
instruction (the decision of 60_exceptions.md R1055, log entry 22); what it leaves undefined (after
RFI,R the shadow registers, and when it clears PSW[Q] the interruption registers) is free (the model's form, log entries 5 and 36). Otherwise it is undefined
(R665 a, b), and so it is with queues no interruption could have saved (R665 g), which the model takes to be: with IPSW[B] = 0 two elements that are not
consecutive words at one level, or, with IPSW[C] = 1, not in one space (DEDUCED, log entry 35). After an interruption of group 2 to 4 taken with PSW[Q] = 1 and
code translation on, returning restores the PSW and the queues, when no space identifier bit meets an offset bit (10_state.md R71, R72; 60_exceptions.md
R1007; 46_system_control.md R665). -/
def Obligations.ReturnFromInterruption : Prop :=
  (∀ (s : State) (q : Prop), s.priv = 0#2 → s.ipsw &&& ~~~Psw.defined = 0 →
    q = (bitAt s.ipsw Psw.B = true ∨ (s.iiaoqBack = s.iiaoqFront + 4 ∧ (bitAt s.ipsw Psw.C = true →
      s.iiasqFront &&& ~~~(s.iiaoqFront >>> 32) &&& ~~~(s.iiaoqBack >>> 32) =
        s.iiasqBack &&& ~~~(s.iiaoqFront >>> 32) &&& ~~~(s.iiaoqBack >>> 32)))) →
    (s.flag Psw.Q = true ∨ s.flag Psw.I = true ∨ s.flag Psw.R = true ∨ (s.flag Psw.L = true ∧ s.iiaoqFront.extractLsb' 0 2 ≠ 0#2) →
      exec .rfi s = .refused .returnNotAllowed ∧ exec .rfiR s = .refused .returnNotAllowed) ∧
    (s.flag Psw.Q = false → s.flag Psw.I = false → s.flag Psw.R = false →
      s.flag Psw.L = false ∨ s.iiaoqFront.extractLsb' 0 2 = 0#2 →
      (¬ q → exec .rfi s = .refused .inconsistentQueues ∧ exec .rfiR s = .refused .inconsistentQueues) ∧
      (q → (∃ t, exec .rfi s = .next t ∧ t.psw = s.ipsw ∧ t.iaoqFront = s.iiaoqFront ∧ t.iaoqBack = s.iiaoqBack ∧
        t.iasqFront = s.iiasqFront &&& ~~~(s.iiaoqFront >>> 32) ∧ t.iasqBack = s.iiasqBack &&& ~~~(s.iiaoqBack >>> 32) ∧
        t.rctr = s.rctr ∧ t.itmr = s.itmr + Config.timerRate ∧ SameRequests s t ∧ AsIn (if bitAt s.ipsw Psw.Q then s else s.loseInterruptionState) t) ∧
      (∃ t, exec .rfiR s = .next t ∧ t.psw = s.ipsw ∧ t.iaoqFront = s.iiaoqFront ∧ t.iaoqBack = s.iiaoqBack ∧
        t.iasqFront = s.iiasqFront &&& ~~~(s.iiaoqFront >>> 32) ∧ t.iasqBack = s.iiasqBack &&& ~~~(s.iiaoqBack >>> 32) ∧
        t.readGr 1#5 = s.shr[0] ∧ t.readGr 8#5 = s.shr[1] ∧ t.readGr 9#5 = s.shr[2] ∧ t.readGr 16#5 = s.shr[3] ∧
        t.readGr 17#5 = s.shr[4] ∧ t.readGr 24#5 = s.shr[5] ∧ t.readGr 25#5 = s.shr[6] ∧
        (∀ r, r ≠ 1#5 → r ≠ 8#5 → r ≠ 9#5 → r ≠ 16#5 → r ≠ 17#5 → r ≠ 24#5 → r ≠ 25#5 → t.readGr r = s.readGr r) ∧
        t.rctr = s.rctr ∧ t.itmr = s.itmr + Config.timerRate ∧ SameRequests s t ∧
        AsIn (if bitAt s.ipsw Psw.Q then s.restoreShadow else s.restoreShadow.loseInterruptionState) t)))) ∧
  (∀ (s : State) (n : Interruption) (p : Params), n ≠ .highPriorityMachineCheck → s.flag Psw.Q = true → s.flag Psw.C = true →
    s.psw &&& ~~~Psw.defined = 0 →
    s.iasqFront &&& (s.iaoqFront >>> 32) = 0 → s.iasqBack &&& (s.iaoqBack >>> 32) = 0 →
    (s.flag Psw.W = false → low32 s.iaoqFront = s.iaoqFront ∧ low32 s.iaoqBack = s.iaoqBack) →
    (returnFromInterruption (takeInterruption s n p)).psw = s.psw ∧
    (returnFromInterruption (takeInterruption s n p)).iaoqFront = s.iaoqFront ∧
    (returnFromInterruption (takeInterruption s n p)).iaoqBack = s.iaoqBack ∧
    (returnFromInterruption (takeInterruption s n p)).iasqFront = s.iasqFront ∧
    (returnFromInterruption (takeInterruption s n p)).iasqBack = s.iasqBack)

/-- The group 4 traps come after completion (60_exceptions.md R1004): an instruction other than RFI and RFI,R that answers a next state either took an
interruption and did nothing else, or completed, the next instruction being the one at the back of the queue; then the trap follows, the lower-privilege transfer trap with PSW[L] = 1,
else the higher-privilege transfer trap with PSW[H] = 1, by the level of that next instruction, else the taken branch trap with PSW[T] = 1, each on the
status before the instruction. They do follow: after LDIL, after BV, and after a conditional branch. Past the end of a space a sequential instruction is undefined
(20_memory.md R159); that this comes before the trap is the model's choice (log entry 53). -/
def Obligations.GroupFourTraps : Prop :=
  (∀ (i : Instr) (s t : State), i ≠ .rfi → i ≠ .rfiR → exec i s = .next t →
    (∃ n p, t = takeInterruption s n p) ∨
    (∃ u : State, u.iaoqFront = s.iaoqBack ∧ u.iasqFront = s.iasqBack ∧ u.flag Psw.X = false ∧
      (u.flag Psw.B = false → u.iaoqBack = s.iaoqBack + 4 ∧ u.iasqBack = s.iasqBack) ∧
      t = (if s.priv < u.priv ∧ s.flag Psw.L = true then takeInterruption u .lowerPrivilegeTransfer .none
        else if u.priv < s.priv ∧ s.flag Psw.H = true then takeInterruption u .higherPrivilegeTransfer .none
        else if u.flag Psw.B = true ∧ s.flag Psw.T = true then takeInterruption u .takenBranch .none
        else u))) ∧
  (∀ (s : State) (t : BitVec 5) (im21 : BitVec 21), s.atEndOfSpace = false →
    ∃ u, AsIn (s.writeGr t (leftImmediate im21)) u ∧ Ended s u false false (s.iaoqBack + 4) s.iasqBack ∧ SameRequests s u ∧ SamePsw s u ∧
      (s.priv < s.iaoqBack.extractLsb' 0 2 → s.flag Psw.L = true →
        exec (.ldil t im21) s = .next (takeInterruption u .lowerPrivilegeTransfer .none)) ∧
      (s.iaoqBack.extractLsb' 0 2 < s.priv → s.flag Psw.H = true →
        exec (.ldil t im21) s = .next (takeInterruption u .higherPrivilegeTransfer .none)) ∧
      ((s.priv < s.iaoqBack.extractLsb' 0 2 → s.flag Psw.L = false) →
        (s.iaoqBack.extractLsb' 0 2 < s.priv → s.flag Psw.H = false) → exec (.ldil t im21) s = .next u)) ∧
  (∀ (s : State) (t : BitVec 5) (im21 : BitVec 21), s.atEndOfSpace = true → exec (.ldil t im21) s = .refused .endOfSpace) ∧
  (∀ (s : State) (b x : BitVec 5) (n : BitVec 1), s.flag Psw.L = false → s.flag Psw.H = false → s.flag Psw.T = true →
    s.pastEnd (s.readGr b) (s.readGr x <<< 3) 0 = false →
    ∃ u, AsIn s u ∧ Ended s u (isSet n) true (s.baseTarget (s.readGr b) (s.readGr x <<< 3)) s.iasqBack ∧ SameRequests s u ∧ SamePsw s u ∧
      exec (.bv b x n) s = .next (takeInterruption u .takenBranch .none)) ∧
  (∀ (s : State) (r im5 : BitVec 5) (c : BitVec 3) (w1 : BitVec 11) (n w : BitVec 1) (disp : Dword), s.flag Psw.L = false → s.flag Psw.H = false →
    s.flag Psw.T = true → disp = (assemble12 w1 w).signExtend 64 <<< 2 → shiftCondition c false (lowSignExt im5) = true →
    s.pastEnd s.iaoqFront disp 8 = false →
    ∃ u, AsIn (s.writeGr r (lowSignExt im5)) u ∧ u.iaoqBack = s.iaoqFront + disp + 8 ∧
      exec (.movib r im5 c w1 n w) s = .next (takeInterruption u .takenBranch .none))

/-! ### Privilege -/

/-- Above privilege level 0 the privileged instructions take the privileged operation trap, and the instructions that name a privileged
register the privileged register trap; nothing else happens (60_exceptions.md R1002, interruptions 10 and 11). That MFCTL,W of a privileged register, which is undefined
(D17), takes that trap too is the model's choice: no rule says where the undefined form stands among the checks (DESIGN CHOICE, log entry 46). -/
def Obligations.PrivilegedTraps : Prop :=
  ∀ s : State, s.priv ≠ 0#2 →
    (∀ b im5 a cc m t, Traps (.ldwaShort b im5 a cc m t) s .privilegedOperation .instr) ∧
    (∀ b x u cc m t, Traps (.ldwaIndexed b x u cc m t) s .privilegedOperation .instr) ∧
    (∀ b im5 a cc m t, Traps (.lddaShort b im5 a cc m t) s .privilegedOperation .instr) ∧
    (∀ b x u cc m t, Traps (.lddaIndexed b x u cc m t) s .privilegedOperation .instr) ∧
    (∀ b r a cc m im5, Traps (.stwa b r a cc m im5) s .privilegedOperation .instr) ∧
    (∀ b r a cc m im5, Traps (.stda b r a cc m im5) s .privilegedOperation .instr) ∧
    (∀ im26, Traps (.diag im26) s .privilegedOperation .instr) ∧
    (∀ iv t, Traps (.ssm iv t) s .privilegedOperation .instr) ∧
    (∀ iv t, Traps (.rsm iv t) s .privilegedOperation .instr) ∧
    (∀ r, Traps (.mtsm r) s .privilegedOperation .instr) ∧
    Traps .rfi s .privilegedOperation .instr ∧ Traps .rfiR s .privilegedOperation .instr ∧
    (∀ b x sr m, Traps (.pdtlb b x sr m) s .privilegedOperation .instr) ∧
    (∀ b x sr m, Traps (.pdtlbL b x sr m) s .privilegedOperation .instr) ∧
    (∀ b x sr m, Traps (.pdtlbe b x sr m) s .privilegedOperation .instr) ∧
    (∀ b x sr m, Traps (.pitlb b x sr m) s .privilegedOperation .instr) ∧
    (∀ b x sr m, Traps (.pitlbL b x sr m) s .privilegedOperation .instr) ∧
    (∀ b x sr m, Traps (.pitlbe b x sr m) s .privilegedOperation .instr) ∧
    (∀ r2 r1, Traps (.idtlbt r2 r1) s .privilegedOperation .instr) ∧
    (∀ r2 r1, Traps (.iitlbt r2 r1) s .privilegedOperation .instr) ∧
    (∀ b x sr t, Traps (.lci b x sr t) s .privilegedOperation .instr) ∧
    (∀ b x sr m t, Traps (.lpa b x sr m t) s .privilegedOperation .instr) ∧
    (∀ r sr, 5 ≤ (assemble3 sr).toNat → Traps (.mtsp r sr) s .privilegedRegister .instr) ∧
    (∀ t r, t = 0#5 ∨ (8 ≤ t.toNat ∧ t ≠ 11#5) → Traps (.mtctl t r) s .privilegedRegister .instr) ∧
    (∀ r e t, r = 0#5 ∨ (8 ≤ r.toNat ∧ r ≠ 11#5 ∧ r ≠ 26#5 ∧ r ≠ 27#5 ∧ (r ≠ 16#5 ∨ s.flag Psw.S = true)) →
      Traps (.mfctl r e t) s .privilegedRegister .instr)

/-- Above privilege level 0 no instruction changes the state that privileged software protects itself with: the protection
identifiers, the configuration bits, the vector address, the interrupt mask, the timer's comparison register, the temporary registers,
SR 5 to 7, the TLBs and the default bits; and unless it enters an interruption handler it leaves the system mask
(10_state.md R47). -/
def Obligations.UserModeConfined : Prop :=
  ∀ (i : Instr) (s t : State), s.priv ≠ 0#2 → exec i s = .next t →
    t.pid12 = s.pid12 ∧ t.pid34 = s.pid34 ∧ t.pid56 = s.pid56 ∧ t.pid78 = s.pid78 ∧ t.scr = s.scr ∧ t.ccr = s.ccr ∧
    t.iva = s.iva ∧ t.eiem = s.eiem ∧ t.itmrCompare = s.itmrCompare ∧ t.tr = s.tr ∧
    (∀ n : BitVec 3, 5 ≤ n.toNat → t.readSr n = s.readSr n) ∧ t.itlb = s.itlb ∧ t.dtlb = s.dtlb ∧
    t.defaultWidth = s.defaultWidth ∧ t.defaultEndian = s.defaultEndian ∧
    (t.psw &&& Psw.systemMask = s.psw &&& Psw.systemMask ∨ ∃ u n p, t = takeInterruption u n p)

/-! ### Memory and addresses -/

/-- What a load of 1, 2, 4 or 8 bytes reads: the bytes from the address upward, most significant first, or least significant first when
PSW[E] = 1, right-aligned. A store writes the rightmost bytes of the value in that order and no other byte, and a load of the same place then reads
the value (20_memory.md R141, R143). The canonical form is the model's own: two memories in it that read alike are the same list. -/
def Obligations.MemoryBytes : Prop :=
  (∀ (m : Memory) (a : Nat),
    m.load false a 1 = (m.get a).zeroExtend 64 ∧ m.load true a 1 = (m.get a).zeroExtend 64 ∧
    m.load false a 2 = (m.get a ++ m.get (a + 1)).zeroExtend 64 ∧ m.load true a 2 = (m.get (a + 1) ++ m.get a).zeroExtend 64 ∧
    m.load false a 4 = (m.get a ++ m.get (a + 1) ++ m.get (a + 2) ++ m.get (a + 3)).zeroExtend 64 ∧
    m.load true a 4 = (m.get (a + 3) ++ m.get (a + 2) ++ m.get (a + 1) ++ m.get a).zeroExtend 64 ∧
    m.load false a 8 = m.get a ++ m.get (a + 1) ++ m.get (a + 2) ++ m.get (a + 3) ++ m.get (a + 4) ++ m.get (a + 5) ++
      m.get (a + 6) ++ m.get (a + 7) ∧
    m.load true a 8 = m.get (a + 7) ++ m.get (a + 6) ++ m.get (a + 5) ++ m.get (a + 4) ++ m.get (a + 3) ++ m.get (a + 2) ++
      m.get (a + 1) ++ m.get a) ∧
  (∀ (m : Memory) (little : Bool) (a n : Nat) (v : Dword), m.wf = true → n ≤ 8 →
    (∀ k, k < n → (m.store little a n v).get (a + k) = byteOf little n k v) ∧
    (∀ b, (b < a ∨ a + n ≤ b) → (m.store little a n v).get b = m.get b) ∧
    (m.store little a n v).load little a n = BitVec.ofNat 64 (v.toNat % 2 ^ (8 * n))) ∧
  (∀ m m' : Memory, m.wf = true → m'.wf = true → (∀ a, m.get a = m'.get a) → m = m')

/-- The physical address of an absolute address (20_memory.md R161, R162): with PSW[W] = 0 its low word, the addresses from F1000000 up in
I/O space; with PSW[W] = 1 its low 62 bits, bits 2 to 5 being 1111 for PDC and I/O addresses. The model's choice of the PDC mapping bits is
Config's. -/
def Obligations.AbsoluteAddresses : Prop :=
  ∀ (s : State) (o : Dword),
    (s.flag Psw.W = false → (low32 o).toNat < 0xF0000000 →
      s.absolute o = low32 o ∧ region (s.absolute o) = .memory) ∧
    (s.flag Psw.W = false → 0xF1000000 ≤ (low32 o).toNat →
      s.absolute o = 0xFFFFFFFF00000000#64 ||| low32 o ∧ region (s.absolute o) = .io) ∧
    (s.flag Psw.W = false → 0xF0000000 ≤ (low32 o).toNat → (low32 o).toNat < 0xF1000000 → region (s.absolute o) = .pdc) ∧
    (s.flag Psw.W = true → o.extractLsb' 58 4 ≠ 0xF#4 →
      s.absolute o = o &&& 0x3FFFFFFFFFFFFFFF#64 ∧ region (s.absolute o) = .memory) ∧
    (s.flag Psw.W = true → o.extractLsb' 54 8 = 0xF0#8 → region (s.absolute o) = .pdc) ∧
    (s.flag Psw.W = true → o.extractLsb' 58 4 = 0xF#4 → o.extractLsb' 54 8 ≠ 0xF0#8 →
      s.absolute o = o ||| 0xC000000000000000#64 ∧ region (s.absolute o) = .io)

/-- A low-sign-extended immediate's rightmost bit is its sign (30_encoding.md R326), and a long displacement is the number that its fields make, which with PSW[W] = 1
takes two more bits from the s field (00_scope.md R15). A space register number, an extract or deposit length, a branch displacement in bytes and the immediate of LDIL and
ADDIL are the numbers that their fields make (30_encoding.md R327 to R329, R332, R333). The address and the base register's new value in every format (40_memory_reference.md R402, R404): m = 0 leaves
the base; m = 1 modifies it before (a = 1) or after the access; an index is shifted when u = 1 and modifies after; the long forms of
opcodes 13 and 1B modify before when the displacement is negative, those of Format 2 when it is not. STBY and STDBY address as a short displacement does, and their modified
base is truncated to the datum's alignment (R435, R436); the long floating-point formats modify as their opcode says (50_fp_instructions.md R871). -/
def Obligations.EffectiveAddresses : Prop :=
  ((∀ x : BitVec 5, (lowSignExt x).toInt = (x.toNat / 2 : Nat) - (if x.getLsbD 0 then 16 else 0)) ∧
  (∀ x : BitVec 11, (lowSignExt x).toInt = (x.toNat / 2 : Nat) - (if x.getLsbD 0 then 1024 else 0))) ∧
  ((∀ x : BitVec 3, (assemble3 x).toNat = 4 * (x.toNat % 2) + x.toNat / 2) ∧
  (∀ (cl : BitVec 1) (clen : BitVec 5), (assemble6 cl clen : Int) = 32 * cl.toNat + 32 - clen.toNat) ∧
  (∀ (w1 : BitVec 11) (w : BitVec 1), ((assemble12 w1 w).signExtend 64 <<< 2 : Dword).toInt =
    4 * ((w1.toNat / 2 + 1024 * (w1.toNat % 2) : Nat) - (if w = 1#1 then 2048 else 0))) ∧
  (∀ (w1 : BitVec 5) (w2 : BitVec 11) (w : BitVec 1), ((assemble17 w1 w2 w).signExtend 64 <<< 2 : Dword).toInt =
    4 * ((w2.toNat / 2 + 1024 * (w2.toNat % 2) + 2048 * w1.toNat : Nat) - (if w = 1#1 then 65536 else 0))) ∧
  (∀ (w3 w1 : BitVec 5) (w2 : BitVec 11) (w : BitVec 1), ((assemble22 w3 w1 w2 w).signExtend 64 <<< 2 : Dword).toInt =
    4 * ((w2.toNat / 2 + 1024 * (w2.toNat % 2) + 2048 * w1.toNat + 65536 * w3.toNat : Nat) - (if w = 1#1 then 2097152 else 0))) ∧
  (∀ x : BitVec 21, (((assemble21 x ++ 0#11 : BitVec 32)).signExtend 64).toInt =
    2048 * ((x.toNat / 4096 % 4 + 4 * (x.toNat / 65536) + 128 * (x.toNat / 16384 % 4) + 512 * (x.toNat / 2 % 2048) : Nat) -
      (if x.getLsbD 0 then 1048576 else 0)))) ∧
  (∀ (s : State) (sr : BitVec 2) (im14 : BitVec 14) (im11a : BitVec 11) (im10a : BitVec 10) (iv z : BitVec 1), z = im14.extractLsb' 0 1 →
    (s.flag Psw.W = false →
      (s.disp14 sr im14).toInt = (im14.toNat / 2 : Nat) - (if z = 1#1 then 8192 else 0) ∧
      (s.disp11 sr im11a iv).toInt = (4 * im11a.toNat : Nat) - (if iv = 1#1 then 8192 else 0) ∧
      (s.disp10 sr im10a iv).toInt = (8 * im10a.toNat : Nat) - (if iv = 1#1 then 8192 else 0)) ∧
    (s.flag Psw.W = true →
      (s.disp14 sr im14).toInt = (im14.toNat / 2 + 8192 * ((z ++ z) ^^^ sr).toNat : Nat) - (if z = 1#1 then 32768 else 0) ∧
      (s.disp11 sr im11a iv).toInt = (4 * im11a.toNat + 8192 * ((iv ++ iv) ^^^ sr).toNat : Nat) - (if iv = 1#1 then 32768 else 0) ∧
      (s.disp10 sr im10a iv).toInt = (8 * im10a.toNat + 8192 * ((iv ++ iv) ^^^ sr).toNat : Nat) - (if iv = 1#1 then 32768 else 0))) ∧
  (∀ (s : State) (b im5 : BitVec 5) (sr : BitVec 2) (im11a : BitVec 11) (a iv : BitVec 1) (n : Dword), n = 4#64 ∨ n = 8#64 →
    (s.partialEa n b im5 sr a 0#1).offset = s.readGr b + lowSignExt im5 ∧ (s.partialEa n b im5 sr a 0#1).newBase = none ∧
    (s.partialEa n b im5 sr 0#1 1#1).offset = s.readGr b ∧
    (s.partialEa n b im5 sr 1#1 1#1).offset = s.readGr b + lowSignExt im5 ∧
    (∃ v, (s.partialEa n b im5 sr a 1#1).newBase = some v ∧
      v.toNat = (s.readGr b + lowSignExt im5).toNat / n.toNat * n.toNat) ∧
    (s.fpLongEa b sr im11a iv .none).offset = s.readGr b + s.disp11 sr im11a iv ∧ (s.fpLongEa b sr im11a iv .none).newBase = none ∧
    (s.fpLongEa b sr im11a iv .before).offset = s.readGr b + s.disp11 sr im11a iv ∧
    (s.fpLongEa b sr im11a iv .before).newBase = some (s.readGr b + s.disp11 sr im11a iv) ∧
    (s.fpLongEa b sr im11a iv .after).offset = s.readGr b ∧
    (s.fpLongEa b sr im11a iv .after).newBase = some (s.readGr b + s.disp11 sr im11a iv)) ∧
  (∀ (s : State) (b x im5 : BitVec 5) (sr : BitVec 2) (im14 : BitVec 14) (im11a : BitVec 11) (im10a : BitVec 10)
      (a u iv : BitVec 1) (shift : Nat),
    (s.shortEa b im5 sr a 0#1).offset = s.readGr b + lowSignExt im5 ∧ (s.shortEa b im5 sr a 0#1).newBase = none ∧
    (s.shortEa b im5 sr 1#1 1#1).offset = s.readGr b + lowSignExt im5 ∧
    (s.shortEa b im5 sr 1#1 1#1).newBase = some (s.readGr b + lowSignExt im5) ∧
    (s.shortEa b im5 sr 0#1 1#1).offset = s.readGr b ∧
    (s.shortEa b im5 sr 0#1 1#1).newBase = some (s.readGr b + lowSignExt im5) ∧
    (s.indexedEa b x sr u 0#1 shift).offset = s.readGr b + (if u = 1#1 then s.readGr x <<< shift else s.readGr x) ∧
    (s.indexedEa b x sr u 0#1 shift).newBase = none ∧
    (s.indexedEa b x sr u 1#1 shift).offset = s.readGr b ∧
    (s.indexedEa b x sr u 1#1 shift).newBase = some (s.readGr b + (if u = 1#1 then s.readGr x <<< shift else s.readGr x)) ∧
    (s.longEa b sr im14).offset = s.readGr b + s.disp14 sr im14 ∧ (s.longEa b sr im14).newBase = none ∧
    (s.longModifyEa b sr im14).newBase = some (s.readGr b + s.disp14 sr im14) ∧
    (s.longModifyEa b sr im14).offset = (if (s.disp14 sr im14).toInt < 0 then s.readGr b + s.disp14 sr im14 else s.readGr b) ∧
    (s.long11Ea b sr im11a iv).newBase = some (s.readGr b + s.disp11 sr im11a iv) ∧
    (s.long11Ea b sr im11a iv).offset = (if (s.disp11 sr im11a iv).toInt < 0 then s.readGr b else s.readGr b + s.disp11 sr im11a iv) ∧
    (s.long10Ea b sr im10a 0#1 a iv).offset = s.readGr b + s.disp10 sr im10a iv ∧
    (s.long10Ea b sr im10a 1#1 1#1 iv).offset = s.readGr b + s.disp10 sr im10a iv ∧
    (s.long10Ea b sr im10a 1#1 0#1 iv).offset = s.readGr b ∧
    (s.long10Ea b sr im10a 0#1 a iv).newBase = none ∧
    (s.long10Ea b sr im10a 1#1 a iv).newBase = some (s.readGr b + s.disp10 sr im10a iv))

/-- The space of a reference (20_memory.md R157): SR 4 to 7 by the two selector bits of the base register when the s field is 0 or the
displacement is long with PSW[W] = 1; else the register s names, which with PSW[W] = 1 above level 0 is undefined. With data translation
disabled no space is selected, so an explicit one above level 0 is no undefined operation there: the offset alone decides (DEDUCED, log entry 29). -/
def Obligations.SpaceSelection : Prop :=
  ∀ (s : State) (sr : BitVec 2) (base : Dword) (long : Bool),
    (s.flag Psw.W = false → s.spaceSelect 0#2 base long = .ok (s.readSr (1#1 ++ base.extractLsb' 30 2))) ∧
    (s.flag Psw.W = true → s.spaceSelect 0#2 base long = .ok (s.readSr (1#1 ++ base.extractLsb' 62 2))) ∧
    (s.flag Psw.W = true → s.spaceSelect sr base true = .ok (s.readSr (1#1 ++ base.extractLsb' 62 2))) ∧
    (sr ≠ 0#2 → s.flag Psw.W = false → s.spaceSelect sr base long = .ok (s.readSr (0#1 ++ sr))) ∧
    (sr ≠ 0#2 → s.flag Psw.W = true → s.priv = 0#2 → s.spaceSelect sr base false = .ok (s.readSr (0#1 ++ sr))) ∧
    (sr ≠ 0#2 → s.flag Psw.W = true → s.priv ≠ 0#2 → s.spaceSelect sr base false = .error (.refuse .explicitSpace)) ∧
    (∀ (e : Ea) (a : DataAddr), s.flag Psw.D = false → e.resolve s = .ok a → a.offset = e.offset) ∧
    (∀ (e : Ea), s.flag Psw.D = false → ∃ a, e.resolve s = .ok a) ∧
    (∀ (k : RefKind) (w w' base' offset : Dword) (n : Nat), s.flag Psw.D = false →
      s.check k ⟨w, offset, base⟩ n = s.check k ⟨w', offset, base'⟩ n)

/-- The interruptions of a translated data reference, in their order (21_translation.md R266): for a load, a store and a semaphore of every size the first check that fails, with a semaphore
needing both rights and never unaligned, and, when none fails, the place (used unmapped, log entry 55; a page of I/O space with U = 0 is undefined, 20_memory.md R166). Every load, store,
semaphore and partial store, in each of its address forms, takes the interruption of its check, its parameters naming the address, and does nothing else; LDW and STW say so for each. A semaphore
off its 16 bytes is undefined before them (20_memory.md R146; log entry 30). A load to general register 0 is a prefetch and checks nothing (log entry 28). -/
def Obligations.DataReferenceTraps : Prop :=
  (∀ (s : State) (k : RefKind) (d : DataAddr) (n : Nat) (r p : Prop) (off : Dword) (x : Interruption → Res Place), s.flag Psw.D = true →
    off = s.usedOffset d.offset → (∀ i, x i = .error (.trap i (.data d))) →
    (tlbLookup s.dtlb (s.gva d.space d.offset) = none → s.check k d n = x .dataTlbMiss) ∧
    (∀ e, tlbLookup s.dtlb (s.gva d.space d.offset) = some e →
      (r ↔ (k = .store ∨ rightsOk e.rights .read s.priv = true) ∧ (k = .load ∨ rightsOk e.rights .write s.priv = true)) →
      (p ↔ (k = .store ∨ s.pidOk e.accessId .read = true) ∧ (k = .load ∨ s.pidOk e.accessId .write = true)) →
      (¬r → s.check k d n = x .dataMemoryAccessRights) ∧
      (r → ¬p → s.check k d n = x .dataMemoryProtectionId) ∧
      (r → p → k ≠ .semaphore → off.toNat % n ≠ 0 → s.check k d n = x .unalignedDataReference) ∧
      (r → p → k = .semaphore ∨ off.toNat % n = 0 →
        (k ≠ .load → e.b = true → s.flag Psw.X = false → s.check k d n = x .dataMemoryBreak) ∧
        (k = .load ∨ e.b = false ∨ s.flag Psw.X = true →
          (k ≠ .load → e.d = false → s.check k d n = x .tlbDirtyBit) ∧
          (k = .load ∨ e.d = true →
            (e.t = true → s.check k d n = x .pageReference) ∧
            (e.t = false → region (e.translate off) = .io → e.u = false → s.check k d n = .error (.refuse .cacheableIoPage)) ∧
            (e.t = false → region (e.translate off) ≠ .io ∨ e.u = true → s.check k d n = .ok ⟨e.translate off, e.u⟩)))))) ∧
  (∀ (s : State) (b r x im5 : BitVec 5) (sr cc : BitVec 2) (im14 : BitVec 14) (im11a : BitVec 11) (im10a : BitVec 10) (a m u iv : BitVec 1),
    (r ≠ 0#5 →
      TakesCheck .load 1 s (s.longEa b sr im14) (.ldbLong b r sr im14) ∧
      TakesCheck .load 2 s (s.longEa b sr im14) (.ldhLong b r sr im14) ∧
      TakesCheck .load 4 s (s.longEa b sr im14) (.ldwLong b r sr im14) ∧
      TakesCheck .load 4 s (s.longModifyEa b sr im14) (.ldwLongMod b r sr im14) ∧
      TakesCheck .load 4 s (s.long11Ea b sr im11a iv) (.ldwLong11 b r sr im11a iv) ∧
      TakesCheck .load 8 s (s.long10Ea b sr im10a m a iv) (.lddLong b r sr im10a m a iv) ∧
      TakesCheck .load 1 s (s.shortEa b im5 sr a m) (.ldbShort b im5 sr a cc m r) ∧
      TakesCheck .load 2 s (s.shortEa b im5 sr a m) (.ldhShort b im5 sr a cc m r) ∧
      TakesCheck .load 4 s (s.shortEa b im5 sr a m) (.ldwShort b im5 sr a cc m r) ∧
      TakesCheck .load 8 s (s.shortEa b im5 sr a m) (.lddShort b im5 sr a cc m r) ∧
      TakesCheck .load 1 s (s.indexedEa b x sr u m 0) (.ldbIndexed b x sr u cc m r) ∧
      TakesCheck .load 2 s (s.indexedEa b x sr u m 1) (.ldhIndexed b x sr u cc m r) ∧
      TakesCheck .load 4 s (s.indexedEa b x sr u m 2) (.ldwIndexed b x sr u cc m r) ∧
      TakesCheck .load 8 s (s.indexedEa b x sr u m 3) (.lddIndexed b x sr u cc m r)) ∧
    TakesCheck .store 1 s (s.longEa b sr im14) (.stbLong b r sr im14) ∧
    TakesCheck .store 2 s (s.longEa b sr im14) (.sthLong b r sr im14) ∧
    TakesCheck .store 4 s (s.longEa b sr im14) (.stwLong b r sr im14) ∧
    TakesCheck .store 4 s (s.longModifyEa b sr im14) (.stwLongMod b r sr im14) ∧
    TakesCheck .store 4 s (s.long11Ea b sr im11a iv) (.stwLong11 b r sr im11a iv) ∧
    TakesCheck .store 8 s (s.long10Ea b sr im10a m a iv) (.stdLong b r sr im10a m a iv) ∧
    TakesCheck .store 1 s (s.shortEa b im5 sr a m) (.stbShort b r sr a cc m im5) ∧
    TakesCheck .store 2 s (s.shortEa b im5 sr a m) (.sthShort b r sr a cc m im5) ∧
    TakesCheck .store 4 s (s.shortEa b im5 sr a m) (.stwShort b r sr a cc m im5) ∧
    TakesCheck .store 8 s (s.shortEa b im5 sr a m) (.stdShort b r sr a cc m im5) ∧
    TakesCheck .store 1 s (s.partialEa 4 b im5 sr a m) (.stby b r sr a cc m im5) ∧
    TakesCheck .store 1 s (s.partialEa 8 b im5 sr a m) (.stdby b r sr a cc m im5) ∧
    TakesSemaphoreCheck 4 s (s.shortEa b im5 sr a m) (.ldcwShort b im5 sr a cc m r) ∧
    TakesSemaphoreCheck 8 s (s.shortEa b im5 sr a m) (.ldcdShort b im5 sr a cc m r) ∧
    TakesSemaphoreCheck 4 s (s.indexedEa b x sr u m 3) (.ldcwIndexed b x sr u cc m r) ∧
    TakesSemaphoreCheck 8 s (s.indexedEa b x sr u m 3) (.ldcdIndexed b x sr u cc m r)) ∧
  (∀ (s : State) (b r im5 : BitVec 5) (sr : BitVec 2) (a m : BitVec 1) (cc : BitVec 2) (d : DataAddr),
    s.flag Psw.D = true → (s.shortEa b im5 sr a m).resolve s = .ok d →
    (tlbLookup s.dtlb (s.gva d.space d.offset) = none →
      (r ≠ 0#5 → Traps (.ldwShort b im5 sr a cc m r) s .dataTlbMiss (.data d)) ∧
      Traps (.stwShort b r sr a cc m im5) s .dataTlbMiss (.data d)) ∧
    (∀ e, tlbLookup s.dtlb (s.gva d.space d.offset) = some e →
      (rightsOk e.rights .read s.priv = false → r ≠ 0#5 →
        Traps (.ldwShort b im5 sr a cc m r) s .dataMemoryAccessRights (.data d)) ∧
      (rightsOk e.rights .write s.priv = false → Traps (.stwShort b r sr a cc m im5) s .dataMemoryAccessRights (.data d)) ∧
      (rightsOk e.rights .read s.priv = true → s.pidOk e.accessId .read = false → r ≠ 0#5 →
        Traps (.ldwShort b im5 sr a cc m r) s .dataMemoryProtectionId (.data d)) ∧
      (rightsOk e.rights .write s.priv = true → s.pidOk e.accessId .write = false →
        Traps (.stwShort b r sr a cc m im5) s .dataMemoryProtectionId (.data d)) ∧
      (rightsOk e.rights .read s.priv = true → s.pidOk e.accessId .read = true → (s.usedOffset d.offset).toNat % 4 ≠ 0 → r ≠ 0#5 →
        Traps (.ldwShort b im5 sr a cc m r) s .unalignedDataReference (.data d)) ∧
      (rightsOk e.rights .write s.priv = true → s.pidOk e.accessId .write = true → (s.usedOffset d.offset).toNat % 4 ≠ 0 →
        Traps (.stwShort b r sr a cc m im5) s .unalignedDataReference (.data d)) ∧
      (rightsOk e.rights .write s.priv = true → s.pidOk e.accessId .write = true → (s.usedOffset d.offset).toNat % 4 = 0 →
        (e.b = true → s.flag Psw.X = false → Traps (.stwShort b r sr a cc m im5) s .dataMemoryBreak (.data d)) ∧
        ((e.b && !(s.flag Psw.X)) = false →
          (e.d = false → Traps (.stwShort b r sr a cc m im5) s .tlbDirtyBit (.data d)) ∧
          (e.d = true → e.t = true → Traps (.stwShort b r sr a cc m im5) s .pageReference (.data d)))) ∧
      (rightsOk e.rights .read s.priv = true → s.pidOk e.accessId .read = true → (s.usedOffset d.offset).toNat % 4 = 0 →
        e.t = true → r ≠ 0#5 → Traps (.ldwShort b im5 sr a cc m r) s .pageReference (.data d))))

/-- The access rights of a page (21_translation.md R254): reading needs a type of 0 to 3 and a level at most PL1, writing a type of 1 or 3
and a level at most PL2, executing a type of 2 to 7 and a level between PL2 and PL1. -/
def Obligations.AccessRights : Prop :=
  ∀ (type : BitVec 3) (pl1 pl2 level : BitVec 2),
    (rightsOk (type ++ pl1 ++ pl2) .read level = true ↔ type.toNat ≤ 3 ∧ level.toNat ≤ pl1.toNat) ∧
    (rightsOk (type ++ pl1 ++ pl2) .write level = true ↔ (type = 1#3 ∨ type = 3#3) ∧ level.toNat ≤ pl2.toNat) ∧
    (rightsOk (type ++ pl1 ++ pl2) .execute level = true ↔ 2 ≤ type.toNat ∧ pl2.toNat ≤ level.toNat ∧ level.toNat ≤ pl1.toNat)

/-- An absolute data reference (PSW[D] = 0) that is aligned reaches the absolute address's place, an unaligned one is undefined
(20_memory.md R146, R160); a translated one that passes every check reaches the page's place (21_translation.md R246; used unmapped, DEDUCED, log entry 55). -/
def Obligations.DataReferencePlace : Prop :=
  ∀ (s : State) (k : RefKind) (d : DataAddr) (n : Nat),
    (s.flag Psw.D = false → (s.usedOffset d.offset).toNat % n = 0 →
      s.check k d n = .ok ⟨s.absolute (s.usedOffset d.offset), false⟩) ∧
    (s.flag Psw.D = false → (s.usedOffset d.offset).toNat % n ≠ 0 → s.check k d n = .error (.refuse .unalignedAbsolute)) ∧
    (∀ e, s.flag Psw.D = true → tlbLookup s.dtlb (s.gva d.space d.offset) = some e →
      (∀ x ∈ k.accesses, rightsOk e.rights x s.priv = true ∧ s.pidOk e.accessId x = true) →
      (s.usedOffset d.offset).toNat % n = 0 → e.t = false →
      (k = .load ∨ (e.d = true ∧ (e.b = false ∨ s.flag Psw.X = true))) →
      region (e.translate (s.usedOffset d.offset)) = .memory →
      s.check k d n = .ok ⟨e.translate (s.usedOffset d.offset), e.u⟩)

/-! ### Loads and stores of the general registers -/

/-- LDB, LDH, LDW, LDD in every format (40_memory_reference.md R402, R410 to R413): the datum to GR[t], after the base register's
modification. With t = 0 a load is a prefetch: it takes no trap, reads nothing and only modifies the base register (R405); that its space is not selected, so that an explicit one above
level 0 with PSW[W] = 1 is no undefined operation there, is the model's reading (DEDUCED, log entry 28). -/
def Obligations.Loads : Prop :=
  ∀ (s : State) (b t x im5 : BitVec 5) (sr cc : BitVec 2) (im14 : BitVec 14) (im11a : BitVec 11) (im10a : BitVec 10)
      (a m u iv : BitVec 1), Plain s →
   (∀ pa : Nat, t ≠ 0#5 →
    (Reaches s .load (s.longEa b sr im14) 1 pa →
      Completes (.ldbLong b t sr im14) s (s.writeGr t (s.mem.load (s.flag Psw.E) pa 1)) false) ∧
    (Reaches s .load (s.longEa b sr im14) 2 pa →
      Completes (.ldhLong b t sr im14) s (s.writeGr t (s.mem.load (s.flag Psw.E) pa 2)) false) ∧
    (Reaches s .load (s.longEa b sr im14) 4 pa →
      Completes (.ldwLong b t sr im14) s (s.writeGr t (s.mem.load (s.flag Psw.E) pa 4)) false) ∧
    (Reaches s .load (s.longModifyEa b sr im14) 4 pa →
      Completes (.ldwLongMod b t sr im14) s
        ((s.writeGr b (s.readGr b + s.disp14 sr im14)).writeGr t (s.mem.load (s.flag Psw.E) pa 4)) false) ∧
    (Reaches s .load (s.long11Ea b sr im11a iv) 4 pa →
      Completes (.ldwLong11 b t sr im11a iv) s
        ((s.writeGr b (s.readGr b + s.disp11 sr im11a iv)).writeGr t (s.mem.load (s.flag Psw.E) pa 4)) false) ∧
    (Reaches s .load (s.long10Ea b sr im10a m a iv) 8 pa →
      Completes (.lddLong b t sr im10a m a iv) s
        (((s.long10Ea b sr im10a m a iv).writeBack s).writeGr t (s.mem.load (s.flag Psw.E) pa 8)) false) ∧
    (Reaches s .load (s.shortEa b im5 sr a m) 1 pa →
      Completes (.ldbShort b im5 sr a cc m t) s
        (((s.shortEa b im5 sr a m).writeBack s).writeGr t (s.mem.load (s.flag Psw.E) pa 1)) false) ∧
    (Reaches s .load (s.shortEa b im5 sr a m) 2 pa →
      Completes (.ldhShort b im5 sr a cc m t) s
        (((s.shortEa b im5 sr a m).writeBack s).writeGr t (s.mem.load (s.flag Psw.E) pa 2)) false) ∧
    (Reaches s .load (s.shortEa b im5 sr a m) 4 pa →
      Completes (.ldwShort b im5 sr a cc m t) s
        (((s.shortEa b im5 sr a m).writeBack s).writeGr t (s.mem.load (s.flag Psw.E) pa 4)) false) ∧
    (Reaches s .load (s.shortEa b im5 sr a m) 8 pa →
      Completes (.lddShort b im5 sr a cc m t) s
        (((s.shortEa b im5 sr a m).writeBack s).writeGr t (s.mem.load (s.flag Psw.E) pa 8)) false) ∧
    (Reaches s .load (s.indexedEa b x sr u m 0) 1 pa →
      Completes (.ldbIndexed b x sr u cc m t) s
        (((s.indexedEa b x sr u m 0).writeBack s).writeGr t (s.mem.load (s.flag Psw.E) pa 1)) false) ∧
    (Reaches s .load (s.indexedEa b x sr u m 1) 2 pa →
      Completes (.ldhIndexed b x sr u cc m t) s
        (((s.indexedEa b x sr u m 1).writeBack s).writeGr t (s.mem.load (s.flag Psw.E) pa 2)) false) ∧
    (Reaches s .load (s.indexedEa b x sr u m 2) 4 pa →
      Completes (.ldwIndexed b x sr u cc m t) s
        (((s.indexedEa b x sr u m 2).writeBack s).writeGr t (s.mem.load (s.flag Psw.E) pa 4)) false) ∧
    (Reaches s .load (s.indexedEa b x sr u m 3) 8 pa →
      Completes (.lddIndexed b x sr u cc m t) s
        (((s.indexedEa b x sr u m 3).writeBack s).writeGr t (s.mem.load (s.flag Psw.E) pa 8)) false)) ∧
    Completes (.ldbLong b 0#5 sr im14) s s false ∧
    Completes (.ldhLong b 0#5 sr im14) s s false ∧
    Completes (.ldwLong b 0#5 sr im14) s s false ∧
    Completes (.ldwLongMod b 0#5 sr im14) s (s.writeGr b (s.readGr b + s.disp14 sr im14)) false ∧
    Completes (.ldwLong11 b 0#5 sr im11a iv) s (s.writeGr b (s.readGr b + s.disp11 sr im11a iv)) false ∧
    Completes (.lddLong b 0#5 sr im10a m a iv) s ((s.long10Ea b sr im10a m a iv).writeBack s) false ∧
    Completes (.ldbShort b im5 sr a cc m 0#5) s ((s.shortEa b im5 sr a m).writeBack s) false ∧
    Completes (.ldhShort b im5 sr a cc m 0#5) s ((s.shortEa b im5 sr a m).writeBack s) false ∧
    Completes (.ldwShort b im5 sr a cc m 0#5) s ((s.shortEa b im5 sr a m).writeBack s) false ∧
    Completes (.lddShort b im5 sr a cc m 0#5) s ((s.shortEa b im5 sr a m).writeBack s) false ∧
    Completes (.ldbIndexed b x sr u cc m 0#5) s ((s.indexedEa b x sr u m 0).writeBack s) false ∧
    Completes (.ldhIndexed b x sr u cc m 0#5) s ((s.indexedEa b x sr u m 1).writeBack s) false ∧
    Completes (.ldwIndexed b x sr u cc m 0#5) s ((s.indexedEa b x sr u m 2).writeBack s) false ∧
    Completes (.lddIndexed b x sr u cc m 0#5) s ((s.indexedEa b x sr u m 3).writeBack s) false

/-- STB, STH, STW, STD in every format (40_memory_reference.md R402, R415 to R418): the rightmost bytes of GR[r] at the address the
format forms, every other byte unchanged, then the base register's modification. That the Block Copy hint lets no other byte change is the model's choice (R403, D15, log entry 34).
A word store of STW or STWA to IO_EIR stores no byte and sets the bit of EIRR that the word names (60_exceptions.md R1058, D40; that the address is physical and in I/O space is log entry 48's). -/
def Obligations.StoresComplete : Prop :=
  ∀ (s : State) (b r im5 : BitVec 5) (sr cc : BitVec 2) (im14 : BitVec 14) (im11a : BitVec 11) (im10a : BitVec 10)
      (a m iv : BitVec 1) (pa : Nat), Plain s → s.mem.wf = true →
    (Reaches s .store (s.longEa b sr im14) 1 pa → Stores (.stbLong b r sr im14) s s 1 pa (s.readGr r)) ∧
    (Reaches s .store (s.longEa b sr im14) 2 pa → Stores (.sthLong b r sr im14) s s 2 pa (s.readGr r)) ∧
    (Reaches s .store (s.longEa b sr im14) 4 pa → Stores (.stwLong b r sr im14) s s 4 pa (s.readGr r)) ∧
    (Reaches s .store (s.longModifyEa b sr im14) 4 pa →
      Stores (.stwLongMod b r sr im14) s (s.writeGr b (s.readGr b + s.disp14 sr im14)) 4 pa (s.readGr r)) ∧
    (Reaches s .store (s.long11Ea b sr im11a iv) 4 pa →
      Stores (.stwLong11 b r sr im11a iv) s (s.writeGr b (s.readGr b + s.disp11 sr im11a iv)) 4 pa (s.readGr r)) ∧
    (Reaches s .store (s.long10Ea b sr im10a m a iv) 8 pa →
      Stores (.stdLong b r sr im10a m a iv) s ((s.long10Ea b sr im10a m a iv).writeBack s) 8 pa (s.readGr r)) ∧
    (Reaches s .store (s.shortEa b im5 sr a m) 1 pa →
      Stores (.stbShort b r sr a cc m im5) s ((s.shortEa b im5 sr a m).writeBack s) 1 pa (s.readGr r)) ∧
    (Reaches s .store (s.shortEa b im5 sr a m) 2 pa →
      Stores (.sthShort b r sr a cc m im5) s ((s.shortEa b im5 sr a m).writeBack s) 2 pa (s.readGr r)) ∧
    (Reaches s .store (s.shortEa b im5 sr a m) 4 pa →
      Stores (.stwShort b r sr a cc m im5) s ((s.shortEa b im5 sr a m).writeBack s) 4 pa (s.readGr r)) ∧
    (Reaches s .store (s.shortEa b im5 sr a m) 8 pa →
      Stores (.stdShort b r sr a cc m im5) s ((s.shortEa b im5 sr a m).writeBack s) 8 pa (s.readGr r)) ∧
    (∀ set : State, set = withIoEir s ((s.readGr r).extractLsb' 0 32) →
      (ReachesIoEir s (s.longEa b sr im14) → Completes (.stwLong b r sr im14) s set false) ∧
      (ReachesIoEir s (s.longModifyEa b sr im14) →
        Completes (.stwLongMod b r sr im14) s (set.writeGr b (s.readGr b + s.disp14 sr im14)) false) ∧
      (ReachesIoEir s (s.long11Ea b sr im11a iv) →
        Completes (.stwLong11 b r sr im11a iv) s (set.writeGr b (s.readGr b + s.disp11 sr im11a iv)) false) ∧
      (ReachesIoEir s (s.shortEa b im5 sr a m) → Completes (.stwShort b r sr a cc m im5) s ((s.shortEa b im5 sr a m).writeBack set) false) ∧
      (∀ e off, e = s.shortEa b im5 0#2 a m → off = s.usedOffset e.offset → s.priv = 0#2 → off.toNat % 4 = 0 → region (s.absolute off) = .io →
        s.absolute off = Config.ioEirAddress → Completes (.stwa b r a cc m im5) s (e.writeBack set) false))

/-- LDWA, LDDA, STWA, STDA at privilege level 0 (40_memory_reference.md R420 to R423): an absolute reference whatever PSW[D] is; one off the
datum's alignment is undefined (20_memory.md R146 b). That the Block Copy hint lets no other byte
change is the model's choice (R403, D15, log entry 34). -/
def Obligations.AbsoluteLoadsStores : Prop :=
  ∀ (s : State) (b t r x im5 : BitVec 5) (cc : BitVec 2) (a m u : BitVec 1) (pa : Nat),
    Plain s → s.mem.wf = true → s.priv = 0#2 →
    (s.absolute (s.usedOffset (s.shortEa b im5 0#2 a m).offset) = BitVec.ofNat 64 pa → pa < 0xF000000000000000 →
      ((s.usedOffset (s.shortEa b im5 0#2 a m).offset).toNat % 4 = 0 →
        Completes (.ldwaShort b im5 a cc m t) s
          (((s.shortEa b im5 0#2 a m).writeBack s).writeGr t (s.mem.load (s.flag Psw.E) pa 4)) false ∧
        Stores (.stwa b r a cc m im5) s ((s.shortEa b im5 0#2 a m).writeBack s) 4 pa (s.readGr r)) ∧
      ((s.usedOffset (s.shortEa b im5 0#2 a m).offset).toNat % 8 = 0 →
        Completes (.lddaShort b im5 a cc m t) s
          (((s.shortEa b im5 0#2 a m).writeBack s).writeGr t (s.mem.load (s.flag Psw.E) pa 8)) false ∧
        Stores (.stda b r a cc m im5) s ((s.shortEa b im5 0#2 a m).writeBack s) 8 pa (s.readGr r))) ∧
    ((s.usedOffset (s.indexedEa b x 0#2 u m 2).offset).toNat % 4 = 0 →
      s.absolute (s.usedOffset (s.indexedEa b x 0#2 u m 2).offset) = BitVec.ofNat 64 pa → pa < 0xF000000000000000 →
      Completes (.ldwaIndexed b x u cc m t) s
        (((s.indexedEa b x 0#2 u m 2).writeBack s).writeGr t (s.mem.load (s.flag Psw.E) pa 4)) false) ∧
    ((s.usedOffset (s.indexedEa b x 0#2 u m 3).offset).toNat % 8 = 0 →
      s.absolute (s.usedOffset (s.indexedEa b x 0#2 u m 3).offset) = BitVec.ofNat 64 pa → pa < 0xF000000000000000 →
      Completes (.lddaIndexed b x u cc m t) s
        (((s.indexedEa b x 0#2 u m 3).writeBack s).writeGr t (s.mem.load (s.flag Psw.E) pa 8)) false) ∧
    ((s.usedOffset (s.shortEa b im5 0#2 a m).offset).toNat % 4 ≠ 0 →
      exec (.ldwaShort b im5 a cc m t) s = .refused .unalignedAbsolute ∧ exec (.stwa b r a cc m im5) s = .refused .unalignedAbsolute) ∧
    ((s.usedOffset (s.shortEa b im5 0#2 a m).offset).toNat % 8 ≠ 0 →
      exec (.lddaShort b im5 a cc m t) s = .refused .unalignedAbsolute ∧ exec (.stda b r a cc m im5) s = .refused .unalignedAbsolute) ∧
    ((s.usedOffset (s.indexedEa b x 0#2 u m 2).offset).toNat % 4 ≠ 0 → exec (.ldwaIndexed b x u cc m t) s = .refused .unalignedAbsolute) ∧
    ((s.usedOffset (s.indexedEa b x 0#2 u m 3).offset).toNat % 8 ≠ 0 → exec (.lddaIndexed b x u cc m t) s = .refused .unalignedAbsolute)

/-- LDCW and LDCD on a 16-byte-aligned cacheable memory address: GR[t] receives the word or doubleword, whose bytes become 0
(40_memory_reference.md R430 to R432); a semaphore used with another cache hint than before is undefined (20_memory.md R210 e), a Reserved
code being no hint (R403). The model's choices: with t = 0 the
word is cleared too (LDC_GR0_IS_PREFETCH false, R432, log entries 16 and 30), and the hint of a semaphore is the one its physical address was first used with, for
good (log entry 58); but for that the cache hint makes no difference (log entry 34). -/
def Obligations.Semaphores : Prop :=
  ∀ (s : State) (b t x im5 : BitVec 5) (sr cc : BitVec 2) (a m u : BitVec 1) (pa : Nat) (d : DataAddr) (p : Place) (noted : State)
    (hint : BitVec 2), hint = (if cc = 1#2 then 1#2 else 0#2) → Plain s → s.mem.wf = true → (s.usedOffset d.offset).toNat % 16 = 0 → region p.pa = .memory → p.uncacheable = false →
    p.pa.toNat = pa →
    noted = (if s.semaphores.lookup pa = none then { s with semaphores := (pa, hint) :: s.semaphores } else s) →
    ((∀ h, s.semaphores.lookup pa = some h → h = hint) →
      ((s.shortEa b im5 sr a m).resolve s = .ok d →
        (s.check .semaphore d 4 = .ok p →
          Stores (.ldcwShort b im5 sr a cc m t) s
            (((s.shortEa b im5 sr a m).writeBack noted).writeGr t (s.mem.load (s.flag Psw.E) pa 4)) 4 pa 0) ∧
        (s.check .semaphore d 8 = .ok p →
          Stores (.ldcdShort b im5 sr a cc m t) s
            (((s.shortEa b im5 sr a m).writeBack noted).writeGr t (s.mem.load (s.flag Psw.E) pa 8)) 8 pa 0)) ∧
      ((s.indexedEa b x sr u m 3).resolve s = .ok d →
        (s.check .semaphore d 8 = .ok p →
          Stores (.ldcdIndexed b x sr u cc m t) s
            (((s.indexedEa b x sr u m 3).writeBack noted).writeGr t (s.mem.load (s.flag Psw.E) pa 8)) 8 pa 0) ∧
        (s.check .semaphore d 4 = .ok p →
          Stores (.ldcwIndexed b x sr u cc m t) s
            (((s.indexedEa b x sr u m 3).writeBack noted).writeGr t (s.mem.load (s.flag Psw.E) pa 4)) 4 pa 0))) ∧
    ((∃ h, s.semaphores.lookup pa = some h ∧ h ≠ hint) →
      ((s.shortEa b im5 sr a m).resolve s = .ok d →
        (s.check .semaphore d 4 = .ok p → exec (.ldcwShort b im5 sr a cc m t) s = .refused .mixedSemaphoreHints) ∧
        (s.check .semaphore d 8 = .ok p → exec (.ldcdShort b im5 sr a cc m t) s = .refused .mixedSemaphoreHints)) ∧
      ((s.indexedEa b x sr u m 3).resolve s = .ok d →
        (s.check .semaphore d 8 = .ok p → exec (.ldcdIndexed b x sr u cc m t) s = .refused .mixedSemaphoreHints) ∧
        (s.check .semaphore d 4 = .ok p → exec (.ldcwIndexed b x sr u cc m t) s = .refused .mixedSemaphoreHints)))

/-- STBY and STDBY (40_memory_reference.md R435, R436): B stores from the addressed byte to the end of its word or doubleword, with PSW[E] = 0 the rightmost bytes of GR[r], with
PSW[E] = 1 the leftmost ones of its word or doubleword; E stores up to before the addressed byte, nothing when that is the first of its word or doubleword, wherever it is, with PSW[E] = 0 the leftmost bytes, with PSW[E] = 1 the rightmost ones; no other byte changes. That
the Block Copy hint lets no other byte change is the model's choice (R403, D15, log entry 34). -/
def Obligations.StoreBytes : Prop :=
  (∀ (s : State) (b r im5 : BitVec 5) (sr cc : BitVec 2) (m : BitVec 1) (d : DataAddr) (p : Place) (pa : Nat) (x : Dword), Plain s → s.mem.wf = true →
    region p.pa = .memory → s.check .store d 1 = .ok p → pa = p.pa.toNat → x = s.readGr r →
    ((s.partialEa 4 b im5 sr 0#1 m).resolve s = .ok d →
      Stores (.stby b r sr 0#1 cc m im5) s ((s.partialEa 4 b im5 sr 0#1 m).writeBack s) (4 - pa % 4) pa
        (if s.flag Psw.E then low32 x >>> (8 * (pa % 4)) else x)) ∧
    ((s.partialEa 4 b im5 sr 1#1 m).resolve s = .ok d →
      Stores (.stby b r sr 1#1 cc m im5) s ((s.partialEa 4 b im5 sr 1#1 m).writeBack s) (pa % 4) (pa - pa % 4)
        (if s.flag Psw.E then x else low32 x >>> (8 * (4 - pa % 4)))) ∧
    ((s.partialEa 8 b im5 sr 0#1 m).resolve s = .ok d →
      Stores (.stdby b r sr 0#1 cc m im5) s ((s.partialEa 8 b im5 sr 0#1 m).writeBack s) (8 - pa % 8) pa
        (if s.flag Psw.E then x >>> (8 * (pa % 8)) else x)) ∧
    ((s.partialEa 8 b im5 sr 1#1 m).resolve s = .ok d →
      Stores (.stdby b r sr 1#1 cc m im5) s ((s.partialEa 8 b im5 sr 1#1 m).writeBack s) (pa % 8) (pa - pa % 8)
        (if s.flag Psw.E then x else x >>> (8 * (8 - pa % 8))))) ∧
  (∀ (s : State) (b r im5 : BitVec 5) (sr cc : BitVec 2) (m : BitVec 1) (d : DataAddr) (p : Place), Plain s → s.check .store d 1 = .ok p →
    ((s.partialEa 4 b im5 sr 1#1 m).resolve s = .ok d → p.pa.toNat % 4 = 0 →
      Completes (.stby b r sr 1#1 cc m im5) s ((s.partialEa 4 b im5 sr 1#1 m).writeBack s) false) ∧
    ((s.partialEa 8 b im5 sr 1#1 m).resolve s = .ok d → p.pa.toNat % 8 = 0 →
      Completes (.stdby b r sr 1#1 cc m im5) s ((s.partialEa 8 b im5 sr 1#1 m).writeBack s) false))

/-- LDO, LDIL, ADDIL (41_immediate.md R460 to R462). -/
def Obligations.Immediates : Prop :=
  ∀ (s : State) (b t r : BitVec 5) (iv : BitVec 2) (im14 : BitVec 14) (im21 : BitVec 21), Plain s →
    Completes (.ldo b t iv im14) s (s.writeGr t (s.readGr b + s.disp14 iv im14)) false ∧
    Completes (.ldil t im21) s (s.writeGr t (((assemble21 im21 ++ 0#11 : BitVec 32)).signExtend 64)) false ∧
    Completes (.addil r im21) s
      (s.writeGr 1#5 (((assemble21 im21 ++ 0#11 : BitVec 32)).signExtend 64 + s.readGr r)) false

/-! ### Branches -/

/-- B,L, B,L,PUSH and BLR (42_branch.md R475 to R477, R481, R482): taken to IAOQ_Front + displacement + 8, which keeps the level in its two low
bits, the link IAOQ_Back + 4 to the target register and to the nomination register, with PUSH onto the stack too. A target past the end of the space is undefined (20_memory.md
R159); what the model takes for that, a sum of offset and signed displacement of 2^64 or more, with PSW[W] = 0 of 2^32 or more in the low words, is the last clause (DEDUCED, log
entry 15). -/
def Obligations.RelativeBranches : Prop :=
  (∀ (s : State) (t w1 w3 x : BitVec 5) (w2 : BitVec 11) (n w : BitVec 1) (d17 d22 : Dword), Plain s →
    d17 = (assemble17 w1 w2 w).signExtend 64 <<< 2 → d22 = (assemble22 w3 w1 w2 w).signExtend 64 <<< 2 →
    BranchesWithin (.bl17 t w1 w2 n w) s { s.writeGr t (s.iaoqBack + 4) with bnr := btsEntry (s.iaoqBack + 4) } (isSet n)
      (s.pastEnd s.iaoqFront d17 8) (s.iaoqFront + d17 + 8) s.iasqBack ∧
    BranchesWithin (.bl22 w3 w1 w2 n w) s { s.writeGr 2#5 (s.iaoqBack + 4) with bnr := btsEntry (s.iaoqBack + 4) } (isSet n)
      (s.pastEnd s.iaoqFront d22 8) (s.iaoqFront + d22 + 8) s.iasqBack ∧
    BranchesWithin (.blPush w3 w1 w2 n w) s
      { s.writeGr 2#5 (s.iaoqBack + 4) with
        bnr := btsEntry (s.iaoqBack + 4), bts := (btsEntry (s.iaoqBack + 4) :: s.bts).take s.bts.length } (isSet n)
      (s.pastEnd s.iaoqFront d22 8) (s.iaoqFront + d22 + 8) s.iasqBack ∧
    BranchesWithin (.blr t x n) s { s.writeGr t (s.iaoqBack + 4) with bnr := btsEntry (s.iaoqBack + 4) } (isSet n)
      (s.pastEnd s.iaoqFront (s.readGr x <<< 3) 8) (s.iaoqFront + (s.readGr x <<< 3) + 8) s.iasqBack) ∧
  (∀ (s : State) (base disp : Dword) (k : Nat),
    (s.flag Psw.W = true → (s.pastEnd base disp k = true ↔ (2 : Int) ^ 64 ≤ base.toNat + disp.toInt + k)) ∧
    (s.flag Psw.W = false →
      (s.pastEnd base disp k = true ↔ (2 : Int) ^ 32 ≤ (base.extractLsb' 0 32).toNat + (disp.extractLsb' 0 32).toInt + k)))

/-- BV, BE, BE,L, BVE and BVE,L (42_branch.md R477, R483 to R485). The target's offset keeps the lower of the branch's privilege level and the
base register's, that is the numerically greater. The space is the instruction's space register or the one the base register's selector bits
choose, the link goes to GR 31 or GR 2 and the old space to SR 0. A target past the end of the space is undefined (20_memory.md R159; what passes it is RelativeBranches's
last clause, log entry 15). The model's choices: BVE,POP branches to GR[b] also when a valid entry is popped (log entry 13), and with code translation off the target's
space (and with BE,L SR 0), which the source leaves undefined, is a free value (log entries 5 and 32). -/
def Obligations.VectoredBranches : Prop :=
  (∀ (s : State) (base disp : Dword),
    (s.baseTarget base disp).extractLsb' 2 62 = (base + disp).extractLsb' 2 62 ∧
    ((s.baseTarget base disp).extractLsb' 0 2).toNat = max s.priv.toNat (base.extractLsb' 0 2).toNat) ∧
  (∀ (s : State) (b x w1 : BitVec 5) (sr : BitVec 3) (w2 : BitVec 11) (n w : BitVec 1), Plain s →
    BranchesWithin (.bv b x n) s s (isSet n) (s.pastEnd (s.readGr b) (s.readGr x <<< 3) 0) (s.baseTarget (s.readGr b) (s.readGr x <<< 3))
      s.iasqBack ∧
    (s.flag Psw.C = true →
      BranchesWithin (.be b w1 sr w2 n w) s s (isSet n) (s.pastEnd (s.readGr b) ((assemble17 w1 w2 w).signExtend 64 <<< 2) 0)
        (s.baseTarget (s.readGr b) ((assemble17 w1 w2 w).signExtend 64 <<< 2))
        (s.readSr (assemble3 sr)) ∧
      BranchesWithin (.beL b w1 sr w2 n w) s
        ({ s.writeGr 31#5 (s.iaoqBack + 4) with bnr := btsEntry (s.iaoqBack + 4) }.writeSr 0#3 s.iasqBack) (isSet n)
        (s.pastEnd (s.readGr b) ((assemble17 w1 w2 w).signExtend 64 <<< 2) 0)
        (s.baseTarget (s.readGr b) ((assemble17 w1 w2 w).signExtend 64 <<< 2)) (s.readSr (assemble3 sr)) ∧
      BranchesTo (.bve b n 0#1) s s (isSet n) (s.baseTarget (s.readGr b) 0) (s.implicitSpace (s.readGr b)) ∧
      BranchesTo (.bve b n 1#1) s { s with bts := popEntries s.bts } (isSet n) (s.baseTarget (s.readGr b) 0)
        (s.implicitSpace (s.readGr b)) ∧
      BranchesTo (.bveL b n 0#1) s { s.writeGr 2#5 (s.iaoqBack + 4) with bnr := btsEntry (s.iaoqBack + 4) } (isSet n)
        (s.baseTarget (s.readGr b) 0) (s.implicitSpace (s.readGr b)) ∧
      BranchesTo (.bveL b n 1#1) s
        { s.writeGr 2#5 (s.iaoqBack + 4) with
          bnr := btsEntry (s.iaoqBack + 4), bts := (btsEntry (s.iaoqBack + 4) :: s.bts).take s.bts.length } (isSet n)
        (s.baseTarget (s.readGr b) 0) (s.implicitSpace (s.readGr b)))) ∧
  (∀ (s : State) (b w1 : BitVec 5) (sr : BitVec 3) (w2 : BitVec 11) (n w : BitVec 1), Plain s → s.flag Psw.C = false →
    BranchesWithin (.be b w1 sr w2 n w) s (s.drawn 1) (isSet n) (s.pastEnd (s.readGr b) ((assemble17 w1 w2 w).signExtend 64 <<< 2) 0)
      (s.baseTarget (s.readGr b) ((assemble17 w1 w2 w).signExtend 64 <<< 2))
      (s.free 0) ∧
    BranchesWithin (.beL b w1 sr w2 n w) s
      (({ s.writeGr 31#5 (s.iaoqBack + 4) with bnr := btsEntry (s.iaoqBack + 4) }.writeSr 0#3 (s.free 1)).drawn 2) (isSet n)
      (s.pastEnd (s.readGr b) ((assemble17 w1 w2 w).signExtend 64 <<< 2) 0)
      (s.baseTarget (s.readGr b) ((assemble17 w1 w2 w).signExtend 64 <<< 2)) (s.free 0) ∧
    BranchesTo (.bve b n 0#1) s (s.drawn 1) (isSet n) (s.baseTarget (s.readGr b) 0) (s.free 0) ∧
    BranchesTo (.bve b n 1#1) s ({ s with bts := popEntries s.bts }.drawn 1) (isSet n) (s.baseTarget (s.readGr b) 0) (s.free 0) ∧
    BranchesTo (.bveL b n 0#1) s ({ s.writeGr 2#5 (s.iaoqBack + 4) with bnr := btsEntry (s.iaoqBack + 4) }.drawn 1) (isSet n)
      (s.baseTarget (s.readGr b) 0) (s.free 0) ∧
    BranchesTo (.bveL b n 1#1) s
      ({ s.writeGr 2#5 (s.iaoqBack + 4) with
        bnr := btsEntry (s.iaoqBack + 4), bts := (btsEntry (s.iaoqBack + 4) :: s.bts).take s.bts.length }.drawn 1) (isSet n)
      (s.baseTarget (s.readGr b) 0) (s.free 0))

/-- B,GATE (42_branch.md R481): with PSW[B] = 1 the illegal instruction trap; else GR[t] keeps its bits but the two low ones, which become the
branch's privilege level, and the target runs at level 0 when code translation is off, or, when it is on, at the level a gateway page's type names if that is
higher, and at the branch's level otherwise. Level 0 without translation is R481's pseudocode, where 21_translation.md R255 speaks of no promotion (log entry 56). A target past
the end of the space is undefined (20_memory.md R159, log entry 15). -/
def Obligations.GateBranch : Prop :=
  ∀ (s : State) (t w1 : BitVec 5) (w2 : BitVec 11) (n w : BitVec 1) (past : Bool), Plain s →
    past = s.pastEnd s.iaoqFront ((assemble17 w1 w2 w).signExtend 64 <<< 2) 8 →
    (s.flag Psw.B = true → Traps (.bGate t w1 w2 n w) s .illegalInstruction .instr) ∧
    (s.flag Psw.B = false → s.flag Psw.C = false →
      BranchesWithin (.bGate t w1 w2 n w) s (s.writeGr t ((s.readGr t).extractLsb' 2 62 ++ s.priv)) (isSet n) past
        ((s.iaoqFront + ((assemble17 w1 w2 w).signExtend 64 <<< 2) + 8) &&& ~~~3#64) s.iasqBack) ∧
    (∀ e, s.flag Psw.B = false → s.flag Psw.C = true → s.fetchEntry = some e →
      (e.rights.extractLsb' 6 1 = 0#1 ∨ s.priv.toNat ≤ (e.rights.extractLsb' 4 2).toNat →
        BranchesWithin (.bGate t w1 w2 n w) s (s.writeGr t ((s.readGr t).extractLsb' 2 62 ++ s.priv)) (isSet n) past
          (s.iaoqFront + ((assemble17 w1 w2 w).signExtend 64 <<< 2) + 8) s.iasqBack) ∧
      (e.rights.extractLsb' 6 1 = 1#1 → (e.rights.extractLsb' 4 2).toNat < s.priv.toNat →
        BranchesWithin (.bGate t w1 w2 n w) s (s.writeGr t ((s.readGr t).extractLsb' 2 62 ++ s.priv)) (isSet n) past
          ((s.iaoqFront + ((assemble17 w1 w2 w).signExtend 64 <<< 2) + 8).extractLsb' 2 62 ++ e.rights.extractLsb' 4 2) s.iasqBack))

/-- ADDB, ADDIB, CMPB, CMPIB, MOVB, MOVIB, BB (42_branch.md R490 to R496): what each writes, and the condition it branches on; the condition
functions are those of the statements about conditions. Taken past the end of the space it is undefined (20_memory.md R159, log entry 15). -/
def Obligations.ConditionalBranches : Prop :=
  ∀ (s : State) (r2 r1 r im5 p : BitVec 5) (c : BitVec 3) (w1 : BitVec 11) (n w k d : BitVec 1) (disp : Dword), Plain s →
    disp = (assemble12 w1 w).signExtend 64 <<< 2 →
    BranchesWhen (.addbT r2 r1 c w1 n w) s (s.writeGr r2 (s.readGr r1 + s.readGr r2)) disp n
      ((sum (s.readGr r1) (s.readGr r2) false).conditionAddBranch (s.flag Psw.W) c false) ∧
    BranchesWhen (.addbF r2 r1 c w1 n w) s (s.writeGr r2 (s.readGr r1 + s.readGr r2)) disp n
      ((sum (s.readGr r1) (s.readGr r2) false).conditionAddBranch (s.flag Psw.W) c true) ∧
    BranchesWhen (.addibT r im5 c w1 n w) s (s.writeGr r (lowSignExt im5 + s.readGr r)) disp n
      ((sum (lowSignExt im5) (s.readGr r) false).conditionAddBranch (s.flag Psw.W) c false) ∧
    BranchesWhen (.addibF r im5 c w1 n w) s (s.writeGr r (lowSignExt im5 + s.readGr r)) disp n
      ((sum (lowSignExt im5) (s.readGr r) false).conditionAddBranch (s.flag Psw.W) c true) ∧
    BranchesWhen (.cmpbT r2 r1 c w1 n w) s s disp n ((sum (s.readGr r1) (~~~(s.readGr r2)) true).condition c false false) ∧
    BranchesWhen (.cmpbF r2 r1 c w1 n w) s s disp n ((sum (s.readGr r1) (~~~(s.readGr r2)) true).condition c true false) ∧
    BranchesWhen (.cmpbDT r2 r1 c w1 n w) s s disp n ((sum (s.readGr r1) (~~~(s.readGr r2)) true).condition c false true) ∧
    BranchesWhen (.cmpbDF r2 r1 c w1 n w) s s disp n ((sum (s.readGr r1) (~~~(s.readGr r2)) true).condition c true true) ∧
    BranchesWhen (.cmpibT r im5 c w1 n w) s s disp n ((sum (lowSignExt im5) (~~~(s.readGr r)) true).condition c false false) ∧
    BranchesWhen (.cmpibF r im5 c w1 n w) s s disp n ((sum (lowSignExt im5) (~~~(s.readGr r)) true).condition c true false) ∧
    BranchesWhen (.cmpibD r im5 c w1 n w) s s disp n ((sum (lowSignExt im5) (~~~(s.readGr r)) true).conditionCmpib64 c) ∧
    BranchesWhen (.movb r2 r1 c w1 n w) s (s.writeGr r2 (s.readGr r1)) disp n (shiftCondition c false (s.readGr r1)) ∧
    BranchesWhen (.movib r im5 c w1 n w) s (s.writeGr r (lowSignExt im5)) disp n (shiftCondition c false (lowSignExt im5)) ∧
    BranchesWhen (.bbFixed p r k d w1 n w) s s disp n
      ((s.readGr r).getMsbD ((if d = 0#1 then 32 else 0) + p.toNat) ^^ isSet k) ∧
    BranchesWhen (.bbSar r k d w1 n w) s s disp n
      ((s.readGr r).getMsbD (if d = 0#1 then 32 + s.sar.toNat % 32 else s.sar.toNat) ^^ isSet k)

/-- PUSHBTS, PUSHNOM, POPBTS, CLRBTS (42_branch.md R500 to R503; 10_state.md R101): PUSHBTS puts the address in GR[r] as a valid entry on top, PUSHNOM the nomination as it
stands, valid or not (R501), the depth staying; popping moves every entry up, as often as POPBTS says, and fills from the bottom with invalid entries; clearing makes every entry invalid. That an
invalid entry keeps the address of the old bottom, and that the nomination is pushed with its valid bit, are the model's choices (log entry 14). -/
def Obligations.BranchTargetStack : Prop :=
  (∀ (s : State) (r : BitVec 5) (iv : BitVec 9), Plain s →
    Completes (.pushbts r) s
      { s with bts := (((s.readGr r).extractLsb' 2 62 ++ 1#1) :: s.bts).take s.bts.length } false ∧
    Completes .pushnom s { s with bts := (s.bnr :: s.bts).take s.bts.length } false ∧
    Completes (.popbts iv) s { s with bts := popTimes iv.toNat s.bts } false ∧
    Completes .clrbts s { s with bts := s.bts.map fun e => e.extractLsb' 1 62 ++ 0#1 } false) ∧
  (∀ (i k : Nat) (l : List (BitVec 63)), (popTimes i l).length = l.length ∧ popEntries l = popTimes 1 l ∧
    (k + i < l.length → (popTimes i l)[k]? = l[k + i]?) ∧
    (∀ f, k < l.length → l.length ≤ k + i → l.getLast? = some f → (popTimes i l)[k]? = some (f.extractLsb' 1 62 ++ 0#1)))

/-! ### Computation -/

/-- An addition x + y + cin as the conditions and the C/B field see it (43_computation.md R532, R533): the sum modulo 2^64, the carry out of each of
the sixteen digits, signed overflow of the doubleword and of the low words; in a difference x + ~y + 1 a 1 of the C/B field
means no borrow. -/
def Obligations.Sums : Prop :=
  ∀ (x y : Dword) (cin : Bool),
    (sum x y cin).res = BitVec.ofNat 64 (x.toNat + y.toNat + cin.toNat) ∧
    (∀ k, k < 16 → (bitAt (sum x y cin).carries k = true ↔
      2 ^ (64 - 4 * k) ≤ x.toNat % 2 ^ (64 - 4 * k) + y.toNat % 2 ^ (64 - 4 * k) + cin.toNat)) ∧
    (∀ k, k < 16 → (bitAt (sum x (~~~y) true).carries k = true ↔ y.toNat % 2 ^ (64 - 4 * k) ≤ x.toNat % 2 ^ (64 - 4 * k))) ∧
    ((sum x y cin).overflow true = true ↔
      x.toInt + y.toInt + cin.toNat < -2 ^ 63 ∨ (2 : Int) ^ 63 ≤ x.toInt + y.toInt + cin.toNat) ∧
    ((sum x y cin).overflow false = true ↔
      (x.extractLsb' 0 32).toInt + (y.extractLsb' 0 32).toInt + cin.toNat < -2 ^ 31 ∨
        (2 : Int) ^ 31 ≤ (x.extractLsb' 0 32).toInt + (y.extractLsb' 0 32).toInt + cin.toNat)

/-- The compare and subtract conditions are the relations they are named for (43_computation.md R535): of the doublewords, and of the low words, equal, signed less,
signed less or equal, unsigned less, unsigned less or equal, signed overflow of the difference, odd difference; f negates. The conditions of
opcode 3B (R536) are eight relations of the doublewords. -/
def Obligations.CompareConditions : Prop :=
  ∀ (x y : Dword) (f : Bool) (c : BitVec 3) (x' y' : BitVec 32), x' = x.extractLsb' 0 32 → y' = y.extractLsb' 0 32 →
    ((sum x (~~~y) true).condition c true f = !((sum x (~~~y) true).condition c false f)) ∧
    (sum x (~~~y) true).condition 0#3 false f = false ∧
    ((sum x (~~~y) true).condition 1#3 false true = true ↔ x = y) ∧
    ((sum x (~~~y) true).condition 2#3 false true = true ↔ x.toInt < y.toInt) ∧
    ((sum x (~~~y) true).condition 3#3 false true = true ↔ x.toInt ≤ y.toInt) ∧
    ((sum x (~~~y) true).condition 4#3 false true = true ↔ x.toNat < y.toNat) ∧
    ((sum x (~~~y) true).condition 5#3 false true = true ↔ x.toNat ≤ y.toNat) ∧
    ((sum x (~~~y) true).condition 6#3 false true = true ↔
      x.toInt - y.toInt < -2 ^ 63 ∨ (2 : Int) ^ 63 ≤ x.toInt - y.toInt) ∧
    ((sum x (~~~y) true).condition 1#3 false false = true ↔ x' = y') ∧
    ((sum x (~~~y) true).condition 2#3 false false = true ↔ x'.toInt < y'.toInt) ∧
    ((sum x (~~~y) true).condition 3#3 false false = true ↔ x'.toInt ≤ y'.toInt) ∧
    ((sum x (~~~y) true).condition 4#3 false false = true ↔ x'.toNat < y'.toNat) ∧
    ((sum x (~~~y) true).condition 5#3 false false = true ↔ x'.toNat ≤ y'.toNat) ∧
    ((sum x (~~~y) true).condition 6#3 false false = true ↔
      x'.toInt - y'.toInt < -2 ^ 31 ∨ (2 : Int) ^ 31 ≤ x'.toInt - y'.toInt) ∧
    ((sum x (~~~y) true).condition 7#3 false f = true ↔ (x - y).toNat % 2 = 1) ∧
    ((sum x (~~~y) true).conditionCmpib64 0#3 = true ↔ x.toNat < y.toNat) ∧
    ((sum x (~~~y) true).conditionCmpib64 1#3 = true ↔ x = y) ∧
    ((sum x (~~~y) true).conditionCmpib64 2#3 = true ↔ x.toInt < y.toInt) ∧
    ((sum x (~~~y) true).conditionCmpib64 3#3 = true ↔ x.toInt ≤ y.toInt) ∧
    ((sum x (~~~y) true).conditionCmpib64 4#3 = true ↔ y.toNat ≤ x.toNat) ∧
    ((sum x (~~~y) true).conditionCmpib64 5#3 = true ↔ x ≠ y) ∧
    ((sum x (~~~y) true).conditionCmpib64 6#3 = true ↔ y.toInt ≤ x.toInt) ∧
    ((sum x (~~~y) true).conditionCmpib64 7#3 = true ↔ y.toInt < x.toInt)

/-- The add conditions (43_computation.md R537): of the doublewords, and of the low words, with the exact sums: zero result, negative sum, sum at most 0 or zero
result, no unsigned overflow, that or a zero result, signed overflow, odd; f negates. ADDB and ADDIB use the word conditions when PSW[W] = 0; when
it is 1, c = 0 to 4 are the word conditions and 5 to 7 the doubleword conditions 1 to 3 (R538). -/
def Obligations.AddConditions : Prop :=
  ∀ (x y : Dword) (cin f : Bool) (x' y' : BitVec 32), x' = x.extractLsb' 0 32 → y' = y.extractLsb' 0 32 →
    (∀ c, (sum x y cin).condition c true f = !((sum x y cin).condition c false f)) ∧
    (sum x y cin).condition 0#3 false f = false ∧
    ((sum x y cin).condition 1#3 false true = true ↔ (x.toNat + y.toNat + cin.toNat) % 2 ^ 64 = 0) ∧
    ((sum x y cin).condition 2#3 false true = true ↔ x.toInt + y.toInt + cin.toNat < 0) ∧
    ((sum x y cin).condition 4#3 false true = true ↔ x.toNat + y.toNat + cin.toNat < 2 ^ 64) ∧
    ((sum x y cin).condition 6#3 false true = true ↔
      x.toInt + y.toInt + cin.toNat < -2 ^ 63 ∨ (2 : Int) ^ 63 ≤ x.toInt + y.toInt + cin.toNat) ∧
    ((sum x y cin).condition 1#3 false false = true ↔ (x'.toNat + y'.toNat + cin.toNat) % 2 ^ 32 = 0) ∧
    ((sum x y cin).condition 2#3 false false = true ↔ x'.toInt + y'.toInt + cin.toNat < 0) ∧
    ((sum x y cin).condition 4#3 false false = true ↔ x'.toNat + y'.toNat + cin.toNat < 2 ^ 32) ∧
    ((sum x y cin).condition 6#3 false false = true ↔
      x'.toInt + y'.toInt + cin.toNat < -2 ^ 31 ∨ (2 : Int) ^ 31 ≤ x'.toInt + y'.toInt + cin.toNat) ∧
    ((sum x y cin).condition 3#3 false f = ((sum x y cin).condition 1#3 false f || (sum x y cin).condition 2#3 false f)) ∧
    ((sum x y cin).condition 5#3 false f = ((sum x y cin).condition 1#3 false f || (sum x y cin).condition 4#3 false f)) ∧
    ((sum x y cin).condition 7#3 false f = true ↔ (x.toNat + y.toNat + cin.toNat) % 2 = 1) ∧
    (∀ wide c, (sum x y false).conditionAddBranch wide c true = !((sum x y false).conditionAddBranch wide c false)) ∧
    (∀ c : BitVec 3, c.toNat < 5 →
      (sum x y false).conditionAddBranch true c false = (sum x y false).condition c false false) ∧
    (∀ c : BitVec 3, (sum x y false).conditionAddBranch false c false = (sum x y false).condition c false false) ∧
    (∀ c : BitVec 3, 5 ≤ c.toNat →
      (sum x y false).conditionAddBranch true c false = (sum x y false).condition (c - 4#3) false true)

/-- ADD, ADD,C, ADD,L, SUB, SUB,B, ADDI and SUBI without traps (43_computation.md R544, R545, R547, R548): the result, the C/B field (not with L), and
nullification by the condition. -/
def Obligations.AddSubtract : Prop :=
  ∀ (s : State) (r2 r1 r t : BitVec 5) (c : BitVec 3) (f d : BitVec 1) (im11 : BitVec 11) (x y : Dword) (cin : Bool), Plain s →
    x = s.readGr r1 → y = s.readGr r2 → cin = s.carryBorrow.getMsbD (if d = 1#1 then 0 else 8) →
    Completes (.add r2 r1 c f d t) s ((s.writeGr t (x + y)).setCarryBorrow (sum x y false).carries)
      ((sum x y false).condition c (isSet f) (isSet d)) ∧
    Completes (.addC r2 r1 c f d t) s ((s.writeGr t (x + y + BitVec.ofNat 64 cin.toNat)).setCarryBorrow (sum x y cin).carries)
      ((sum x y cin).condition c (isSet f) (isSet d)) ∧
    Completes (.addL r2 r1 c f d t) s (s.writeGr t (x + y)) ((sum x y false).condition c (isSet f) (isSet d)) ∧
    Completes (.sub r2 r1 c f d t) s ((s.writeGr t (x - y)).setCarryBorrow (sum x (~~~y) true).carries)
      ((sum x (~~~y) true).condition c (isSet f) (isSet d)) ∧
    Completes (.subB r2 r1 c f d t) s
      ((s.writeGr t (x - y - 1 + BitVec.ofNat 64 cin.toNat)).setCarryBorrow (sum x (~~~y) cin).carries)
      ((sum x (~~~y) cin).condition c (isSet f) (isSet d)) ∧
    Completes (.addi r t c f 0#1 im11) s
      ((s.writeGr t (lowSignExt im11 + s.readGr r)).setCarryBorrow (sum (lowSignExt im11) (s.readGr r) false).carries)
      ((sum (lowSignExt im11) (s.readGr r) false).condition c (isSet f) false) ∧
    Completes (.subi r t c f 0#1 im11) s
      ((s.writeGr t (lowSignExt im11 - s.readGr r)).setCarryBorrow (sum (lowSignExt im11) (~~~(s.readGr r)) true).carries)
      ((sum (lowSignExt im11) (~~~(s.readGr r)) true).condition c (isSet f) false)

/-- The trapping forms of ADD, SUB, ADDI and SUBI (43_computation.md R544, R545, R547, R548). -/
def Obligations.TrappingArithmetic : Prop :=
  ∀ (s : State) (r2 r1 r t : BitVec 5) (c : BitVec 3) (f d e1 : BitVec 1) (im11 : BitVec 11) (x y z : Dword) (cin : Bool), Plain s →
    x = s.readGr r1 → y = s.readGr r2 → z = s.readGr r → cin = s.carryBorrow.getMsbD (if d = 1#1 then 0 else 8) →
    TrapsOrCompletes (.addTsv r2 r1 c f d t) s ((s.writeGr t (x + y)).setCarryBorrow (sum x y false).carries) true false
      ((sum x y false).overflow (isSet d)) ((sum x y false).condition c (isSet f) (isSet d)) ∧
    TrapsOrCompletes (.addCTsv r2 r1 c f d t) s
      ((s.writeGr t (x + y + BitVec.ofNat 64 cin.toNat)).setCarryBorrow (sum x y cin).carries) true false
      ((sum x y cin).overflow (isSet d)) ((sum x y cin).condition c (isSet f) (isSet d)) ∧
    TrapsOrCompletes (.subTc r2 r1 c f d t) s ((s.writeGr t (x - y)).setCarryBorrow (sum x (~~~y) true).carries) false true
      ((sum x (~~~y) true).overflow (isSet d)) ((sum x (~~~y) true).condition c (isSet f) (isSet d)) ∧
    TrapsOrCompletes (.subTsv r2 r1 c f d t) s ((s.writeGr t (x - y)).setCarryBorrow (sum x (~~~y) true).carries) true false
      ((sum x (~~~y) true).overflow (isSet d)) ((sum x (~~~y) true).condition c (isSet f) (isSet d)) ∧
    TrapsOrCompletes (.subTsvTc r2 r1 c f d t) s ((s.writeGr t (x - y)).setCarryBorrow (sum x (~~~y) true).carries) true true
      ((sum x (~~~y) true).overflow (isSet d)) ((sum x (~~~y) true).condition c (isSet f) (isSet d)) ∧
    TrapsOrCompletes (.subBTsv r2 r1 c f d t) s
      ((s.writeGr t (x - y - 1 + BitVec.ofNat 64 cin.toNat)).setCarryBorrow (sum x (~~~y) cin).carries) true false
      ((sum x (~~~y) cin).overflow (isSet d)) ((sum x (~~~y) cin).condition c (isSet f) (isSet d)) ∧
    TrapsOrCompletes (.addi r t c f e1 im11) s
      ((s.writeGr t (lowSignExt im11 + z)).setCarryBorrow (sum (lowSignExt im11) z false).carries) (isSet e1) false
      ((sum (lowSignExt im11) z false).overflow false) ((sum (lowSignExt im11) z false).condition c (isSet f) false) ∧
    TrapsOrCompletes (.addiTc r t c f e1 im11) s
      ((s.writeGr t (lowSignExt im11 + z)).setCarryBorrow (sum (lowSignExt im11) z false).carries) (isSet e1) true
      ((sum (lowSignExt im11) z false).overflow false) ((sum (lowSignExt im11) z false).condition c (isSet f) false) ∧
    TrapsOrCompletes (.subi r t c f e1 im11) s
      ((s.writeGr t (lowSignExt im11 - z)).setCarryBorrow (sum (lowSignExt im11) (~~~z) true).carries) (isSet e1) false
      ((sum (lowSignExt im11) (~~~z) true).overflow false) ((sum (lowSignExt im11) (~~~z) true).condition c (isSet f) false)

/-- SHLADD in its three forms and DS (43_computation.md R533, R539, R546, R551): the shifted first operand plus, or for DS with PSW[V] = 1 minus, the
second, and DS's new V bit. The signed overflow of the shift is a product out of range, its unsigned overflow one that leaves the width; where the
shift overflows, SHLADD,TSV traps and only the outcome of conditions 2 and 3 is free (the model's form, log entry 5). That conditions 4 and 5 of DS go by the row of the
addition or of the subtraction that it does is the model's reading (DEDUCED, log entry 12). -/
def Obligations.ShiftAndDivideStep : Prop :=
  (∀ (s : State) (r2 r1 t : BitVec 5) (c : BitVec 3) (f d : BitVec 1) (sa : BitVec 2) (x y : Dword) (q : Sum) (so u cond : Bool) (s' : State),
    Plain s → x = s.readGr r1 → y = s.readGr r2 → q = sum (x <<< sa.toNat) y false → so = !(shiftKeepsSign x sa.toNat (isSet d)) →
    u = !(shiftLosesOne x sa.toNat (isSet d) || q.carry (isSet d)) →
    cond = (if so = true ∧ (c = 2#3 ∨ c = 3#3) then (s.free 0).getLsbD 0
      else shiftedCondition c (isSet f) (isSet d) q so u false) →
    s' = (if so = true ∧ (c = 2#3 ∨ c = 3#3) then s.drawn 1 else s) →
    Completes (.shladdL r2 r1 c f sa d t) s (s'.writeGr t ((x <<< sa.toNat) + y)) cond ∧
    Completes (.shladd r2 r1 c f sa d t) s ((s'.writeGr t ((x <<< sa.toNat) + y)).setCarryBorrow q.carries) cond ∧
    TrapsOrCompletes (.shladdTsv r2 r1 c f sa d t) s ((s'.writeGr t ((x <<< sa.toNat) + y)).setCarryBorrow q.carries) true false
      (so || q.overflow (isSet d)) cond) ∧
  (∀ (s : State) (r2 r1 t : BitVec 5) (c : BitVec 3) (f : BitVec 1) (x y o : Dword) (q : Sum) (so u cond : Bool) (s' : State),
    Plain s → x = s.readGr r1 → y = s.readGr r2 → o = (x <<< 1) + BitVec.ofNat 64 (s.carryBorrow.getMsbD 8).toNat →
    q = (if s.flag Psw.V then sum o (~~~y) true else sum o y false) → so = (x.getMsbD 32 != x.getMsbD 33) →
    u = (if s.flag Psw.V then x.getMsbD 32 || !(q.carry false) else !(x.getMsbD 32 || q.carry false)) →
    cond = (if so = true ∧ (c = 2#3 ∨ c = 3#3) then (s.free 0).getLsbD 0 else shiftedCondition c (isSet f) false q so u false) →
    s' = (if so = true ∧ (c = 2#3 ∨ c = 3#3) then s.drawn 1 else s) →
    Completes (.ds r2 r1 c f t) s
      (((s'.writeGr t (if s.flag Psw.V then o - y else o + y)).setCarryBorrow q.carries).setFlag Psw.V
        (q.carries.getMsbD 8 ^^ y.getMsbD 32)) cond) ∧
  (∀ (x : Dword) (sa : Nat), sa < 4 →
    (shiftKeepsSign x sa true = true ↔ -2 ^ 63 ≤ x.toInt * 2 ^ sa ∧ x.toInt * 2 ^ sa < 2 ^ 63) ∧
    (shiftKeepsSign x sa false = true ↔
      -2 ^ 31 ≤ (x.extractLsb' 0 32).toInt * 2 ^ sa ∧ (x.extractLsb' 0 32).toInt * 2 ^ sa < 2 ^ 31) ∧
    (shiftLosesOne x sa true = true ↔ 2 ^ 64 ≤ x.toNat * 2 ^ sa) ∧
    (shiftLosesOne x sa false = true ↔ 2 ^ 32 ≤ (x.extractLsb' 0 32).toNat * 2 ^ sa)) ∧
  (∀ (f d so u : Bool) (q : Sum),
    shiftedCondition 0#3 f d q so u false = f ∧ shiftedCondition 1#3 f d q so u false = (isZero d q.res ^^ f) ∧
    shiftedCondition 4#3 f d q so u false = (u ^^ f) ∧ shiftedCondition 5#3 f d q so u false = ((isZero d q.res || u) ^^ f) ∧
    shiftedCondition 6#3 f d q so u false = ((so || q.overflow d) ^^ f) ∧ shiftedCondition 7#3 f d q so u false = (q.res.getLsbD 0 ^^ f) ∧
    shiftedCondition 2#3 f d q false u false = q.condition 2#3 f d ∧ shiftedCondition 3#3 f d q false u false = q.condition 3#3 f d)

/-- AND, ANDCM, OR, XOR, UXOR, UADDCM, CMPCLR, CMPICLR, DCOR and DCOR,I (43_computation.md R540, R541, R552 to R555, R558 to R562): the result to GR[t], C/B untouched, nullification by
the condition on the result; UADDCM,TC traps on it instead. The conditions: zero, negative, negative or zero, odd of the doubleword or the low word for the logical
instructions; some word, byte or halfword zero, some digit, word, byte or halfword carrying for the unit instructions, where a unit carries when its leftmost digit does; f
negates. DCOR,I adds 6 to each digit whose C/B bit is 1, DCOR subtracts 6 from each digit whose C/B bit is 0. -/
def Obligations.LogicalAndUnit : Prop :=
  (∀ (s : State) (r2 r1 r t : BitVec 5) (c : BitVec 3) (f d : BitVec 1) (im11 : BitVec 11) (x y z : Dword) (q qi : Sum), Plain s →
    x = s.readGr r1 → y = s.readGr r2 → z = s.readGr r →
    q = sum z (~~~(sixes (~~~s.carryBorrow))) true → qi = sum z (sixes s.carryBorrow) false →
    Completes (.and r2 r1 c f d t) s (s.writeGr t (x &&& y)) (logicalCondition c (isSet f) (isSet d) (x &&& y)) ∧
    Completes (.andcm r2 r1 c f d t) s (s.writeGr t (x &&& ~~~y)) (logicalCondition c (isSet f) (isSet d) (x &&& ~~~y)) ∧
    Completes (.or r2 r1 c f d t) s (s.writeGr t (x ||| y)) (logicalCondition c (isSet f) (isSet d) (x ||| y)) ∧
    Completes (.xor r2 r1 c f d t) s (s.writeGr t (x ^^^ y)) (logicalCondition c (isSet f) (isSet d) (x ^^^ y)) ∧
    Completes (.uxor r2 r1 c f d t) s (s.writeGr t (x ^^^ y)) (unitCondition c (isSet f) (isSet d) (x ^^^ y) 0) ∧
    Completes (.uaddcm r2 r1 c f d t) s (s.writeGr t (x + ~~~y))
      (unitCondition c (isSet f) (isSet d) (x + ~~~y) (sum x (~~~y) false).carries) ∧
    TrapsOrCompletes (.uaddcmTc r2 r1 c f d t) s (s.writeGr t (x + ~~~y)) false true false
      (unitCondition c (isSet f) (isSet d) (x + ~~~y) (sum x (~~~y) false).carries) ∧
    Completes (.cmpclr r2 r1 c f d t) s (s.writeGr t 0) ((sum x (~~~y) true).condition c (isSet f) (isSet d)) ∧
    Completes (.cmpiclr r t c f d im11) s (s.writeGr t 0)
      ((sum (lowSignExt im11) (~~~z) true).condition c (isSet f) (isSet d)) ∧
    Completes (.dcor r c f d t) s (s.writeGr t (z - sixes (~~~s.carryBorrow)))
      (unitCondition c (isSet f) (isSet d) (z - sixes (~~~s.carryBorrow)) q.carries) ∧
    Completes (.dcorI r c f d t) s (s.writeGr t (z + sixes s.carryBorrow))
      (unitCondition c (isSet f) (isSet d) (z + sixes s.carryBorrow) qi.carries)) ∧
  (∀ (v : Dword) (f : Bool), logicalCondition 1#3 f true v = ((v == 0#64) ^^ f) ∧ logicalCondition 2#3 f true v = (decide (v.toInt < 0) ^^ f) ∧
    logicalCondition 3#3 f true v = (decide (v.toInt ≤ 0) ^^ f) ∧ logicalCondition 7#3 f true v = (decide (v.toNat % 2 = 1) ^^ f) ∧
    logicalCondition 1#3 f false v = (decide (v.toNat % 2 ^ 32 = 0) ^^ f) ∧
    logicalCondition 2#3 f false v = (decide ((v.extractLsb' 0 32).toInt < 0) ^^ f) ∧
    logicalCondition 3#3 f false v = (decide ((v.extractLsb' 0 32).toInt ≤ 0) ^^ f) ∧
    logicalCondition 7#3 f false v = (decide (v.toNat % 2 = 1) ^^ f) ∧ logicalCondition 0#3 f true v = f ∧ logicalCondition 0#3 f false v = f) ∧
  (∀ (v : Dword) (cb : BitVec 16),
    (∀ c d, unitCondition c true d v cb = !(unitCondition c false d v cb)) ∧ (∀ d, unitCondition 0#3 false d v cb = false) ∧
    (unitCondition 1#3 false true v cb = true ↔ v.extractLsb' 0 32 = 0#32 ∨ v.extractLsb' 32 32 = 0#32) ∧
    (unitCondition 3#3 false false v cb = true ↔ ∃ k, k < 2 ∧ v.extractLsb' (16 * k) 16 = 0#16) ∧
    (unitCondition 5#3 false true v cb = true ↔ cb.getMsbD 0 = true ∨ cb.getMsbD 8 = true) ∧
    (unitCondition 6#3 false true v cb = true ↔ ∃ k, k < 8 ∧ cb.getMsbD (2 * k) = true) ∧
    (unitCondition 6#3 false false v cb = true ↔ ∃ k, 4 ≤ k ∧ k < 8 ∧ cb.getMsbD (2 * k) = true) ∧
    (unitCondition 7#3 false true v cb = true ↔ ∃ k, k < 4 ∧ cb.getMsbD (4 * k) = true) ∧
    (unitCondition 7#3 false false v cb = true ↔ ∃ k, 2 ≤ k ∧ k < 4 ∧ cb.getMsbD (4 * k) = true) ∧
    (unitCondition 2#3 false true v cb = true ↔ ∃ k, k < 8 ∧ v.extractLsb' (8 * k) 8 = 0#8) ∧
    (unitCondition 2#3 false false v cb = true ↔ ∃ k, k < 4 ∧ v.extractLsb' (8 * k) 8 = 0#8) ∧
    (unitCondition 3#3 false true v cb = true ↔ ∃ k, k < 4 ∧ v.extractLsb' (16 * k) 16 = 0#16) ∧
    (unitCondition 4#3 false true v cb = true ↔ cb ≠ 0#16) ∧
    (unitCondition 4#3 false false v cb = true ↔ cb.extractLsb' 0 8 ≠ 0#8)) ∧
  (∀ (cb : BitVec 16) (k : Nat), k < 16 → (sixes cb).extractLsb' (4 * k) 4 = if cb.getLsbD k then 6#4 else 0#4)

/-! ### Shifts, fields, halfwords -/

/-- SHRPD, SHRPW, EXTRD, EXTRW, DEPD, DEPDI, DEPW, DEPWI in their fixed and variable forms (44_shift_extract_deposit.md R592 to R599, R601): a fixed field
within its datum, whose rightmost bit is at `pos`, a variable one cut at the datum's left end; a fixed field that runs off the left end is
undefined. The functions are those of ShiftFields; a word result's upper half is free (the model's form, log entry 5). -/
def Obligations.ShiftsExtractsDeposits : Prop :=
  ∀ (s : State) (r2 r1 r t im5 cpos pos clen : BitVec 5) (c : BitVec 3) (se nz p cp cl : BitVec 1) (len wlen fp fpw : Nat), Plain s →
    len = 32 * cl.toNat + 32 - clen.toNat → wlen = 32 - clen.toNat → fp = 63 - (32 * cp.toNat + cpos.toNat) → fpw = 31 - cpos.toNat →
    ShiftsTo (.shrpdSar r2 r1 c t) s t c (shiftPair (s.readGr r1) (s.readGr r2) s.sar.toNat) ∧
    ShiftsTo (.shrpdFixed r2 r1 c cp cpos t) s t c (shiftPair (s.readGr r1) (s.readGr r2) fp) ∧
    ShiftsToWord (.shrpwSar r2 r1 c t) s t c (shiftPairWord (s.readGr r1) (s.readGr r2) (s.sar.toNat % 32)) ∧
    ShiftsToWord (.shrpwFixed r2 r1 c cpos t) s t c (shiftPairWord (s.readGr r1) (s.readGr r2) fpw) ∧
    ShiftsTo (.extrdSar r t c se cl clen) s t c (extractField 64 (isSet se) (s.readGr r) s.sar.toNat len) ∧
    ShiftsToWord (.extrwSar r t c se clen) s t c (extractField 32 (isSet se) (s.readGr r) (s.sar.toNat % 32) wlen) ∧
    ShiftsTo (.depdSar t r c nz cl clen) s t c (depositField 64 (if nz = 1#1 then s.readGr t else 0) (s.readGr r) s.sar.toNat len) ∧
    ShiftsTo (.depdiSar t im5 c nz cl clen) s t c (depositField 64 (if nz = 1#1 then s.readGr t else 0) (lowSignExt im5) s.sar.toNat len) ∧
    ShiftsToWord (.depwSar t r c nz clen) s t c
      (depositField 32 (if nz = 1#1 then s.readGr t else 0) (s.readGr r) (s.sar.toNat % 32) wlen) ∧
    ShiftsToWord (.depwiSar t im5 c nz clen) s t c
      (depositField 32 (if nz = 1#1 then s.readGr t else 0) (lowSignExt im5) (s.sar.toNat % 32) wlen) ∧
    (len ≤ 32 * p.toNat + pos.toNat + 1 →
      ShiftsTo (.extrdFixed r t c cl p se pos clen) s t c (extractField 64 (isSet se) (s.readGr r) (32 * p.toNat + pos.toNat) len)) ∧
    (32 * p.toNat + pos.toNat + 1 < len → exec (.extrdFixed r t c cl p se pos clen) s = .refused .fieldOffEnd) ∧
    (wlen ≤ pos.toNat + 1 →
      ShiftsToWord (.extrwFixed r t c se pos clen) s t c (extractField 32 (isSet se) (s.readGr r) pos.toNat wlen)) ∧
    (pos.toNat + 1 < wlen → exec (.extrwFixed r t c se pos clen) s = .refused .fieldOffEnd) ∧
    (len ≤ fp + 1 →
      ShiftsTo (.depdFixed t r c cl cp nz cpos clen) s t c (depositField 64 (if nz = 1#1 then s.readGr t else 0) (s.readGr r) fp len) ∧
      ShiftsTo (.depdiFixed t im5 c cl cp nz cpos clen) s t c
        (depositField 64 (if nz = 1#1 then s.readGr t else 0) (lowSignExt im5) fp len)) ∧
    (fp + 1 < len → exec (.depdFixed t r c cl cp nz cpos clen) s = .refused .fieldOffEnd ∧
      exec (.depdiFixed t im5 c cl cp nz cpos clen) s = .refused .fieldOffEnd) ∧
    (wlen ≤ fpw + 1 →
      ShiftsToWord (.depwFixed t r c nz cpos clen) s t c (depositField 32 (if nz = 1#1 then s.readGr t else 0) (s.readGr r) fpw wlen) ∧
      ShiftsToWord (.depwiFixed t im5 c nz cpos clen) s t c
        (depositField 32 (if nz = 1#1 then s.readGr t else 0) (lowSignExt im5) fpw wlen)) ∧
    (fpw + 1 < wlen → exec (.depwFixed t r c nz cpos clen) s = .refused .fieldOffEnd ∧
      exec (.depwiFixed t im5 c nz cpos clen) s = .refused .fieldOffEnd)

/-- The bits of a shifted pair, an extracted field and a deposit, numbered from the right, and the conditions on a result
(44_shift_extract_deposit.md R591 to R599): bit k of the pair's shift is bit k + sa of the pair; an extracted field of `len` bits, its rightmost bit
at bit {pos} and cut at the datum's left end, is extended with zeros or with its leftmost bit; a deposit replaces just the field's bits. -/
def Obligations.ShiftFields : Prop :=
  (∀ (x y : Dword) (sa k : Nat), k < 64 →
    (sa < 64 → (shiftPair x y sa).getLsbD k = if k + sa < 64 then y.getLsbD (k + sa) else x.getLsbD (k + sa - 64)) ∧
    (sa < 32 → (shiftPairWord x y sa).getLsbD k =
      (decide (k < 32) && if k + sa < 32 then y.getLsbD (k + sa) else x.getLsbD (k + sa - 32)))) ∧
  (∀ (width pos len n k : Nat) (x y : Dword) (signed : Bool), (width = 64 ∨ width = 32) → pos < width → 1 ≤ len → k < 64 →
    n = min len (pos + 1) →
    (extractField width signed x pos len).getLsbD k =
      (if k < n then x.getLsbD (width - 1 - pos + k) else signed && x.getLsbD (width - 1 - pos + n - 1)) ∧
    (depositField width x y pos len).getLsbD k =
      (if width - 1 - pos ≤ k ∧ k < width - 1 - pos + n then y.getLsbD (k - (width - 1 - pos)) else x.getLsbD k)) ∧
  (∀ (x : Dword) (d : Bool),
    shiftCondition 0#3 d x = false ∧ shiftCondition 4#3 d x = true ∧
    (shiftCondition 1#3 true x = true ↔ x = 0) ∧ (shiftCondition 1#3 false x = true ↔ x.extractLsb' 0 32 = 0) ∧
    shiftCondition 2#3 true x = x.getMsbD 0 ∧ shiftCondition 2#3 false x = x.getMsbD 32 ∧ shiftCondition 3#3 d x = x.getMsbD 63 ∧
    shiftCondition 5#3 d x = !(shiftCondition 1#3 d x) ∧ shiftCondition 6#3 d x = !(shiftCondition 2#3 d x) ∧
    shiftCondition 7#3 d x = !(shiftCondition 3#3 d x))

/-- The parallel halfword instructions (45_multimedia.md R620 to R631): each writes four lanes computed from the sources as they were; modular, signed
saturating and unsigned saturating sums and differences, averages rounded to odd, shifts with addition, shifts, and the rearrangements. PERMH with two
different source fields is undefined (R631). -/
def Obligations.Halfwords : Prop :=
  (∀ (s : State) (r2 r1 r t : BitVec 5) (sa : BitVec 2) (n : BitVec 4) (c0 c1 c2 c3 : BitVec 2) (x y z : Nat → BitVec 16), Plain s →
    (∀ i, x i = (s.readGr r1).extractLsb' (48 - 16 * i) 16) → (∀ i, y i = (s.readGr r2).extractLsb' (48 - 16 * i) 16) →
    (∀ i, z i = (s.readGr r).extractLsb' (48 - 16 * i) 16) →
    LanesTo (.hadd r2 r1 t) s t (fun i => x i + y i) ∧
    LanesTo (.haddSs r2 r1 t) s t (fun i => satSigned ((x i).toInt + (y i).toInt)) ∧
    LanesTo (.haddUs r2 r1 t) s t (fun i => satUnsigned ((x i).toNat + (y i).toInt)) ∧
    LanesTo (.hsub r2 r1 t) s t (fun i => x i - y i) ∧
    LanesTo (.hsubSs r2 r1 t) s t (fun i => satSigned ((x i).toInt - (y i).toInt)) ∧
    LanesTo (.hsubUs r2 r1 t) s t (fun i => satUnsigned ((x i).toNat - (y i).toInt)) ∧
    LanesTo (.havg r2 r1 t) s t (fun i => laneAverage (x i) (y i)) ∧
    LanesTo (.hshladd r2 r1 sa t) s t (fun i => laneShiftLeftAdd (x i) (y i) sa.toNat) ∧
    LanesTo (.hshradd r2 r1 sa t) s t (fun i => laneShiftRightAdd (x i) (y i) sa.toNat) ∧
    LanesTo (.hshl r n t) s t (fun i => z i <<< n.toNat) ∧
    LanesTo (.hshrU r n t) s t (fun i => z i >>> n.toNat) ∧
    LanesTo (.hshrS r n t) s t (fun i => (z i).sshiftRight n.toNat) ∧
    LanesTo (.mixhL r2 r1 t) s t (fun i => if i % 2 = 0 then x i else y (i - 1)) ∧
    LanesTo (.mixhR r2 r1 t) s t (fun i => if i % 2 = 0 then x (i + 1) else y i) ∧
    LanesTo (.mixwL r2 r1 t) s t (fun i => if i < 2 then x i else y (i - 2)) ∧
    LanesTo (.mixwR r2 r1 t) s t (fun i => if i < 2 then x (i + 2) else y i) ∧
    Completes (.permh r r c0 c1 c2 c3 t) s (s.writeGr t (z c0.toNat ++ z c1.toNat ++ z c2.toNat ++ z c3.toNat)) false ∧
    (r ≠ r2 → exec (.permh r r2 c0 c1 c2 c3 t) s = .refused .permhRegisters)) ∧
  (∀ (v : Int) (a b : BitVec 16) (sa : Nat), sa < 4 →
    (satSigned v).toInt = max (-32768) (min 32767 v) ∧ ((satUnsigned v).toNat : Int) = max 0 (min 65535 v) ∧
    (laneAverage a b).toNat = (a.toNat + b.toNat) / 2 + (if (a.toNat + b.toNat) % 4 = 1 then 1 else 0) ∧
    (laneShiftLeftAdd a b sa).toInt =
      (if -32768 ≤ a.toInt * 2 ^ sa ∧ a.toInt * 2 ^ sa ≤ 32767 then max (-32768) (min 32767 (a.toInt * 2 ^ sa + b.toInt))
        else max (-32768) (min 32767 (a.toInt * 2 ^ sa))) ∧
    (laneShiftRightAdd a b sa).toInt = max (-32768) (min 32767 (a.toInt / 2 ^ sa + b.toInt)))

/-! ### System control, cache and TLB -/

/-- LDSID, MTSP, MFSP, MFIA, MTSARCM, MTCTL and MFCTL (46_system_control.md R654 to R660; 10_state.md R60 to R79): what each register receives and reads as, the writes
and reads that are undefined operations, and the values that are undefined and so free (the model's form, log entry 5). The choices: a one written to a reserved bit is
an undefined operation (00_scope.md R19, D44; which bits are reserved and which only absent, log entry 18), MFCTL,W of another register than CR 11 is one (D17), the reads of CR 0 with PSW[R] = 1
and of CR 19 to 22 with PSW[Q] = 1 are free (D18; log entry 46). -/
def Obligations.RegisterMoves : Prop :=
  (∀ (s : State) (b r t : BitVec 5) (sr : BitVec 2) (sr3 n : BitVec 3) (v : Dword), Plain s → v = s.readGr r →
    n = sr3.extractLsb' 0 1 ++ sr3.extractLsb' 1 2 →
    (∀ w, s.spaceSelect sr (s.readGr b) false = .ok w → Completes (.ldsid b sr t) s (s.writeGr t w) false) ∧
    (∀ x, s.spaceSelect sr (s.readGr b) false = .error x → Completes (.ldsid b sr t) s ((s.writeGr t (s.free 0)).drawn 1) false) ∧
    (n.toNat < 5 ∨ s.priv = 0#2 → s.flag Psw.W = true → Completes (.mtsp r sr3) s (s.writeSr n v) false) ∧
    (n.toNat < 5 ∨ s.priv = 0#2 → s.flag Psw.W = false →
      Completes (.mtsp r sr3) s (s.writeSr n ((s.readSr n).extractLsb' 32 32 ++ v.extractLsb' 0 32)) false) ∧
    Completes (.mfsp sr3 t) s (s.writeGr t (s.readSr n)) false ∧
    Completes (.mfia t) s (s.writeGr t (s.iaoqFront &&& ~~~3#64)) false ∧
    Completes (.mtsarcm r) s { s with sar := ~~~(v.extractLsb' 0 6) } false ∧
    Completes (.mtctl 11#5 r) s { s with sar := v.extractLsb' 0 6 } false) ∧
  (∀ (s : State) (r t : BitVec 5) (v : Dword), Plain s → v = s.readGr r → s.priv = 0#2 →
    Completes (.mtctl 8#5 r) s { s with pid12 := v } false ∧ Completes (.mtctl 9#5 r) s { s with pid34 := v } false ∧
    Completes (.mtctl 12#5 r) s { s with pid56 := v } false ∧ Completes (.mtctl 13#5 r) s { s with pid78 := v } false ∧
    (v.extractLsb' 0 11 = 0 → Completes (.mtctl 14#5 r) s { s with iva := v } false) ∧
    (v.extractLsb' 0 11 ≠ 0 → exec (.mtctl 14#5 r) s = .refused .reservedBits) ∧ Completes (.mtctl 15#5 r) s { s with eiem := v } false ∧
    Completes (.mtctl 16#5 r) s { s with itmrCompare := v.extractLsb' 0 32 } false ∧
    Completes (.mtctl 23#5 r) s { s with eirr := s.eirr &&& ~~~v } false ∧
    (v.extractLsb' 16 48 ≠ 0 → exec (.mtctl 10#5 r) s = .refused .reservedBits) ∧
    (v.extractLsb' 16 48 = 0 → v.extractLsb' 8 8 &&& ~~~Config.sfusPresent = 0 → v.extractLsb' 0 8 &&& ~~~Config.coprocessorsPresent = 0 →
      Completes (.mtctl 10#5 r) s { s with scr := v.extractLsb' 8 8, ccr := v.extractLsb' 0 8 } false) ∧
    (v.extractLsb' 16 48 = 0 → v.extractLsb' 8 8 &&& ~~~Config.sfusPresent ≠ 0 ∨ v.extractLsb' 0 8 &&& ~~~Config.coprocessorsPresent ≠ 0 →
      exec (.mtctl 10#5 r) s = .refused .absentUnit) ∧
    (∀ k (h : k < 8), t.toNat = 24 + k → Completes (.mtctl t r) s { s with tr := s.tr.set k v h } false) ∧
    (s.flag Psw.R = false → ∃ u, exec (.mtctl 0#5 r) s = .next u ∧
      Ended { s with rctr := v.extractLsb' 0 32 } u false false (s.iaoqBack + 4) s.iasqBack ∧ u.rctr = v.extractLsb' 0 32 ∧
      SamePsw s u ∧ SameRequests s u ∧ AsIn s u) ∧
    (s.flag Psw.R = true → exec (.mtctl 0#5 r) s = .refused .recoveryCounterRunning) ∧
    (s.flag Psw.Q = false →
      Completes (.mtctl 17#5 r) s { s with iiasqFront := s.iiasqBack, iiasqBack := v } false ∧
      Completes (.mtctl 18#5 r) s { s with iiaoqFront := s.iiaoqBack, iiaoqBack := v } false ∧
      Completes (.mtctl 20#5 r) s { s with isr := v } false ∧ Completes (.mtctl 21#5 r) s { s with ior := v } false ∧
      (v &&& ~~~0x000000FFCFFFFFFF#64 = 0 → Completes (.mtctl 22#5 r) s { s with ipsw := v } false) ∧
      (v &&& ~~~0x000000FFCFFFFFFF#64 ≠ 0 → exec (.mtctl 22#5 r) s = .refused .reservedBits)) ∧
    (s.flag Psw.Q = true → ∀ k ∈ [17#5, 18#5, 20#5, 21#5, 22#5], exec (.mtctl k r) s = .refused .interruptionRegisterLive) ∧
    exec (.mtctl 19#5 r) s = .refused .writeOfIir) ∧
  (∀ (s : State) (r t : BitVec 5) (e : BitVec 1), 1 ≤ r.toNat → r.toNat ≤ 7 →
    exec (.mtctl r t) s = .refused .reservedControlRegister ∧ exec (.mfctl r e t) s = .refused .reservedControlRegister) ∧
  (∀ (s : State) (r t : BitVec 5), Plain s →
    Completes (.mfctl 11#5 1#1 t) s (s.writeGr t (s.sar.zeroExtend 64)) false ∧
    Completes (.mfctl 11#5 0#1 t) s (s.writeGr t (s.sar.zeroExtend 64 &&& 31#64)) false ∧
    Completes (.mfctl 26#5 0#1 t) s (s.writeGr t s.tr[2]) false ∧ Completes (.mfctl 27#5 0#1 t) s (s.writeGr t s.tr[3]) false ∧
    (s.flag Psw.S = false ∨ s.priv = 0#2 → Completes (.mfctl 16#5 0#1 t) s (s.writeGr t s.itmr) false) ∧
    (s.priv = 0#2 →
      (s.flag Psw.R = false → Completes (.mfctl 0#5 0#1 t) s (s.writeGr t (s.rctr.zeroExtend 64)) false) ∧
      (s.flag Psw.R = true → Completes (.mfctl 0#5 0#1 t) s ((s.writeGr t (s.free 0)).drawn 1) false) ∧
      Completes (.mfctl 8#5 0#1 t) s (s.writeGr t s.pid12) false ∧ Completes (.mfctl 9#5 0#1 t) s (s.writeGr t s.pid34) false ∧
      Completes (.mfctl 10#5 0#1 t) s (s.writeGr t ((s.scr ++ s.ccr).zeroExtend 64)) false ∧
      Completes (.mfctl 12#5 0#1 t) s (s.writeGr t s.pid56) false ∧ Completes (.mfctl 13#5 0#1 t) s (s.writeGr t s.pid78) false ∧
      Completes (.mfctl 14#5 0#1 t) s (s.writeGr t s.iva) false ∧ Completes (.mfctl 15#5 0#1 t) s (s.writeGr t s.eiem) false ∧
      Completes (.mfctl 23#5 0#1 t) s (s.writeGr t s.eirr) false ∧
      (∀ k (h : k < 8), r.toNat = 24 + k → Completes (.mfctl r 0#1 t) s (s.writeGr t s.tr[k]) false) ∧
      (s.flag Psw.Q = false →
        Completes (.mfctl 17#5 0#1 t) s (s.writeGr t s.iiasqFront) false ∧ Completes (.mfctl 18#5 0#1 t) s (s.writeGr t s.iiaoqFront) false ∧
        Completes (.mfctl 19#5 0#1 t) s (s.writeGr t (s.iir.zeroExtend 64)) false ∧ Completes (.mfctl 20#5 0#1 t) s (s.writeGr t s.isr) false ∧
        Completes (.mfctl 21#5 0#1 t) s (s.writeGr t s.ior) false ∧ Completes (.mfctl 22#5 0#1 t) s (s.writeGr t s.ipsw) false) ∧
      (s.flag Psw.Q = true →
        exec (.mfctl 17#5 0#1 t) s = .refused .interruptionRegisterLive ∧ exec (.mfctl 18#5 0#1 t) s = .refused .interruptionRegisterLive ∧
        (19 ≤ r.toNat → r.toNat ≤ 22 → Completes (.mfctl r 0#1 t) s ((s.writeGr t (s.free 0)).drawn 1) false)) ∧
      (r ≠ 11#5 → r = 0#5 ∨ 8 ≤ r.toNat → exec (.mfctl r 1#1 t) s = .refused .wideMoveNotSar)))

/-- SSM, RSM and MTSM at privilege level 0, BREAK, SYNC, SYNCDMA and DIAG (46_system_control.md R652, R653, R661 to R667; 10_state.md R50): the old mask to
GR[t], the bits of the immediate or of GR[r] set, cleared or moved into PSW[W, E, O, G, F, R, Q, P, D, I] and no other; setting PSW[Q] is undefined, clearing
it loses the interruption registers (free, log entries 5 and 36); BREAK takes its trap; SYNC and SYNCDMA only complete. DIAG at level 0 does what the implementation says (R653); that it is refused is
the decision D16 (DIAG_EFFECT, log entry 37). -/
def Obligations.SystemMask : Prop :=
  (∀ (s : State) (iv : BitVec 10) (t r : BitVec 5) (img mask gr : Dword), Plain s → s.priv = 0#2 →
    mask = 0x000000000C0000FF#64 → gr = s.readGr r →
    img = ((iv.extractLsb' 8 2).zeroExtend 64 <<< 26) ||| (iv.extractLsb' 0 8).zeroExtend 64 →
    (s.flag Psw.Q = true ∨ iv.getLsbD 3 = false →
      Completes (.ssm iv t) s { s.writeGr t (s.psw &&& mask) with psw := s.psw ||| img } false) ∧
    (s.flag Psw.Q = false → iv.getLsbD 3 = true → exec (.ssm iv t) s = .refused .settingQ) ∧
    (s.flag Psw.Q = false ∨ iv.getLsbD 3 = false →
      Completes (.rsm iv t) s { s.writeGr t (s.psw &&& mask) with psw := s.psw &&& ~~~img } false) ∧
    (s.flag Psw.Q = true → iv.getLsbD 3 = true →
      Completes (.rsm iv t) s ({ s.writeGr t (s.psw &&& mask) with psw := s.psw &&& ~~~img }.loseInterruptionState) false) ∧
    (s.flag Psw.Q = gr.getMsbD 60 → Completes (.mtsm r) s { s with psw := (s.psw &&& ~~~mask) ||| (gr &&& mask) } false) ∧
    (s.flag Psw.Q = true → gr.getMsbD 60 = false →
      Completes (.mtsm r) s ({ s with psw := (s.psw &&& ~~~mask) ||| (gr &&& mask) }.loseInterruptionState) false) ∧
    (s.flag Psw.Q = false → gr.getMsbD 60 = true → exec (.mtsm r) s = .refused .settingQ)) ∧
  (∀ (s : State) (im13 : BitVec 13) (im5 : BitVec 5) (im26 : BitVec 26),
    Traps (.brk im13 im5) s .breakInstruction .instr ∧
    (s.priv = 0#2 → exec (.diag im26) s = .refused .diagnose) ∧
    (Plain s → Completes .sync s s false ∧ Completes .syncdma s s false))

/-- FDC, FDCE, FIC, FICE and PDC (47_cache_tlb.md R710 to R715): the address is formed and, but for FDCE and FICE, with PSW[D] = 1 translated through the data
TLB; the base register is modified; a miss takes the non-access data TLB miss fault. The choices: no cache is modelled (R700, log entry 10), FIC translates through the data TLB
(FIC_USES_DTLB, D21) and PDC is a flush, without access checks (PDC_PURGES, D22; log entry 16). -/
def Obligations.CacheControl : Prop :=
  ∀ (s : State) (b x im5 : BitVec 5) (sr : BitVec 2) (sr3 : BitVec 3) (m : BitVec 1) (e e' : Ea) (a : DataAddr), Plain s →
    e = s.indexedEa b x sr 0#1 m 0 → e' = s.indexedEa b x 0#2 0#1 m 0 →
    (e.resolveVirtual s = .ok a →
      Completes (.fdce b x sr m) s (e.writeBack s) false ∧
      (s.flag Psw.D = false ∨ tlbLookup s.dtlb (s.gva a.space a.offset) ≠ none →
        Completes (.fdcIndexed b x sr m) s (e.writeBack s) false ∧ Completes (.pdc b x sr m) s (e.writeBack s) false ∧
        Completes (.ficImplicit b x sr m) s (e.writeBack s) false) ∧
      (s.flag Psw.D = true → tlbLookup s.dtlb (s.gva a.space a.offset) = none →
        Traps (.fdcIndexed b x sr m) s .nonAccessDataTlbMiss (.data a) ∧ Traps (.pdc b x sr m) s .nonAccessDataTlbMiss (.data a) ∧
        Traps (.ficImplicit b x sr m) s .nonAccessDataTlbMiss (.data a))) ∧
    ((s.ea b (lowSignExt im5) .none sr false).resolveVirtual s = .ok a →
      (s.flag Psw.D = false ∨ tlbLookup s.dtlb (s.gva a.space a.offset) ≠ none → Completes (.fdcShort b im5 sr) s s false) ∧
      (s.flag Psw.D = true → tlbLookup s.dtlb (s.gva a.space a.offset) = none →
        Traps (.fdcShort b im5 sr) s .nonAccessDataTlbMiss (.data a))) ∧
    Completes (.fice b x sr3 m) s (e'.writeBack s) false ∧
    (a = ⟨s.readSr (sr3.extractLsb' 0 1 ++ sr3.extractLsb' 1 2), e'.offset, e'.base⟩ →
      (s.flag Psw.D = false ∨ tlbLookup s.dtlb (s.gva a.space a.offset) ≠ none →
        Completes (.ficExplicit b x sr3 m) s (e'.writeBack s) false) ∧
      (s.flag Psw.D = true → tlbLookup s.dtlb (s.gva a.space a.offset) = none →
        Traps (.ficExplicit b x sr3 m) s .nonAccessDataTlbMiss (.data a)))

/-- IDTLBT, IITLBT, PDTLB, PDTLB,L, PITLB, PITLB,L, PDTLBE and PITLBE at privilege level 0 (47_cache_tlb.md R716 to R721; 21_translation.md R245, R270, R271): the entry
inserted is the one GR[r1] and GR[r2] describe, at the address in ISR and IOR or at the front of the IIA queues; a page inserted or purged removes every entry that
overlaps it and no other; the entries PDTLBE and PITLBE select are the implementation's (an opaque function of the model, log entry 11). The choices: an insert or a purge of a page size of code 8 to 15 is an undefined operation (R245; 93_implementation_defined.md section 2), as is an insert with PSW[Q] = 1
(D19), a purge takes its size from the base register before modification (D20), and the pages are aligned ranges whose entry keeps the fields it was given (DEDUCED, log
entry 33). -/
def Obligations.TlbInsertPurge : Prop :=
  (∀ (s : State) (r2 r1 : BitVec 5) (x y : Dword) (e f : TlbEntry), Plain s → s.priv = 0#2 → s.flag Psw.Q = false →
    x = s.readGr r1 → y = s.readGr r2 → (x.extractLsb' 0 4).toNat < 8 →
    e = { gva := s.isr ++ s.ior.extractLsb' 0 32, ppn := x.extractLsb' 5 52, size := x.extractLsb' 0 4, rights := y.extractLsb' 52 7,
          accessId := y.extractLsb' 1 31, t := y.getMsbD 2, d := y.getMsbD 3, b := y.getMsbD 4, u := y.getMsbD 12, o := y.getMsbD 13, p := false } →
    f = { gva := s.iiasqFront ++ s.iiaoqFront.extractLsb' 0 32, ppn := x.extractLsb' 5 52, size := x.extractLsb' 0 4,
          rights := y.extractLsb' 52 7, accessId := y.extractLsb' 1 31, t := false, d := false, b := false, u := false, o := false,
          p := y.getMsbD 14 } →
    Completes (.idtlbt r2 r1) s { s with dtlb := insertEntry s.dtlb e } false ∧
    Completes (.iitlbt r2 r1) s { s with itlb := insertEntry s.itlb f } false) ∧
  (∀ (s : State) (r2 r1 : BitVec 5), s.priv = 0#2 → s.flag Psw.Q = true →
    exec (.idtlbt r2 r1) s = .refused .insertWithQ ∧ exec (.iitlbt r2 r1) s = .refused .insertWithQ) ∧
  (∀ (s : State) (r2 r1 : BitVec 5), s.priv = 0#2 → s.flag Psw.Q = false → 8 ≤ ((s.readGr r1).extractLsb' 0 4).toNat →
    exec (.idtlbt r2 r1) s = .refused .reservedPageSize ∧ exec (.iitlbt r2 r1) s = .refused .reservedPageSize) ∧
  (∀ (s : State) (b x : BitVec 5) (sr : BitVec 2) (sr3 : BitVec 3) (m : BitVec 1) (e e' : Ea) (a a' : DataAddr) (size : BitVec 4), Plain s → s.priv = 0#2 →
    e = s.indexedEa b x sr 0#1 m 0 → e' = s.indexedEa b x 0#2 0#1 m 0 → e.resolveVirtual s = .ok a →
    a' = ⟨s.readSr (sr3.extractLsb' 0 1 ++ sr3.extractLsb' 1 2), e'.offset, e'.base⟩ → size = (s.readGr b).extractLsb' 0 4 →
    (size.toNat < 8 →
      Completes (.pdtlb b x sr m) s (e.writeBack { s with dtlb := purgePage s.dtlb (s.gva a.space a.offset) size }) false ∧
      Completes (.pdtlbL b x sr m) s (e.writeBack { s with dtlb := purgePage s.dtlb (s.gva a.space a.offset) size }) false ∧
      Completes (.pitlb b x sr3 m) s (e'.writeBack { s with itlb := purgePage s.itlb (s.gva a'.space a'.offset) size }) false ∧
      Completes (.pitlbL b x sr3 m) s (e'.writeBack { s with itlb := purgePage s.itlb (s.gva a'.space a'.offset) size }) false) ∧
    (8 ≤ size.toNat →
      exec (.pdtlb b x sr m) s = .refused .reservedPageSize ∧ exec (.pdtlbL b x sr m) s = .refused .reservedPageSize ∧
      exec (.pitlb b x sr3 m) s = .refused .reservedPageSize ∧ exec (.pitlbL b x sr3 m) s = .refused .reservedPageSize) ∧
    Completes (.pdtlbe b x sr m) s
      (e.writeBack { s with dtlb := s.dtlb.filter fun y => !(Config.dtlbPurgeSelects a.space a.offset y.gva) }) false ∧
    Completes (.pitlbe b x sr3 m) s
      (e'.writeBack { s with itlb := s.itlb.filter fun y => !(Config.itlbPurgeSelects a'.space a'.offset y.gva) }) false) ∧
  (∀ (tlb : List TlbEntry) (e f : TlbEntry) (g h : BitVec 96) (size : BitVec 4),
    (e.covers h = true → tlbLookup (insertEntry tlb e) h = some e) ∧
    (tlbLookup tlb h = none → e.covers h = false → tlbLookup (insertEntry tlb e) h = none) ∧
    (tlbLookup tlb h = some f → overlaps e.gva e.size f = false → tlbLookup (insertEntry tlb e) h = some f) ∧
    (g >>> (12 + 2 * size.toNat) = h >>> (12 + 2 * size.toNat) → tlbLookup (purgePage tlb g size) h = none) ∧
    (tlbLookup tlb h = some f → overlaps g size f = false → tlbLookup (purgePage tlb g size) h = some f))

/-- PROBE, PROBEI and LPA (47_cache_tlb.md R723 to R725) are translated through the data TLB whatever PSW[D] is, and a miss takes the non-access data TLB miss fault, whose
parameters have the translated format also with PSW[D] = 0 (DEDUCED, log entry 8). A probe answers 1 when the page's rights and identifier allow the access at the privilege level it
names, else 0; that level is not bounded by the current one (R724; log entry 60). LPA gives the physical address. LCI (R722) searches no TLB and completes. The model's choices: that LCI takes
no miss fault follows R722 against 60_exceptions.md R1029 (DEDUCED, log entry 8); that LCI is defined at all is that coherent I/O is present, against the default of R6 (DESIGN CHOICE,
log entry 7). On this machine without a cache GR[t] receives an undefined value, a free value here (R722; the form is log entry 5's). -/
def Obligations.Probes : Prop :=
  ∀ (s : State) (b r x iv t : BitVec 5) (sr : BitVec 2) (m : BitVec 1), Plain s →
    (∀ a : DataAddr, (s.ea b 0 .none sr false).resolveVirtual s = .ok a →
      (tlbLookup s.dtlb (s.gva a.space a.offset) = none →
        Traps (.probeR b r sr t) s .nonAccessDataTlbMiss (.virtualData a) ∧ Traps (.probeW b r sr t) s .nonAccessDataTlbMiss (.virtualData a) ∧
        Traps (.probeiR b iv sr t) s .nonAccessDataTlbMiss (.virtualData a) ∧
        Traps (.probeiW b iv sr t) s .nonAccessDataTlbMiss (.virtualData a)) ∧
      (∀ e, tlbLookup s.dtlb (s.gva a.space a.offset) = some e →
        Completes (.probeR b r sr t) s
          (s.writeGr t (if rightsOk e.rights .read ((s.readGr r).extractLsb' 0 2) && s.pidOk e.accessId .read then 1 else 0)) false ∧
        Completes (.probeW b r sr t) s
          (s.writeGr t (if rightsOk e.rights .write ((s.readGr r).extractLsb' 0 2) && s.pidOk e.accessId .write then 1 else 0)) false ∧
        Completes (.probeiR b iv sr t) s
          (s.writeGr t (if rightsOk e.rights .read (iv.extractLsb' 0 2) && s.pidOk e.accessId .read then 1 else 0)) false ∧
        Completes (.probeiW b iv sr t) s
          (s.writeGr t (if rightsOk e.rights .write (iv.extractLsb' 0 2) && s.pidOk e.accessId .write then 1 else 0)) false)) ∧
    (∀ a : DataAddr, s.priv = 0#2 → (s.indexedEa b x sr 0#1 m 0).resolveVirtual s = .ok a →
      (tlbLookup s.dtlb (s.gva a.space a.offset) = none → Traps (.lpa b x sr m t) s .nonAccessDataTlbMiss (.virtualData a)) ∧
      (∀ e, tlbLookup s.dtlb (s.gva a.space a.offset) = some e →
        Completes (.lpa b x sr m t) s
          (((s.indexedEa b x sr 0#1 m 0).writeBack s).writeGr t (e.translate (s.usedOffset a.offset))) false)) ∧
    (∀ a : DataAddr, s.priv = 0#2 → (s.indexedEa b x sr 0#1 0#1 0).resolveVirtual s = .ok a →
      Completes (.lci b x sr t) s ((s.writeGr t (s.free 0)).drawn 1) false) ∧
    (∀ (e : TlbEntry) (o : Dword) (k : Nat), k < 64 →
      (e.translate o).getLsbD k = if k < 12 + 2 * e.size.toNat then o.getLsbD k else decide (12 ≤ k) && e.ppn.getLsbD (k - 12))

/-! ### Assists -/

/-- SPOP0 to SPOP3, COPR of the units 1 and 3 to 7, PMENB and PMDIS (48_assist_sfu_copr.md R753 to R765, R770 to R772): with the unit's configuration bit 0 the assist
emulation trap; with it 1 the unit's exception or its effect and condition, which the source leaves to the unit (opaque functions of the model, log entry 9; those of a coprocessor read and write nothing
but its 32 registers, which are all its state, R755); IDENTIFY
raises no exception; PMENB and PMDIS set and clear measurement, PMDIS,N nullifying by its former value. The choices: COPR of unit 1 traps whenever CCR bit 1 is 0 and is undefined otherwise
(R756, R776 against R818; DEDUCED, log entry 38), and the performance monitor is present (log entry 6). -/
def Obligations.Assists : Prop :=
  (∀ (s : State) (sop15 : BitVec 15) (sop10 : BitVec 10) (sop5 sop2 r r1 r2 t : BitVec 5) (sfu : BitVec 3) (n : BitVec 1) (c0 c1 c2 c3 : Config.SfuCall),
    Plain s → c0 = s.sfuCall 0 sfu (sop15 ++ sfu ++ n ++ sop2).toNat 0 0 → c1 = s.sfuCall 1 sfu (sop15 ++ sfu ++ n).toNat 0 0 →
    c2 = s.sfuCall 2 sfu (sop10 ++ sfu ++ n ++ sop2).toNat (s.readGr r) 0 →
    c3 = s.sfuCall 3 sfu (sop5 ++ sfu ++ n ++ sop2).toNat (s.readGr r1) (s.readGr r2) →
    (s.scr.getMsbD sfu.toNat = false →
      Traps (.spop0 sop15 sfu n sop2) s .assistEmulation .instrUndefinedAddress ∧
      Traps (.spop1 sop15 sfu n t) s .assistEmulation .instrUndefinedAddress ∧
      Traps (.spop2 r sop10 sfu n sop2) s .assistEmulation .instrUndefinedAddress ∧
      Traps (.spop3 r2 r1 sop5 sfu n sop2) s .assistEmulation .instrUndefinedAddress) ∧
    (s.scr.getMsbD sfu.toNat = true →
      (sfuRaises c0 = false → Completes (.spop0 sop15 sfu n sop2) s (s.afterSfu c0) (isSet n && Config.sfuCondition c0)) ∧
      (sfuRaises c0 = true → Traps (.spop0 sop15 sfu n sop2) s .assistException .instr) ∧
      (sfuRaises c1 = false →
        Completes (.spop1 sop15 sfu n t) s ((s.afterSfu c1).writeGr t (Config.sfuResult c1)) (isSet n && Config.sfuCondition c1)) ∧
      (sfuRaises c1 = true → Traps (.spop1 sop15 sfu n t) s .assistException .instr) ∧
      (sop15 = 0 → n = 0 → sfuRaises c1 = false) ∧
      (sfuRaises c2 = false → Completes (.spop2 r sop10 sfu n sop2) s (s.afterSfu c2) (isSet n && Config.sfuCondition c2)) ∧
      (sfuRaises c2 = true → Traps (.spop2 r sop10 sfu n sop2) s .assistException .instr) ∧
      (sfuRaises c3 = false → Completes (.spop3 r2 r1 sop5 sfu n sop2) s (s.afterSfu c3) (isSet n && Config.sfuCondition c3)) ∧
      (sfuRaises c3 = true → Traps (.spop3 r2 r1 sop5 sfu n sop2) s .assistException .instr))) ∧
  (∀ (s : State) (sop1 : BitVec 17) (sop2 : BitVec 5) (lo : BitVec 2) (n : BitVec 1) (unit : BitVec 3) (c : Config.CoprCall), Plain s →
    c = ⟨unit, sop1 ++ sop2, n, s.priv, s.coprRegs unit, s.coprFitted unit⟩ →
    (unit = 3#3 →
      (s.ccr.getMsbD 3 = false → Traps (.copr3 sop1 n sop2) s .assistEmulation .instrUndefinedAddress) ∧
      (s.ccr.getMsbD 3 = true → coprRaises c = true → Traps (.copr3 sop1 n sop2) s .assistException .instr) ∧
      (s.ccr.getMsbD 3 = true → coprRaises c = false → Completes (.copr3 sop1 n sop2) s
        (s.setCopr unit (Config.coprRegisters c)) (isSet n && Config.coprCondition c))) ∧
    (unit = 1#1 ++ lo →
      (s.ccr.getMsbD unit.toNat = false → Traps (.copr4to7 sop1 lo n sop2) s .assistEmulation .instrUndefinedAddress) ∧
      (s.ccr.getMsbD unit.toNat = true →
        Completes (.copr4to7 0 lo 0 0) s (s.setCpr unit 0#5 (Config.coprIdentification unit)) false ∧
        (sop1 ++ sop2 ≠ 0 ∨ n = 1 → coprRaises c = true → Traps (.copr4to7 sop1 lo n sop2) s .assistException .instr) ∧
        (sop1 ++ sop2 ≠ 0 ∨ n = 1 → coprRaises c = false → Completes (.copr4to7 sop1 lo n sop2) s
          (s.setCopr unit (Config.coprRegisters c)) (isSet n && Config.coprCondition c)))) ∧
    (s.ccr.getMsbD 1 = false → Traps (.copr1 sop1 n sop2) s .assistEmulation .instrUndefinedAddress) ∧
    (s.ccr.getMsbD 0 = true → s.ccr.getMsbD 1 = true → exec (.copr1 sop1 n sop2) s = .refused .coprUnitOne) ∧
    (s.ccr.getMsbD 0 = false → s.ccr.getMsbD 1 = true → exec (.copr1 sop1 n sop2) s = .refused .mixedFpEnable) ∧
    (s.ccr.getMsbD 2 = false → Traps .pmenb s .assistEmulation .instrUndefinedAddress ∧
      Traps (.pmdis n) s .assistEmulation .instrUndefinedAddress) ∧
    (s.ccr.getMsbD 2 = true → Completes .pmenb s { s with measurementEnabled := true } false ∧
      Completes (.pmdis n) s { s with measurementEnabled := false } (isSet n && s.measurementEnabled)))

/-- CLDW, CLDD, CSTW and CSTD in their short and indexed forms for the units 2 to 7 (48_assist_sfu_copr.md R758, R766 to R769, R774): with the unit's configuration bit 1 its
exception comes first, else a reference that is not allowed takes the interruption or refusal of its check (21_translation.md R266), and the datum of one that is goes between memory and the
unit's register; with it 0 the reference takes the same, and an allowed one takes the assist emulation trap with the data address (R758, 60_exceptions.md R1037; log entry 27). What part of the register a word is, is the unit's (opaque functions of the model, log entry 9, unit 2's
among them), and a store leaves the registers as they are (R755); the form of a word in a register is log entry 31's, an explicit space with data translation off log entry 29's, and that the Block Copy hint lets no other byte change log entry 34's. -/
def Obligations.CoprLoadsStores : Prop :=
  ∀ (s : State) (b x im5 t : BitVec 5) (sr cc : BitVec 2) (a u m lo : BitVec 1) (lo4 : BitVec 2), Plain s →
    CoprLoads (.cldwIndexed2 b x sr u cc lo m t) s (s.indexedEa b x sr u m 2) (1#2 ++ lo) false t ∧
    CoprLoads (.cldwShort2 b im5 sr a cc lo m t) s (s.shortEa b im5 sr a m) (1#2 ++ lo) false t ∧
    CoprLoads (.cldwIndexed4 b x sr u cc lo4 m t) s (s.indexedEa b x sr u m 2) (1#1 ++ lo4) false t ∧
    CoprLoads (.cldwShort4 b im5 sr a cc lo4 m t) s (s.shortEa b im5 sr a m) (1#1 ++ lo4) false t ∧
    CoprLoads (.clddIndexed2 b x sr u cc lo m t) s (s.indexedEa b x sr u m 3) (1#2 ++ lo) true t ∧
    CoprLoads (.clddShort2 b im5 sr a cc lo m t) s (s.shortEa b im5 sr a m) (1#2 ++ lo) true t ∧
    CoprLoads (.clddIndexed4 b x sr u cc lo4 m t) s (s.indexedEa b x sr u m 3) (1#1 ++ lo4) true t ∧
    CoprLoads (.clddShort4 b im5 sr a cc lo4 m t) s (s.shortEa b im5 sr a m) (1#1 ++ lo4) true t ∧
    (s.mem.wf = true →
      CoprStores (.cstwIndexed2 b x sr u cc lo m t) s (s.indexedEa b x sr u m 2) (1#2 ++ lo) false t ∧
      CoprStores (.cstwShort2 b im5 sr a cc lo m t) s (s.shortEa b im5 sr a m) (1#2 ++ lo) false t ∧
      CoprStores (.cstwIndexed4 b x sr u cc lo4 m t) s (s.indexedEa b x sr u m 2) (1#1 ++ lo4) false t ∧
      CoprStores (.cstwShort4 b im5 sr a cc lo4 m t) s (s.shortEa b im5 sr a m) (1#1 ++ lo4) false t ∧
      CoprStores (.cstdIndexed2 b x sr u cc lo m t) s (s.indexedEa b x sr u m 3) (1#2 ++ lo) true t ∧
      CoprStores (.cstdShort2 b im5 sr a cc lo m t) s (s.shortEa b im5 sr a m) (1#2 ++ lo) true t ∧
      CoprStores (.cstdIndexed4 b x sr u cc lo4 m t) s (s.indexedEa b x sr u m 3) (1#1 ++ lo4) true t ∧
      CoprStores (.cstdShort4 b im5 sr a cc lo4 m t) s (s.shortEa b im5 sr a m) (1#1 ++ lo4) true t)

/-! ### Floating point -/

/-- FLDW, FLDD, FSTW and FSTD in every format (50_fp_instructions.md R871 to R875): the word between memory and the named half of the register, the doubleword and the
whole register; FSTD of register 0 executes with T = 1 and after FID (R880) and clears T after the store; between FID and that store every other one is undefined. A reference that is not allowed takes the interruption or refusal of its check, the coprocessor enabled or not (21_translation.md R266). The choices: register 0's
undefined bits store as free values (log entries 5 and 44), its layout (D25, log entry 20), the assist emulation trap after the reference's checks (R758, R1037 against R875; log entry 27), the Block Copy hint
lets no other byte change (log entry 34), and what a load tells the later compares, tests and FID (R898, R880; log entry 44), which the first clause says. -/
def Obligations.FpLoadsStores : Prop :=
  (∀ (s : State) (t : BitVec 5) (double : Bool),
    s.fpLoaded t double = (if t = 0#5 then { s with fpQueue := 12, fpArray := 0x7F#7, fpSequence := if double then .stored else .other }
      else { s with fpSequence := .other })) ∧
  ∀ (s : State) (b x im5 t : BitVec 5) (sr cc : BitVec 2) (im11a : BitVec 11) (im10a : BitVec 10) (a u m h iv : BitVec 1), Plain s →
    FpLoadsWord (.fldwLong b t sr im11a h iv) s (s.fpLongEa b sr im11a iv .none) t h ∧
    FpLoadsWord (.fldwLongMod b t sr im11a a h iv) s (s.fpLongEa b sr im11a iv (if a = 1#1 then .before else .after)) t h ∧
    FpLoadsWord (.fldwShort b im5 sr a cc h m t) s (s.shortEa b im5 sr a m) t h ∧
    FpLoadsWord (.fldwIndexed b x sr u cc h m t) s (s.indexedEa b x sr u m 2) t h ∧
    FpLoadsDouble (.flddLong b t sr im10a m a iv) s (s.long10Ea b sr im10a m a iv) t ∧
    FpLoadsDouble (.flddShort b im5 sr a cc m t) s (s.shortEa b im5 sr a m) t ∧
    FpLoadsDouble (.flddIndexed b x sr u cc m t) s (s.indexedEa b x sr u m 3) t ∧
    (s.mem.wf = true →
      FpStoresWord (.fstwLong b t sr im11a h iv) s (s.fpLongEa b sr im11a iv .none) t h ∧
      FpStoresWord (.fstwLongMod b t sr im11a a h iv) s (s.fpLongEa b sr im11a iv (if a = 1#1 then .before else .after)) t h ∧
      FpStoresWord (.fstwShort b im5 sr a cc h m t) s (s.shortEa b im5 sr a m) t h ∧
      FpStoresWord (.fstwIndexed b x sr u cc h m t) s (s.indexedEa b x sr u m 2) t h ∧
      FpStoresDouble (.fstdLong b t sr im10a m a iv) s (s.long10Ea b sr im10a m a iv) t ∧
      FpStoresDouble (.fstdShort b im5 sr a cc m t) s (s.shortEa b im5 sr a m) t ∧
      FpStoresDouble (.fstdIndexed b x sr u cc m t) s (s.indexedEa b x sr u m 3) t)

/-- What keeps a floating-point operation from executing (48_assist_sfu_copr.md R756; 49_floating_point.md R818; 50_fp_instructions.md R878; 51_fp_exceptions.md R936, R941): configuration
bits that differ are undefined, both 0 the assist emulation trap, an armed delayed trap the assist exception trap, and with T = 0 an exception register that holds an
exception undefined; so is an operation right after FID (R880; that this comes before the delayed trap is the model's choice, log entry 44). -/
def Obligations.FpGates : Prop :=
  ∀ (s : State) (i : Instr), isFpOperation i = true →
    (s.coprEnabled 0#3 ≠ s.coprEnabled 1#3 → exec i s = .refused .mixedFpEnable) ∧
    (s.coprEnabled 0#3 = false → s.coprEnabled 1#3 = false → Traps i s .assistEmulation .instrUndefinedAddress) ∧
    (s.coprEnabled 0#3 = true → s.coprEnabled 1#3 = true → s.fpSequence = .identified → exec i s = .refused .fpIdentifyAlone) ∧
    (s.coprEnabled 0#3 = true → s.coprEnabled 1#3 = true → s.fpSequence ≠ .identified → s.fpTrap = true →
      Traps i s .assistException .instr) ∧
    (FpOn s → (s.fpPending = true ↔ ∃ k, 1 ≤ k ∧ k ≤ 7 ∧
      (if k % 2 = 1 then (s.readFpr (BitVec.ofNat 5 (k / 2))).extractLsb' 26 6 else (s.readFpr (BitVec.ofNat 5 (k / 2))).extractLsb' 58 6) ≠ 0) ∧
      (s.fpPending = true → exec i s = .refused .fpPendingField))

/-- The floating-point operations on a coprocessor that is ready (50_fp_instructions.md R878 to R909; 49_floating_point.md R844 to R848; 51_fp_exceptions.md R935, R947): each delivers to its
destination the result of the format its code names, on the sources its fields name; XMPYU the exact product of two words; the fused operations one rounding; FMPYADD and FMPYSUB two
results or, when either traps, an unimplemented exception. What a delivery does is FpDelivered, and what the results are FpRounded. The choices: an operation with a quad goes to software before its
operands are looked at (log entries 41 and 43), the two parts of the fused ra specifier (PRESUMED, log entry 51), the codes and the order of NaNs (log entries 42 and 59). FMPYADD and FMPYSUB with overlapping registers
or with a specifier 0 are refused; that this holds of a doubleword rm1 or rm2 too is read from 93_implementation_defined.md section 2 (log entry 57). In every
operation an exception register as a source, register 0 to 3 as a destination and an extension bit on a doubleword are refused (R805, R806, D27). -/
def Obligations.FpOperations : Prop :=
  (∀ (s : State) (r r1 r2 t : BitVec 5) (fmt : BitVec 2) (f rx tx x1 x2 : BitVec 1) (hi lo : BitVec 3), Plain s → FpReady s →
    FpCompletes (.fcpy r fmt t) s code0C (reg0C t fmt) [reg0C r fmt] (copyBits (sizeOf2 fmt).fmt s.fpEnv (s.fpRead (reg0C r fmt))) ∧
    FpCompletes (.fcpyE r f rx tx t) s code0E (reg0E t tx f) [reg0E r rx f] (copyBits (sizeOf1 f).fmt s.fpEnv (s.fpRead (reg0E r rx f))) ∧
    FpCompletes (.fabs r fmt t) s code0C (reg0C t fmt) [reg0C r fmt] (absBits (sizeOf2 fmt).fmt s.fpEnv (s.fpRead (reg0C r fmt))) ∧
    FpCompletes (.fabsE r f rx tx t) s code0E (reg0E t tx f) [reg0E r rx f] (absBits (sizeOf1 f).fmt s.fpEnv (s.fpRead (reg0E r rx f))) ∧
    FpCompletes (.fneg r fmt t) s code0C (reg0C t fmt) [reg0C r fmt] (negBits (sizeOf2 fmt).fmt s.fpEnv (s.fpRead (reg0C r fmt))) ∧
    FpCompletes (.fnegE r f rx tx t) s code0E (reg0E t tx f) [reg0E r rx f] (negBits (sizeOf1 f).fmt s.fpEnv (s.fpRead (reg0E r rx f))) ∧
    FpCompletes (.fnegabs r fmt t) s code0C (reg0C t fmt) [reg0C r fmt] (negAbsBits (sizeOf2 fmt).fmt s.fpEnv (s.fpRead (reg0C r fmt))) ∧
    FpCompletes (.fnegabsE r f rx tx t) s code0E (reg0E t tx f) [reg0E r rx f] (negAbsBits (sizeOf1 f).fmt s.fpEnv (s.fpRead (reg0E r rx f))) ∧
    FpCompletes (.fsqrt r fmt t) s code0C (reg0C t fmt) [reg0C r fmt] ((sizeOf2 fmt).fmt.sqrt s.fpEnv (s.fpRead (reg0C r fmt))) ∧
    FpCompletes (.fsqrtE r f rx tx t) s code0E (reg0E t tx f) [reg0E r rx f] ((sizeOf1 f).fmt.sqrt s.fpEnv (s.fpRead (reg0E r rx f))) ∧
    FpCompletes (.frnd r fmt t) s code0C (reg0C t fmt) [reg0C r fmt] ((sizeOf2 fmt).fmt.round s.fpEnv (s.fpRead (reg0C r fmt))) ∧
    FpCompletes (.frndE r f rx tx t) s code0E (reg0E t tx f) [reg0E r rx f] ((sizeOf1 f).fmt.round s.fpEnv (s.fpRead (reg0E r rx f))) ∧
    FpCompletes (.fadd r1 r2 fmt t) s code0C (reg0C t fmt) [reg0C r1 fmt, reg0C r2 fmt]
      ((sizeOf2 fmt).fmt.add s.fpEnv (s.fpRead (reg0C r1 fmt)) (s.fpRead (reg0C r2 fmt))) ∧
    FpCompletes (.faddE r1 r2 x2 f x1 tx t) s code0E (reg0E t tx f) [reg0E r1 x1 f, reg0E r2 x2 f]
      ((sizeOf1 f).fmt.add s.fpEnv (s.fpRead (reg0E r1 x1 f)) (s.fpRead (reg0E r2 x2 f))) ∧
    FpCompletes (.fsub r1 r2 fmt t) s code0C (reg0C t fmt) [reg0C r1 fmt, reg0C r2 fmt]
      ((sizeOf2 fmt).fmt.sub s.fpEnv (s.fpRead (reg0C r1 fmt)) (s.fpRead (reg0C r2 fmt))) ∧
    FpCompletes (.fsubE r1 r2 x2 f x1 tx t) s code0E (reg0E t tx f) [reg0E r1 x1 f, reg0E r2 x2 f]
      ((sizeOf1 f).fmt.sub s.fpEnv (s.fpRead (reg0E r1 x1 f)) (s.fpRead (reg0E r2 x2 f))) ∧
    FpCompletes (.fmpy r1 r2 fmt t) s code0C (reg0C t fmt) [reg0C r1 fmt, reg0C r2 fmt]
      ((sizeOf2 fmt).fmt.mul s.fpEnv (s.fpRead (reg0C r1 fmt)) (s.fpRead (reg0C r2 fmt))) ∧
    FpCompletes (.fmpyE r1 r2 x2 f x1 tx t) s code0E (reg0E t tx f) [reg0E r1 x1 f, reg0E r2 x2 f]
      ((sizeOf1 f).fmt.mul s.fpEnv (s.fpRead (reg0E r1 x1 f)) (s.fpRead (reg0E r2 x2 f))) ∧
    FpCompletes (.fdiv r1 r2 fmt t) s code0C (reg0C t fmt) [reg0C r1 fmt, reg0C r2 fmt]
      ((sizeOf2 fmt).fmt.div s.fpEnv (s.fpRead (reg0C r1 fmt)) (s.fpRead (reg0C r2 fmt))) ∧
    FpCompletes (.fdivE r1 r2 x2 f x1 tx t) s code0E (reg0E t tx f) [reg0E r1 x1 f, reg0E r2 x2 f]
      ((sizeOf1 f).fmt.div s.fpEnv (s.fpRead (reg0E r1 x1 f)) (s.fpRead (reg0E r2 x2 f))) ∧
    FpCompletes (.xmpyu r1 r2 x2 x1 t) s code0E ⟨t, 0#1, .double⟩ [⟨r1, x1, .single⟩, ⟨r2, x2, .single⟩]
      (.value (s.fpRead ⟨r1, x1, .single⟩ * s.fpRead ⟨r2, x2, .single⟩) 0#5) ∧
    FpCompletes (.fmpyfadd r1 r2 hi x2 f lo x1 tx t) s code2E (reg0E t tx f) [reg0E r1 x1 f, reg0E r2 x2 f, regFused hi lo f]
      ((sizeOf1 f).fmt.fused s.fpEnv false (s.fpRead (reg0E r1 x1 f)) (s.fpRead (reg0E r2 x2 f)) (s.fpRead (regFused hi lo f))).fusedOnly ∧
    FpCompletes (.fmpynfadd r1 r2 hi x2 f lo x1 tx t) s code2E (reg0E t tx f) [reg0E r1 x1 f, reg0E r2 x2 f, regFused hi lo f]
      ((sizeOf1 f).fmt.fused s.fpEnv true (s.fpRead (reg0E r1 x1 f)) (s.fpRead (reg0E r2 x2 f)) (s.fpRead (regFused hi lo f))).fusedOnly) ∧
  (∀ (s : State) (rm1 rm2 ta ra tm : BitVec 5) (f : BitVec 1) (g : BitVec 5 → FpReg) (z : FpSize), Plain s → FpReady s →
    g = (fun v => if f = 1#1 then ⟨1#1 ++ v.extractLsb' 0 4, v.extractLsb' 4 1, .single⟩ else ⟨v, 0#1, .double⟩) →
    z = (if f = 1#1 then .single else .double) → ra ≠ tm → ta ≠ rm1 → ta ≠ rm2 → ta ≠ tm →
    (∀ v ∈ [rm1, rm2, ta, ra, tm], if f = 1#1 then v ≠ 0#5 else 4 ≤ v.toNat) →
    (∀ a b, z.fmt.mul s.fpEnv (s.fpRead (g rm1)) (s.fpRead (g rm2)) = a → z.fmt.add s.fpEnv (s.fpRead (g ta)) (s.fpRead (g ra)) = b →
      (∀ m u n v, a = .value m u → b = .value n v →
        Completes (.fmpyadd rm1 rm2 ta ra f tm) s ((((s.fpWrite (g tm) m).fpWrite (g ta) n).fpFlags (u ||| v)).fpDid .other) false) ∧
      ((∀ m u, a ≠ .value m u) ∨ (∀ n v, b ≠ .value n v) →
        Completes (.fmpyadd rm1 rm2 ta ra f tm) s ((s.fpDeliver code06 (g tm) [g rm1, g rm2, g ta, g ra] .unimplemented).fpDid .other) false)) ∧
    (∀ a b, z.fmt.mul s.fpEnv (s.fpRead (g rm1)) (s.fpRead (g rm2)) = a → z.fmt.sub s.fpEnv (s.fpRead (g ta)) (s.fpRead (g ra)) = b →
      (∀ m u n v, a = .value m u → b = .value n v →
        Completes (.fmpysub rm1 rm2 ta ra f tm) s ((((s.fpWrite (g tm) m).fpWrite (g ta) n).fpFlags (u ||| v)).fpDid .other) false) ∧
      ((∀ m u, a ≠ .value m u) ∨ (∀ n v, b ≠ .value n v) →
        Completes (.fmpysub rm1 rm2 ta ra f tm) s ((s.fpDeliver code26 (g tm) [g rm1, g rm2, g ta, g ra] .unimplemented).fpDid .other) false))) ∧
  (∀ (s : State) (rm1 rm2 ta ra tm : BitVec 5) (f : BitVec 1), FpReady s →
    ra = tm ∨ ta = rm1 ∨ ta = rm2 ∨ ta = tm ∨ (∃ v ∈ [rm1, rm2, ta, ra, tm], v = 0#5) →
    exec (.fmpyadd rm1 rm2 ta ra f tm) s = .refused .fpMultiOperands ∧ exec (.fmpysub rm1 rm2 ta ra f tm) s = .refused .fpMultiOperands) ∧
  (∀ (s : State) (rm1 rm2 ta ra tm : BitVec 5), FpReady s → ra ≠ tm → ta ≠ rm1 → ta ≠ rm2 → ta ≠ tm → (∀ v ∈ [rm1, rm2, ta, ra, tm], v ≠ 0#5) →
    (∃ v ∈ [rm1, rm2, ta, ra, tm], v.toNat < 4) →
    exec (.fmpyadd rm1 rm2 ta ra 0#1 tm) s = .refused .fpRegister ∧ exec (.fmpysub rm1 rm2 ta ra 0#1 tm) s = .refused .fpRegister)

/-- FCNV in every form (50_fp_instructions.md R888 to R895; 51_fp_exceptions.md R951): between formats, from a signed or unsigned integer, and to one by the rounding mode or toward
zero. A finite value converts to the integer the rounding mode chooses; one out of range, and an infinity (51_fp_exceptions.md R950), is an invalid operation that delivers the nearest
integer of the format; a NaN is unimplemented (R948). The choices: a quad goes to software (log entries 41 and 43), a trapping exception sets no flag (FP_FLAG_ON_TRAP false, log entry 41), and an unsigned quad out of the single range gives a
free result (log entry 42). An exception register as a source, register 0 to 3 as a destination and an extension bit on a doubleword are
refused (49_floating_point.md R805, R806, D27). -/
def Obligations.FpConversions : Prop :=
  (∀ (s : State) (r t : BitVec 5) (df sf : BitVec 2) (rx tx df1 sf1 : BitVec 1), Plain s → FpReady s →
    FpCompletes (.fcnvFF r df sf t) s code0C (reg0C t df) [(reg0C r sf)]
      (convertFloat (sizeOf2 sf).fmt (sizeOf2 df).fmt s.fpEnv (s.fpRead (reg0C r sf))) ∧
    FpCompletes (.fcnvFFE r df1 sf1 rx tx t) s code0E (reg0E t tx df1) [(reg0E r rx sf1)]
      (convertFloat (sizeOf1 sf1).fmt (sizeOf1 df1).fmt s.fpEnv (s.fpRead (reg0E r rx sf1))) ∧
    FpCompletes (.fcnvXF r df sf t) s code0C (reg0C t df) [(reg0C r sf)]
      (convertInteger (sizeOf2 df).fmt s.fpEnv (signedInt (sizeOf2 sf).bits (s.fpRead (reg0C r sf))) (s.free 0).toNat) ∧
    FpCompletes (.fcnvXFE r df1 sf1 rx tx t) s code0E (reg0E t tx df1) [(reg0E r rx sf1)]
      (convertInteger (sizeOf1 df1).fmt s.fpEnv (signedInt (sizeOf1 sf1).bits (s.fpRead (reg0E r rx sf1))) (s.free 0).toNat) ∧
    FpCompletes (.fcnvFX r df sf t) s code0C (reg0C t df) [(reg0C r sf)]
      (convertToInteger (sizeOf2 sf).fmt s.fpEnv s.fpEnv.rm true (sizeOf2 df).bits (s.fpRead (reg0C r sf))) ∧
    FpCompletes (.fcnvFXE r df1 sf1 rx tx t) s code0E (reg0E t tx df1) [(reg0E r rx sf1)]
      (convertToInteger (sizeOf1 sf1).fmt s.fpEnv s.fpEnv.rm true (sizeOf1 df1).bits (s.fpRead (reg0E r rx sf1))) ∧
    FpCompletes (.fcnvFXT r df sf t) s code0C (reg0C t df) [(reg0C r sf)]
      (convertToInteger (sizeOf2 sf).fmt s.fpEnv 1#2 true (sizeOf2 df).bits (s.fpRead (reg0C r sf))) ∧
    FpCompletes (.fcnvFXTE r df1 sf1 rx tx t) s code0E (reg0E t tx df1) [(reg0E r rx sf1)]
      (convertToInteger (sizeOf1 sf1).fmt s.fpEnv 1#2 true (sizeOf1 df1).bits (s.fpRead (reg0E r rx sf1))) ∧
    FpCompletes (.fcnvUF r df sf t) s code0C (reg0C t df) [(reg0C r sf)]
      (convertInteger (sizeOf2 df).fmt s.fpEnv (s.fpRead (reg0C r sf)) (s.free 0).toNat) ∧
    FpCompletes (.fcnvUFE r df1 sf1 rx tx t) s code0E (reg0E t tx df1) [(reg0E r rx sf1)]
      (convertInteger (sizeOf1 df1).fmt s.fpEnv (s.fpRead (reg0E r rx sf1)) (s.free 0).toNat) ∧
    FpCompletes (.fcnvFU r df sf t) s code0C (reg0C t df) [(reg0C r sf)]
      (convertToInteger (sizeOf2 sf).fmt s.fpEnv s.fpEnv.rm false (sizeOf2 df).bits (s.fpRead (reg0C r sf))) ∧
    FpCompletes (.fcnvFUE r df1 sf1 rx tx t) s code0E (reg0E t tx df1) [(reg0E r rx sf1)]
      (convertToInteger (sizeOf1 sf1).fmt s.fpEnv s.fpEnv.rm false (sizeOf1 df1).bits (s.fpRead (reg0E r rx sf1))) ∧
    FpCompletes (.fcnvFUT r df sf t) s code0C (reg0C t df) [(reg0C r sf)]
      (convertToInteger (sizeOf2 sf).fmt s.fpEnv 1#2 false (sizeOf2 df).bits (s.fpRead (reg0C r sf))) ∧
    FpCompletes (.fcnvFUTE r df1 sf1 rx tx t) s code0E (reg0E t tx df1) [(reg0E r rx sf1)]
      (convertToInteger (sizeOf1 sf1).fmt s.fpEnv 1#2 false (sizeOf1 df1).bits (s.fpRead (reg0E r rx sf1)))) ∧
  (∀ (z : FpSize) (env : FpEnv) (rm : BitVec 2) (signed : Bool) (n a : Nat) (v : ℝ) (lo hi : Int), (n = 32 ∨ n = 64 ∨ n = 128) →
    lo = (if signed then -2 ^ (n - 1) else 0) → hi = (if signed then 2 ^ (n - 1) - 1 else 2 ^ n - 1) →
    (z.fmt.value a = .nan → convertToInteger z.fmt env rm signed n a = .unimplemented) ∧
    (∀ neg : Bool, z.fmt.value a = .inf neg →
      (env.traps fpV = true → convertToInteger z.fmt env rm signed n a = .trapped 0b100000#6 none 0#5) ∧
      (env.traps fpV = false → convertToInteger z.fmt env rm signed n a = .value ((if neg then lo else hi) % 2 ^ n).toNat fpV)) ∧
    (Denotes (z.fmt.value a) v → ∃ k : Int,
      (rm = 0#2 → abs (k - v) ≤ 1 / 2 ∧ (abs (k - v) = 1 / 2 → k % 2 = 0)) ∧
      (rm = 1#2 → abs (k : ℝ) ≤ abs v ∧ abs v < abs (k : ℝ) + 1 ∧ 0 ≤ k * v) ∧
      (rm = 2#2 → v ≤ k ∧ k < v + 1) ∧ (rm = 3#2 → k ≤ v ∧ v < k + 1) ∧
      (lo ≤ k → k ≤ hi → (k : ℝ) = v → convertToInteger z.fmt env rm signed n a = .value (k % 2 ^ n).toNat 0#5) ∧
      (lo ≤ k → k ≤ hi → (k : ℝ) ≠ v → env.traps fpI = false →
        convertToInteger z.fmt env rm signed n a = .value (k % 2 ^ n).toNat fpI) ∧
      (lo ≤ k → k ≤ hi → (k : ℝ) ≠ v → env.traps fpI = true →
        convertToInteger z.fmt env rm signed n a = .trapped 0b000010#6 (some (k % 2 ^ n).toNat) 0#5) ∧
      (k < lo ∨ hi < k → env.traps fpV = true → convertToInteger z.fmt env rm signed n a = .trapped 0b100000#6 none 0#5) ∧
      (k < lo → env.traps fpV = false → convertToInteger z.fmt env rm signed n a = .value (lo % 2 ^ n).toNat fpV) ∧
      (hi < k → env.traps fpV = false → convertToInteger z.fmt env rm signed n a = .value (hi % 2 ^ n).toNat fpV)))

/-- FCMP, FTEST and FID (50_fp_instructions.md R880, R897, R898; 49_floating_point.md R825, R826, R827, R841, R843): a compare without a trapped invalid operation answers by the relation of its
operands and the condition's bits, −∞ being less than every finite number and +∞ greater, and an infinity equal to itself (R852); with y = 0 the answer becomes C and the old C enters the queue, else it becomes CA{y-1} and C and CQ{7..10} are free (log entry 5); a
test nullifies by a target bit or by the queue, and is undefined where it reads a result that a compare of the other kind has replaced (R898; how the state keeps that, log entry 44); FID, undefined but after a doubleword
store of register 0 (R880; or a doubleword load of it, log entry 44), gives the model and revision (opaque constants of the model) and leaves the rest of the Status Register free. The places of C, CQ, CA, model and revision are
the spec's choice (D25, log entry 20), and a quad compare goes to software (log entry 41). Of a compare too, an exception register or a doubleword's extension bit is
refused (49_floating_point.md R805, R806, D27). -/
def Obligations.FpCompareTest : Prop :=
  (∀ (s : State) (r1 r2 : BitVec 5) (y : BitVec 3) (fmt : BitVec 2) (f x1 x2 : BitVec 1) (c : BitVec 5), Plain s → FpReady s →
    FpCompares (.fcmp r1 r2 y fmt c) s code0C (reg0C r1 fmt) (reg0C r2 fmt) y c ∧
    FpCompares (.fcmpE r1 r2 y x2 f x1 c) s code0E (reg0E r1 x1 f) (reg0E r2 x2 f) y c ∧
    (s.fpSequence = .stored → Completes .fid s
      { (s.writeFpr 0#5 ((((s.free 0).extractLsb' 32 32 &&& 0xFFC007FF#32) ||| ((Config.fpModel ++ Config.fpRevision).zeroExtend 32 <<< 11)) ++
        (s.readFpr 0#5).extractLsb' 0 32)).drawn 1 with fpQueue := 12, fpArray := 0x7F#7, fpSequence := .identified } false) ∧
    (s.fpSequence ≠ .stored → exec .fid s = .refused .fpIdentifyAlone) ∧
    (y ≠ 1#3 →
      (s.fpArray.getMsbD ((y ^^^ 1#3).toNat - 1) = true →
        Completes (.ftest y 0#5) s (s.fpDid .other) ((s.readFpr 0#5).getMsbD (9 + (y ^^^ 1#3).toNat))) ∧
      (s.fpArray.getMsbD ((y ^^^ 1#3).toNat - 1) = false → exec (.ftest y 0#5) s = .refused .fpMixedTest)) ∧
    (∀ n, (c, n) ∈ [(0#5, 1), (1#5, 12), (5#5, 8), (9#5, 6), (13#5, 4), (17#5, 2), (2#5, 12), (6#5, 8)] →
      (n ≤ s.fpQueue → Completes (.ftest 1#3 c) s (s.fpDid .other) (queueTest (s.readFpr 0#5) c)) ∧
      (s.fpQueue < n → exec (.ftest 1#3 c) s = .refused .fpMixedTest))) ∧
  (∀ (s : State) (y : BitVec 3) (v : Bool) (k : Nat), k < 64 →
    ((s.fpCompareResult 0#3 v).readFpr 0#5).getMsbD k =
      (if k = 5 then v else if k = 10 then (s.readFpr 0#5).getMsbD 5
        else if 11 ≤ k ∧ k ≤ 20 then (s.readFpr 0#5).getMsbD (k - 1) else (s.readFpr 0#5).getMsbD k) ∧
    (s.fpCompareResult 0#3 v).fpQueue = min 12 (s.fpQueue + 1) ∧ (s.fpCompareResult 0#3 v).fpArray = 0 ∧
    (y ≠ 0#3 → ((s.fpCompareResult y v).readFpr 0#5).getMsbD k =
      (if k = 9 + y.toNat then v else if k = 5 ∨ (17 ≤ k ∧ k ≤ 20) then (s.free 0).getMsbD k else (s.readFpr 0#5).getMsbD k) ∧
      (s.fpCompareResult y v).fpQueue = 0 ∧
      (k < 7 → (s.fpCompareResult y v).fpArray.getMsbD k = (decide (k + 1 = y.toNat) || s.fpArray.getMsbD k)))) ∧
  (∀ (f : Dword) (q : Nat → Bool), (∀ k, q k = if k = 0 then f.getMsbD 5 else f.getMsbD (9 + k)) →
    queueTest f 0#5 = q 0 ∧
    (∀ c n, (c, n) ∈ [(1#5, 11), (5#5, 7), (9#5, 5), (13#5, 3), (17#5, 1)] → (queueTest f c = true ↔ ∀ k, k ≤ n → q k = false)) ∧
    (∀ c n, (c, n) ∈ [(2#5, 6), (6#5, 4)] → (queueTest f c = true ↔ ∃ k, k < n ∧ q k = true ∧ q (k + n) = true))) ∧
  (∀ (z : FpSize) (a b : Nat) (c : BitVec 5),
    ((z.fmt.isNan a = true ∨ z.fmt.isNan b = true) → (z.fmt.compare a b c).1 = c.getMsbD 3 ∧
      ((z.fmt.compare a b c).2 = true ↔ z.fmt.isSignaling a = true ∨ z.fmt.isSignaling b = true ∨ c.getMsbD 4 = true)) ∧
    (∀ v w : ℝ, Denotes (z.fmt.value a) v → Denotes (z.fmt.value b) w → (z.fmt.compare a b c).2 = false ∧
      (w < v → (z.fmt.compare a b c).1 = c.getMsbD 0) ∧ (v < w → (z.fmt.compare a b c).1 = c.getMsbD 1) ∧
      (v = w → (z.fmt.compare a b c).1 = c.getMsbD 2)) ∧
    (∀ (n : Bool) (w : ℝ), z.fmt.value a = .inf n → Denotes (z.fmt.value b) w →
      z.fmt.compare a b c = (if n then c.getMsbD 1 else c.getMsbD 0, false)) ∧
    (∀ (v : ℝ) (n : Bool), Denotes (z.fmt.value a) v → z.fmt.value b = .inf n →
      z.fmt.compare a b c = (if n then c.getMsbD 0 else c.getMsbD 1, false)) ∧
    (∀ n1 n2 : Bool, z.fmt.value a = .inf n1 → z.fmt.value b = .inf n2 →
      z.fmt.compare a b c = (if n1 = n2 then c.getMsbD 2 else if n1 then c.getMsbD 1 else c.getMsbD 0, false)))

/-- What a delivery does (51_fp_exceptions.md R933, R934, R943, R956; 49_floating_point.md R805, R824): a value goes to its destination, a single word leaving the register's other half, and the
flags are set and stay; a trapping exception puts its code and the instruction's word into exception register 1 and sets T, with the destination's value if one is
delivered; without one the destination is free (log entries 5 and 43) but no source changes; nothing but floating-point registers changes. The choices: exception register 1 takes every exception at once and
a trapping one sets no flag (FP_FLAG_ON_TRAP false; D26, D28, log entry 41), and the codes of the unimplemented exceptions (D33, log entry 42). -/
def Obligations.FpDelivered : Prop :=
  ∀ (s : State) (code c : BitVec 6) (d : FpReg) (srcs : List FpReg) (bits : Nat) (x : BitVec 5), FpDestination d → d.size ≠ .quad →
    (∀ r ∈ srcs, FpSource r ∧ r.size ≠ .quad) →
    (∀ (u : State) (old new : Dword), u = s.fpDeliver code d srcs (.value bits x) → old = s.readFpr d.n →
      new = (if d.size = .single then (if d.h = 0#1 then BitVec.ofNat 32 bits ++ old.extractLsb' 0 32 else old.extractLsb' 32 32 ++ BitVec.ofNat 32 bits)
        else BitVec.ofNat 64 bits) →
      u.readFpr 0#5 = ((s.readFpr 0#5).extractLsb' 59 5 ||| x) ++ (s.readFpr 0#5).extractLsb' 0 59 ∧ u.readFpr d.n = new ∧
      (∀ q, q ≠ 0#5 → q ≠ d.n → u.readFpr q = s.readFpr q) ∧ u = { s with fpr := u.fpr }) ∧
    (∀ (u : State) (old new : Dword), u = s.fpDeliver code d srcs (.trapped c (some bits) x) → old = s.readFpr d.n →
      new = (if d.size = .single then (if d.h = 0#1 then BitVec.ofNat 32 bits ++ old.extractLsb' 0 32 else old.extractLsb' 32 32 ++ BitVec.ofNat 32 bits)
        else BitVec.ofNat 64 bits) →
      u.readFpr 0#5 = withBit (((s.readFpr 0#5).extractLsb' 59 5 ||| x) ++ (s.readFpr 0#5).extractLsb' 32 27 ++ c ++ s.iword.extractLsb' 0 26) 25 true ∧
      u.readFpr d.n = new ∧ (∀ q, q ≠ 0#5 → q ≠ d.n → u.readFpr q = s.readFpr q) ∧ u = { s with fpr := u.fpr }) ∧
    (∀ u : State, u = s.fpDeliver code d srcs (.trapped c none x) →
      u.readFpr 0#5 = withBit (((s.readFpr 0#5).extractLsb' 59 5 ||| x) ++ (s.readFpr 0#5).extractLsb' 32 27 ++ c ++ s.iword.extractLsb' 0 26) 25 true ∧
      (∀ q, q ≠ 0#5 → q ≠ d.n → u.readFpr q = s.readFpr q) ∧ (∀ r ∈ srcs, u.fpRead r = s.fpRead r) ∧
      u = { s with fpr := u.fpr, freeCount := s.freeCount + 2 }) ∧
    (∀ u : State, u = s.fpDeliver code d srcs .unimplemented →
      u.readFpr 0#5 = withBit ((s.readFpr 0#5).extractLsb' 32 32 ++ code ++ s.iword.extractLsb' 0 26) 25 true ∧
      (∀ q, q ≠ 0#5 → q ≠ d.n → u.readFpr q = s.readFpr q) ∧ (∀ r ∈ srcs, u.fpRead r = s.fpRead r) ∧
      u = { s with fpr := u.fpr, freeCount := s.freeCount + 2 })

/-- What the floating-point operations compute. The copies and the sign operations keep every other bit (50_fp_instructions.md R881 to R884). The arithmetic operations and the conversions to a
floating-point format compute the exact result and round it once, in the mode the Status Register names (49_floating_point.md R850, R851; 50_fp_instructions.md R885, R889, R890, R900 to R903, R908,
R909), with the overflows and underflows of 51_fp_exceptions.md R953 to R956. FRND gives the integer the mode chooses (R886; the sign of a zero is the spec's own choice). NaNs propagate, and
infinities, exact zeros, the invalid operations and a division by zero give their special results (49_floating_point.md R852, R854, R856, R857; R899; 51_fp_exceptions.md R950, R952). The choices: the
order of the three NaN operands of a fused operation (DEDUCED, log entry 42), and that zero times infinity with a quiet NaN in ra gives that NaN and signals nothing (R854 against R908 and R950: DEDUCED, log
entry 59); the sign 0 of a new NaN and a signaling NaN before a quiet one (the decision D31, log entry 41); that an overflow or underflow whose trap is disabled never traps (D32),
that a trapping exception sets no flag of its own (D28) and how a signaling NaN is quieted (D30; all log entry 41). -/
def Obligations.FpRounded : Prop :=
  (∀ (z w : FpSize) (env : FpEnv) (a b c : Nat) (u v t : ℝ) (n : Int), Denotes (z.fmt.value a) u → Denotes (z.fmt.value b) v → Denotes (z.fmt.value c) t →
    Rounds z.fmt env.rm (u + v) (z.fmt.add env a b) ∧
    Rounds z.fmt env.rm (u - v) (z.fmt.sub env a b) ∧
    Rounds z.fmt env.rm (u * v) (z.fmt.mul env a b) ∧
    (v ≠ 0 → Rounds z.fmt env.rm (u / v) (z.fmt.div env a b)) ∧
    (0 ≤ u → Rounds z.fmt env.rm (Real.sqrt u) (z.fmt.sqrt env a)) ∧
    Rounds z.fmt env.rm (u * v + t) (z.fmt.fused env false a b c) ∧
    Rounds z.fmt env.rm (-(u * v) + t) (z.fmt.fused env true a b c) ∧
    Rounds w.fmt env.rm u (convertFloat z.fmt w.fmt env a) ∧
    (n.natAbs ≤ 2 ^ 127 → Rounds z.fmt env.rm n (convertInteger z.fmt env n b))) ∧
  (∀ (z w : FpSize) (env : FpEnv) (a b c : Nat) (u v t : ℝ) (n : Int), Denotes (z.fmt.value a) u → Denotes (z.fmt.value b) v → Denotes (z.fmt.value c) t →
    Delivers z.fmt env true (u + v) (z.fmt.add env a b) ∧
    Delivers z.fmt env true (u - v) (z.fmt.sub env a b) ∧
    Delivers z.fmt env true (u * v) (z.fmt.mul env a b) ∧
    (v ≠ 0 → Delivers z.fmt env true (u / v) (z.fmt.div env a b)) ∧
    (0 ≤ u → Delivers z.fmt env true (Real.sqrt u) (z.fmt.sqrt env a)) ∧
    Delivers z.fmt env true (u * v + t) (z.fmt.fused env false a b c) ∧
    Delivers z.fmt env true (-(u * v) + t) (z.fmt.fused env true a b c) ∧
    Delivers w.fmt env false u (convertFloat z.fmt w.fmt env a) ∧
    (n.natAbs ≤ 2 ^ 127 → Delivers z.fmt env false n (convertInteger z.fmt env n b))) ∧
  (∀ (z : FpSize) (env : FpEnv) (a sign : Nat), a < 2 ^ z.bits → sign = 2 ^ (z.bits - 1) →
    copyBits z.fmt env a = .value a 0#5 ∧
    absBits z.fmt env a = .value (a % sign) 0#5 ∧
    negBits z.fmt env a = .value (a % sign + (if a < sign then sign else 0)) 0#5 ∧
    negAbsBits z.fmt env a = .value (a % sign + sign) 0#5) ∧
  (∀ (z : FpSize) (env : FpEnv) (a m : Nat) (u : ℝ) (neg : Bool) (e : Int), z.fmt.value a = .fin neg m e → Denotes (z.fmt.value a) u →
    ((∃ j : Int, u = j) → z.fmt.round env a = .value a 0#5) ∧
    ((∀ j : Int, u ≠ j) → ∃ (j : Int) (bits k : Nat) (q : Int), bits < 2 ^ z.bits ∧ z.fmt.value bits = .fin neg k q ∧
      (j : ℝ) = (if neg then -1 else 1) * k * 2 ^ q ∧
      (env.rm = 0#2 → abs (u - j) ≤ 1 / 2 ∧ (abs (u - j) = 1 / 2 → j % 2 = 0)) ∧
      (env.rm = 1#2 → abs (j : ℝ) ≤ abs u ∧ abs (u - j) < 1) ∧
      (env.rm = 2#2 → j = ⌈u⌉) ∧
      (env.rm = 3#2 → j = ⌊u⌋) ∧
      z.fmt.round env a = (if env.traps fpI then .trapped 0b000010#6 (some bits) 0#5 else .value bits fpI))) ∧
  (∀ (z w : FpSize) (env : FpEnv) (a b c : Nat) (neg : Bool),
    PropagatesNan z.fmt env [a, b] (z.fmt.add env a b) ∧
    PropagatesNan z.fmt env [a, b] (z.fmt.sub env a b) ∧
    PropagatesNan z.fmt env [a, b] (z.fmt.mul env a b) ∧
    PropagatesNan z.fmt env [a, b] (z.fmt.div env a b) ∧
    PropagatesNan z.fmt env [a] (z.fmt.sqrt env a) ∧
    PropagatesNan z.fmt env [a] (z.fmt.round env a) ∧
    PropagatesNan z.fmt env [a, b, c] (z.fmt.fused env neg a b c) ∧
    (z.fmt.value a = .nan → ∀ q y : Nat, (IsSignaling z.fmt a → Quiets z.fmt a q) → (¬IsSignaling z.fmt a → q = a) →
      y = (if w.fmt.p ≤ z.fmt.p then z.fmt.fraction q / 2 ^ (z.fmt.p - w.fmt.p) else z.fmt.fraction q * 2 ^ (w.fmt.p - z.fmt.p)) →
      ∃ bits, bits < 2 ^ w.bits ∧ w.fmt.value bits = .nan ∧ w.fmt.negative bits = z.fmt.negative a ∧
        w.fmt.fraction bits = (if y = 0 then 2 ^ (w.fmt.p - 3) else y) ∧
        (IsSignaling z.fmt a → GivesInvalid env (· = bits) (convertFloat z.fmt w.fmt env a)) ∧
        (¬IsSignaling z.fmt a → convertFloat z.fmt w.fmt env a = .value bits 0#5))) ∧
  (∀ (z w : FpSize) (env : FpEnv) (a b c m1 m2 : Nat) (x y : FpVal) (n1 n2 neg : Bool) (e1 e2 : Int), x = z.fmt.value a → y = z.fmt.value b →
    SumSpecials z.fmt env x y (z.fmt.add env a b) ∧
    SumSpecials z.fmt env x y.negate (z.fmt.sub env a b) ∧
    (x = .inf n1 → y = .inf n2 →
      GivesInfinity z.fmt (n1 ^^ n2) 0#5 (z.fmt.mul env a b) ∧ GivesInvalid env (IsNewNan z.fmt) (z.fmt.div env a b) ∧
      SumSpecials z.fmt env (.inf (n1 ^^ n2 ^^ neg)) (z.fmt.value c) (z.fmt.fused env neg a b c)) ∧
    (x = .inf n1 → y = .fin n2 m2 e2 →
      GivesInfinity z.fmt (n1 ^^ n2) 0#5 (z.fmt.div env a b) ∧
      (m2 = 0 → GivesInvalid env (IsNewNan z.fmt) (z.fmt.mul env a b) ∧
        (z.fmt.value c ≠ .nan → GivesInvalid env (IsNewNan z.fmt) (z.fmt.fused env neg a b c))) ∧
      (m2 ≠ 0 → GivesInfinity z.fmt (n1 ^^ n2) 0#5 (z.fmt.mul env a b) ∧
        SumSpecials z.fmt env (.inf (n1 ^^ n2 ^^ neg)) (z.fmt.value c) (z.fmt.fused env neg a b c))) ∧
    (x = .fin n1 m1 e1 → y = .inf n2 →
      GivesZero z.fmt (n1 ^^ n2) (z.fmt.div env a b) ∧
      (m1 = 0 → GivesInvalid env (IsNewNan z.fmt) (z.fmt.mul env a b) ∧
        (z.fmt.value c ≠ .nan → GivesInvalid env (IsNewNan z.fmt) (z.fmt.fused env neg a b c))) ∧
      (m1 ≠ 0 → GivesInfinity z.fmt (n1 ^^ n2) 0#5 (z.fmt.mul env a b) ∧
        SumSpecials z.fmt env (.inf (n1 ^^ n2 ^^ neg)) (z.fmt.value c) (z.fmt.fused env neg a b c))) ∧
    (x = .fin n1 m1 e1 → y = .fin n2 m2 e2 →
      (m1 = 0 ∨ m2 = 0 → GivesZero z.fmt (n1 ^^ n2) (z.fmt.mul env a b)) ∧
      (m1 = 0 → m2 = 0 → GivesInvalid env (IsNewNan z.fmt) (z.fmt.div env a b)) ∧
      (m1 = 0 → m2 ≠ 0 → GivesZero z.fmt (n1 ^^ n2) (z.fmt.div env a b)) ∧
      (m1 ≠ 0 → m2 = 0 →
        (env.traps fpZ = true → z.fmt.div env a b = .trapped 0b010000#6 none 0#5) ∧
        (env.traps fpZ = false → GivesInfinity z.fmt (n1 ^^ n2) fpZ (z.fmt.div env a b))) ∧
      SumSpecials z.fmt env (.fin (n1 ^^ n2 ^^ neg) (m1 * m2) (e1 + e2)) (z.fmt.value c) (z.fmt.fused env neg a b c)) ∧
    (x = .inf false → z.fmt.sqrt env a = .value a 0#5) ∧
    (x = .inf true → GivesInvalid env (IsNewNan z.fmt) (z.fmt.sqrt env a)) ∧
    (x = .fin true m1 e1 → m1 ≠ 0 → GivesInvalid env (IsNewNan z.fmt) (z.fmt.sqrt env a)) ∧
    (x = .fin n1 0 e1 → z.fmt.sqrt env a = .value a 0#5 ∧ GivesZero w.fmt n1 (convertFloat z.fmt w.fmt env a)) ∧
    (x = .inf n1 → z.fmt.round env a = .value a 0#5 ∧ GivesInfinity w.fmt n1 0#5 (convertFloat z.fmt w.fmt env a)) ∧
    GivesZero z.fmt false (convertInteger z.fmt env 0 b))
end

