-- ==== Sys2Proof/Laws/Memory.lean ====
section
/-! SUPPORT. The memory operations: reading after writing, and the canonical form they keep. -/

namespace Sys2Proof.Machine

/-- An address below every listed one reads as nothing written. -/
theorem Memory.get_below : ∀ (m : Memory) (l : Nat) (a : Nat), Memory.wfFrom (some l) m = true → a ≤ l →
    Memory.get m a = unlistedByte a
  | [], _, _, _, _ => rfl
  | (b, v) :: t, l, a, h, ha => by
    simp only [Memory.wfFrom, Bool.and_eq_true, decide_eq_true_eq] at h
    have hne : a ≠ b := by omega
    simp only [Memory.get, hne, if_false]
    exact Memory.get_below t b a h.2 (by omega)

/-- What is canonical above `l` is canonical above anything lower. -/
theorem Memory.wfFrom_mono (m : Memory) (lo : Option Nat) (l : Nat) (h : Memory.wfFrom (some l) m = true)
    (hl : ∀ k, lo = some k → k ≤ l) : Memory.wfFrom lo m = true := by
  cases m with
  | nil => rfl
  | cons c t =>
    obtain ⟨b, v⟩ := c
    simp only [Memory.wfFrom, Bool.and_eq_true, decide_eq_true_eq] at h ⊢
    refine ⟨⟨?_, h.1.2⟩, h.2⟩
    cases lo with
    | none => rfl
    | some k => have := hl k rfl; simp; omega

/-- The bound of `Memory.wfFrom` for an address above it. -/
theorem Memory.bound_below (lo : Option Nat) (a : Nat) : (∀ k, lo = some k → k < a) →
    (match lo with | none => true | some l => decide (l < a)) = true := by
  intro hk
  cases lo with
  | none => rfl
  | some k => simpa using hk k rfl

/-- A write keeps the canonical form above a bound that is below it. -/
theorem Memory.set_wfFrom : ∀ (m : Memory) (lo : Option Nat) (a : Nat) (v : Byte), Memory.wfFrom lo m = true →
    (∀ k, lo = some k → k < a) → Memory.wfFrom lo (Memory.set m a v) = true
  | [], lo, a, v, _, hk => by
    simp only [Memory.set]
    split
    · rfl
    · rename_i hv
      simp only [Memory.wfFrom, Bool.and_eq_true, decide_eq_true_eq, and_true]
      refine ⟨?_, hv⟩
      cases lo with
      | none => rfl
      | some k => simpa using hk k rfl
  | (b, u) :: t, lo, a, v, h, hk => by
    simp only [Memory.wfFrom, Bool.and_eq_true, decide_eq_true_eq] at h
    obtain ⟨⟨h1, h2⟩, h3⟩ := h
    have hlo := Memory.bound_below lo a hk
    simp only [Memory.set]
    split
    · rename_i hab
      split
      · simp only [Memory.wfFrom, Bool.and_eq_true, decide_eq_true_eq]; exact ⟨⟨h1, h2⟩, h3⟩
      · rename_i hv
        simp only [Memory.wfFrom, Bool.and_eq_true, decide_eq_true_eq]
        exact ⟨⟨hlo, hv⟩, ⟨hab, h2⟩, h3⟩
    · split
      · rename_i _ hab
        subst hab
        split
        · exact Memory.wfFrom_mono t lo a h3 (fun k hk' => Nat.le_of_lt (hk k hk'))
        · rename_i hv
          simp only [Memory.wfFrom, Bool.and_eq_true, decide_eq_true_eq]
          exact ⟨⟨hlo, hv⟩, h3⟩
      · rename_i h4 h5
        simp only [Memory.wfFrom, Bool.and_eq_true, decide_eq_true_eq]
        refine ⟨⟨h1, h2⟩, ?_⟩
        apply Memory.set_wfFrom t (some b) a v h3
        intro k hk'
        cases hk'
        omega

/-- A write of one byte keeps the canonical form. -/
theorem Memory.set_wf (m : Memory) (a : Nat) (v : Byte) (h : Memory.wf m = true) : Memory.wf (Memory.set m a v) = true :=
  Memory.set_wfFrom m none a v h (by intro k hk; cases hk)

/-- A write of several bytes keeps the canonical form. -/
theorem Memory.setBytes_wf : ∀ (bs : List Byte) (m : Memory) (a : Nat), Memory.wf m = true →
    Memory.wf (Memory.setBytes m a bs) = true
  | [], _, _, h => h
  | b :: t, m, a, h => Memory.setBytes_wf t (m.set a b) (a + 1) (Memory.set_wf m a b h)

/-- A store keeps the canonical form. -/
theorem Memory.store_wf (m : Memory) (little : Bool) (a n : Nat) (v : Dword) (h : Memory.wf m = true) :
    Memory.wf (Memory.store m little a n v) = true :=
  Memory.setBytes_wf _ m a h

/-- Reading after writing one byte, in a canonical memory above `lo`. -/
theorem Memory.get_set_from : ∀ (m : Memory) (lo : Option Nat) (a b : Nat) (v : Byte), Memory.wfFrom lo m = true →
    Memory.get (Memory.set m a v) b = if b = a then v else Memory.get m b
  | [], _, a, b, v, _ => by
    simp only [Memory.set]
    split
    · rename_i hv
      by_cases hb : b = a
      · subst hb; simp [Memory.get, hv]
      · simp [Memory.get, hb]
    · by_cases hb : b = a <;> simp [Memory.get, hb]
  | (c, u) :: t, lo, a, b, v, h => by
    simp only [Memory.wfFrom, Bool.and_eq_true, decide_eq_true_eq] at h
    obtain ⟨⟨_, h2⟩, h3⟩ := h
    simp only [Memory.set]
    split
    · rename_i hac
      have hbelow : Memory.get t a = unlistedByte a := Memory.get_below t c a h3 (by omega)
      split
      · rename_i hv
        by_cases hb : b = a
        · subst hb; simp [Memory.get, Nat.ne_of_lt hac, hbelow, hv]
        · simp [hb]
      · by_cases hb : b = a <;> simp [Memory.get, hb]
    · split
      · rename_i _ hac
        subst hac
        split
        · rename_i hv
          by_cases hb : b = a
          · subst hb; simp [Memory.get_below t b b h3 (Nat.le_refl b), hv]
          · simp [Memory.get, hb]
        · by_cases hb : b = a <;> simp [Memory.get, hb]
      · rename_i h4 h5
        by_cases hb : b = c
        · have hca : c ≠ a := fun e => h5 e.symm
          subst hb; simp [Memory.get, hca]
        · simp only [Memory.get, hb, if_false]
          exact Memory.get_set_from t (some c) a b v h3

/-- Reading after writing one byte. -/
theorem Memory.get_set (m : Memory) (a b : Nat) (v : Byte) (h : Memory.wf m = true) :
    Memory.get (Memory.set m a v) b = if b = a then v else Memory.get m b :=
  Memory.get_set_from m none a b v h

/-- Reading after writing several bytes: the written byte inside, the old one outside. -/
theorem Memory.get_setBytes : ∀ (bs : List Byte) (m : Memory) (a b : Nat), Memory.wf m = true →
    Memory.get (Memory.setBytes m a bs) b = if h : a ≤ b ∧ b - a < bs.length then bs[b - a]'h.2 else Memory.get m b
  | [], m, a, b, _ => by simp [Memory.setBytes]
  | v :: t, m, a, b, h => by
    rw [Memory.setBytes, Memory.get_setBytes t (m.set a v) (a + 1) b (Memory.set_wf m a v h), Memory.get_set m a b v h]
    by_cases hb : b = a
    · subst hb
      simp [show ¬(b + 1 ≤ b) by omega]
    · by_cases hin : a + 1 ≤ b ∧ b - (a + 1) < t.length
      · have h2 : a ≤ b ∧ b - a < (v :: t).length := ⟨by omega, by simp; omega⟩
        rw [dif_pos hin, dif_pos h2]
        have : b - a = (b - (a + 1)) + 1 := by omega
        simp [this]
      · have h2 : ¬(a ≤ b ∧ b - a < (v :: t).length) := by simp; intro h3; omega
        rw [dif_neg hin, dif_neg h2, if_neg hb]

/-- A store leaves every other byte alone. -/
theorem Memory.get_setBytes_outside (bs : List Byte) (m : Memory) (a b : Nat) (h : Memory.wf m = true)
    (ho : b < a ∨ a + bs.length ≤ b) : Memory.get (Memory.setBytes m a bs) b = Memory.get m b := by
  rw [Memory.get_setBytes bs m a b h, dif_neg (by omega)]

end Sys2Proof.Machine
end

