-- ==== Sys2Proof/Laws/State.lean ====
section
/-! SUPPORT. What each named update of the state does to each field: one lemma per field and update, so that no proof
unfolds a record update. -/

namespace Sys2Proof.Machine

variable (s : State)

/-! ### setFlag -/

@[simp] theorem State.setFlag_gr (i : Nat) (v : Bool) : (s.setFlag i v).gr = s.gr := rfl
@[simp] theorem State.setFlag_sr (i : Nat) (v : Bool) : (s.setFlag i v).sr = s.sr := rfl
@[simp] theorem State.setFlag_shr (i : Nat) (v : Bool) : (s.setFlag i v).shr = s.shr := rfl
@[simp] theorem State.setFlag_iaoqFront (i : Nat) (v : Bool) : (s.setFlag i v).iaoqFront = s.iaoqFront := rfl
@[simp] theorem State.setFlag_iaoqBack (i : Nat) (v : Bool) : (s.setFlag i v).iaoqBack = s.iaoqBack := rfl
@[simp] theorem State.setFlag_iasqFront (i : Nat) (v : Bool) : (s.setFlag i v).iasqFront = s.iasqFront := rfl
@[simp] theorem State.setFlag_iasqBack (i : Nat) (v : Bool) : (s.setFlag i v).iasqBack = s.iasqBack := rfl
@[simp] theorem State.setFlag_psw (i : Nat) (v : Bool) : (s.setFlag i v).psw = withBit s.psw i v := rfl
@[simp] theorem State.setFlag_rctr (i : Nat) (v : Bool) : (s.setFlag i v).rctr = s.rctr := rfl
@[simp] theorem State.setFlag_pid12 (i : Nat) (v : Bool) : (s.setFlag i v).pid12 = s.pid12 := rfl
@[simp] theorem State.setFlag_pid34 (i : Nat) (v : Bool) : (s.setFlag i v).pid34 = s.pid34 := rfl
@[simp] theorem State.setFlag_pid56 (i : Nat) (v : Bool) : (s.setFlag i v).pid56 = s.pid56 := rfl
@[simp] theorem State.setFlag_pid78 (i : Nat) (v : Bool) : (s.setFlag i v).pid78 = s.pid78 := rfl
@[simp] theorem State.setFlag_scr (i : Nat) (v : Bool) : (s.setFlag i v).scr = s.scr := rfl
@[simp] theorem State.setFlag_ccr (i : Nat) (v : Bool) : (s.setFlag i v).ccr = s.ccr := rfl
@[simp] theorem State.setFlag_sar (i : Nat) (v : Bool) : (s.setFlag i v).sar = s.sar := rfl
@[simp] theorem State.setFlag_iva (i : Nat) (v : Bool) : (s.setFlag i v).iva = s.iva := rfl
@[simp] theorem State.setFlag_eiem (i : Nat) (v : Bool) : (s.setFlag i v).eiem = s.eiem := rfl
@[simp] theorem State.setFlag_itmr (i : Nat) (v : Bool) : (s.setFlag i v).itmr = s.itmr := rfl
@[simp] theorem State.setFlag_itmrCompare (i : Nat) (v : Bool) : (s.setFlag i v).itmrCompare = s.itmrCompare := rfl
@[simp] theorem State.setFlag_iiasqFront (i : Nat) (v : Bool) : (s.setFlag i v).iiasqFront = s.iiasqFront := rfl
@[simp] theorem State.setFlag_iiasqBack (i : Nat) (v : Bool) : (s.setFlag i v).iiasqBack = s.iiasqBack := rfl
@[simp] theorem State.setFlag_iiaoqFront (i : Nat) (v : Bool) : (s.setFlag i v).iiaoqFront = s.iiaoqFront := rfl
@[simp] theorem State.setFlag_iiaoqBack (i : Nat) (v : Bool) : (s.setFlag i v).iiaoqBack = s.iiaoqBack := rfl
@[simp] theorem State.setFlag_iir (i : Nat) (v : Bool) : (s.setFlag i v).iir = s.iir := rfl
@[simp] theorem State.setFlag_isr (i : Nat) (v : Bool) : (s.setFlag i v).isr = s.isr := rfl
@[simp] theorem State.setFlag_ior (i : Nat) (v : Bool) : (s.setFlag i v).ior = s.ior := rfl
@[simp] theorem State.setFlag_ipsw (i : Nat) (v : Bool) : (s.setFlag i v).ipsw = s.ipsw := rfl
@[simp] theorem State.setFlag_eirr (i : Nat) (v : Bool) : (s.setFlag i v).eirr = s.eirr := rfl
@[simp] theorem State.setFlag_tr (i : Nat) (v : Bool) : (s.setFlag i v).tr = s.tr := rfl
@[simp] theorem State.setFlag_fpr (i : Nat) (v : Bool) : (s.setFlag i v).fpr = s.fpr := rfl
@[simp] theorem State.setFlag_itlb (i : Nat) (v : Bool) : (s.setFlag i v).itlb = s.itlb := rfl
@[simp] theorem State.setFlag_dtlb (i : Nat) (v : Bool) : (s.setFlag i v).dtlb = s.dtlb := rfl
@[simp] theorem State.setFlag_defaultWidth (i : Nat) (v : Bool) : (s.setFlag i v).defaultWidth = s.defaultWidth := rfl
@[simp] theorem State.setFlag_defaultEndian (i : Nat) (v : Bool) : (s.setFlag i v).defaultEndian = s.defaultEndian := rfl
@[simp] theorem State.setFlag_hpmcPending (i : Nat) (v : Bool) : (s.setFlag i v).hpmcPending = s.hpmcPending := rfl
@[simp] theorem State.setFlag_powerFailPending (i : Nat) (v : Bool) : (s.setFlag i v).powerFailPending = s.powerFailPending := rfl
@[simp] theorem State.setFlag_lpmcPending (i : Nat) (v : Bool) : (s.setFlag i v).lpmcPending = s.lpmcPending := rfl
@[simp] theorem State.setFlag_perfMonPending (i : Nat) (v : Bool) : (s.setFlag i v).perfMonPending = s.perfMonPending := rfl
@[simp] theorem State.setFlag_measurementEnabled (i : Nat) (v : Bool) : (s.setFlag i v).measurementEnabled = s.measurementEnabled := rfl
@[simp] theorem State.setFlag_bts (i : Nat) (v : Bool) : (s.setFlag i v).bts = s.bts := rfl
@[simp] theorem State.setFlag_bnr (i : Nat) (v : Bool) : (s.setFlag i v).bnr = s.bnr := rfl
@[simp] theorem State.setFlag_sfu (i : Nat) (v : Bool) : (s.setFlag i v).sfu = s.sfu := rfl
@[simp] theorem State.setFlag_copr (i : Nat) (v : Bool) : (s.setFlag i v).copr = s.copr := rfl
@[simp] theorem State.setFlag_cpr (i : Nat) (v : Bool) : (s.setFlag i v).cpr = s.cpr := rfl
@[simp] theorem State.setFlag_mem (i : Nat) (v : Bool) : (s.setFlag i v).mem = s.mem := rfl
@[simp] theorem State.setFlag_iword (i : Nat) (v : Bool) : (s.setFlag i v).iword = s.iword := rfl
@[simp] theorem State.setFlag_freeCount (i : Nat) (v : Bool) : (s.setFlag i v).freeCount = s.freeCount := rfl
@[simp] theorem State.setFlag_removals (i : Nat) (v : Bool) : (s.setFlag i v).removals = s.removals := rfl
@[simp] theorem State.setFlag_relied (i : Nat) (v : Bool) : (s.setFlag i v).relied = s.relied := rfl
@[simp] theorem State.setFlag_semaphores (i : Nat) (v : Bool) : (s.setFlag i v).semaphores = s.semaphores := rfl
@[simp] theorem State.setFlag_fpQueue (i : Nat) (v : Bool) : (s.setFlag i v).fpQueue = s.fpQueue := rfl
@[simp] theorem State.setFlag_fpArray (i : Nat) (v : Bool) : (s.setFlag i v).fpArray = s.fpArray := rfl
@[simp] theorem State.setFlag_fpSequence (i : Nat) (v : Bool) : (s.setFlag i v).fpSequence = s.fpSequence := rfl

/-! ### setCarryBorrow -/

@[simp] theorem State.setCarryBorrow_gr (cb : BitVec 16) : (s.setCarryBorrow cb).gr = s.gr := rfl
@[simp] theorem State.setCarryBorrow_sr (cb : BitVec 16) : (s.setCarryBorrow cb).sr = s.sr := rfl
@[simp] theorem State.setCarryBorrow_shr (cb : BitVec 16) : (s.setCarryBorrow cb).shr = s.shr := rfl
@[simp] theorem State.setCarryBorrow_iaoqFront (cb : BitVec 16) : (s.setCarryBorrow cb).iaoqFront = s.iaoqFront := rfl
@[simp] theorem State.setCarryBorrow_iaoqBack (cb : BitVec 16) : (s.setCarryBorrow cb).iaoqBack = s.iaoqBack := rfl
@[simp] theorem State.setCarryBorrow_iasqFront (cb : BitVec 16) : (s.setCarryBorrow cb).iasqFront = s.iasqFront := rfl
@[simp] theorem State.setCarryBorrow_iasqBack (cb : BitVec 16) : (s.setCarryBorrow cb).iasqBack = s.iasqBack := rfl
@[simp] theorem State.setCarryBorrow_rctr (cb : BitVec 16) : (s.setCarryBorrow cb).rctr = s.rctr := rfl
@[simp] theorem State.setCarryBorrow_pid12 (cb : BitVec 16) : (s.setCarryBorrow cb).pid12 = s.pid12 := rfl
@[simp] theorem State.setCarryBorrow_pid34 (cb : BitVec 16) : (s.setCarryBorrow cb).pid34 = s.pid34 := rfl
@[simp] theorem State.setCarryBorrow_pid56 (cb : BitVec 16) : (s.setCarryBorrow cb).pid56 = s.pid56 := rfl
@[simp] theorem State.setCarryBorrow_pid78 (cb : BitVec 16) : (s.setCarryBorrow cb).pid78 = s.pid78 := rfl
@[simp] theorem State.setCarryBorrow_scr (cb : BitVec 16) : (s.setCarryBorrow cb).scr = s.scr := rfl
@[simp] theorem State.setCarryBorrow_ccr (cb : BitVec 16) : (s.setCarryBorrow cb).ccr = s.ccr := rfl
@[simp] theorem State.setCarryBorrow_sar (cb : BitVec 16) : (s.setCarryBorrow cb).sar = s.sar := rfl
@[simp] theorem State.setCarryBorrow_iva (cb : BitVec 16) : (s.setCarryBorrow cb).iva = s.iva := rfl
@[simp] theorem State.setCarryBorrow_eiem (cb : BitVec 16) : (s.setCarryBorrow cb).eiem = s.eiem := rfl
@[simp] theorem State.setCarryBorrow_itmr (cb : BitVec 16) : (s.setCarryBorrow cb).itmr = s.itmr := rfl
@[simp] theorem State.setCarryBorrow_itmrCompare (cb : BitVec 16) : (s.setCarryBorrow cb).itmrCompare = s.itmrCompare := rfl
@[simp] theorem State.setCarryBorrow_iiasqFront (cb : BitVec 16) : (s.setCarryBorrow cb).iiasqFront = s.iiasqFront := rfl
@[simp] theorem State.setCarryBorrow_iiasqBack (cb : BitVec 16) : (s.setCarryBorrow cb).iiasqBack = s.iiasqBack := rfl
@[simp] theorem State.setCarryBorrow_iiaoqFront (cb : BitVec 16) : (s.setCarryBorrow cb).iiaoqFront = s.iiaoqFront := rfl
@[simp] theorem State.setCarryBorrow_iiaoqBack (cb : BitVec 16) : (s.setCarryBorrow cb).iiaoqBack = s.iiaoqBack := rfl
@[simp] theorem State.setCarryBorrow_iir (cb : BitVec 16) : (s.setCarryBorrow cb).iir = s.iir := rfl
@[simp] theorem State.setCarryBorrow_isr (cb : BitVec 16) : (s.setCarryBorrow cb).isr = s.isr := rfl
@[simp] theorem State.setCarryBorrow_ior (cb : BitVec 16) : (s.setCarryBorrow cb).ior = s.ior := rfl
@[simp] theorem State.setCarryBorrow_ipsw (cb : BitVec 16) : (s.setCarryBorrow cb).ipsw = s.ipsw := rfl
@[simp] theorem State.setCarryBorrow_eirr (cb : BitVec 16) : (s.setCarryBorrow cb).eirr = s.eirr := rfl
@[simp] theorem State.setCarryBorrow_tr (cb : BitVec 16) : (s.setCarryBorrow cb).tr = s.tr := rfl
@[simp] theorem State.setCarryBorrow_fpr (cb : BitVec 16) : (s.setCarryBorrow cb).fpr = s.fpr := rfl
@[simp] theorem State.setCarryBorrow_itlb (cb : BitVec 16) : (s.setCarryBorrow cb).itlb = s.itlb := rfl
@[simp] theorem State.setCarryBorrow_dtlb (cb : BitVec 16) : (s.setCarryBorrow cb).dtlb = s.dtlb := rfl
@[simp] theorem State.setCarryBorrow_defaultWidth (cb : BitVec 16) : (s.setCarryBorrow cb).defaultWidth = s.defaultWidth := rfl
@[simp] theorem State.setCarryBorrow_defaultEndian (cb : BitVec 16) : (s.setCarryBorrow cb).defaultEndian = s.defaultEndian := rfl
@[simp] theorem State.setCarryBorrow_hpmcPending (cb : BitVec 16) : (s.setCarryBorrow cb).hpmcPending = s.hpmcPending := rfl
@[simp] theorem State.setCarryBorrow_powerFailPending (cb : BitVec 16) : (s.setCarryBorrow cb).powerFailPending = s.powerFailPending := rfl
@[simp] theorem State.setCarryBorrow_lpmcPending (cb : BitVec 16) : (s.setCarryBorrow cb).lpmcPending = s.lpmcPending := rfl
@[simp] theorem State.setCarryBorrow_perfMonPending (cb : BitVec 16) : (s.setCarryBorrow cb).perfMonPending = s.perfMonPending := rfl
@[simp] theorem State.setCarryBorrow_measurementEnabled (cb : BitVec 16) : (s.setCarryBorrow cb).measurementEnabled = s.measurementEnabled := rfl
@[simp] theorem State.setCarryBorrow_bts (cb : BitVec 16) : (s.setCarryBorrow cb).bts = s.bts := rfl
@[simp] theorem State.setCarryBorrow_bnr (cb : BitVec 16) : (s.setCarryBorrow cb).bnr = s.bnr := rfl
@[simp] theorem State.setCarryBorrow_sfu (cb : BitVec 16) : (s.setCarryBorrow cb).sfu = s.sfu := rfl
@[simp] theorem State.setCarryBorrow_copr (cb : BitVec 16) : (s.setCarryBorrow cb).copr = s.copr := rfl
@[simp] theorem State.setCarryBorrow_cpr (cb : BitVec 16) : (s.setCarryBorrow cb).cpr = s.cpr := rfl
@[simp] theorem State.setCarryBorrow_mem (cb : BitVec 16) : (s.setCarryBorrow cb).mem = s.mem := rfl
@[simp] theorem State.setCarryBorrow_iword (cb : BitVec 16) : (s.setCarryBorrow cb).iword = s.iword := rfl
@[simp] theorem State.setCarryBorrow_freeCount (cb : BitVec 16) : (s.setCarryBorrow cb).freeCount = s.freeCount := rfl
@[simp] theorem State.setCarryBorrow_removals (cb : BitVec 16) : (s.setCarryBorrow cb).removals = s.removals := rfl
@[simp] theorem State.setCarryBorrow_relied (cb : BitVec 16) : (s.setCarryBorrow cb).relied = s.relied := rfl
@[simp] theorem State.setCarryBorrow_semaphores (cb : BitVec 16) : (s.setCarryBorrow cb).semaphores = s.semaphores := rfl
@[simp] theorem State.setCarryBorrow_fpQueue (cb : BitVec 16) : (s.setCarryBorrow cb).fpQueue = s.fpQueue := rfl
@[simp] theorem State.setCarryBorrow_fpArray (cb : BitVec 16) : (s.setCarryBorrow cb).fpArray = s.fpArray := rfl
@[simp] theorem State.setCarryBorrow_fpSequence (cb : BitVec 16) : (s.setCarryBorrow cb).fpSequence = s.fpSequence := rfl

/-! ### writeGr -/

@[simp] theorem State.writeGr_sr (r : BitVec 5) (v : Dword) : (s.writeGr r v).sr = s.sr := by unfold State.writeGr; split <;> rfl
@[simp] theorem State.writeGr_shr (r : BitVec 5) (v : Dword) : (s.writeGr r v).shr = s.shr := by unfold State.writeGr; split <;> rfl
@[simp] theorem State.writeGr_iaoqFront (r : BitVec 5) (v : Dword) : (s.writeGr r v).iaoqFront = s.iaoqFront := by unfold State.writeGr; split <;> rfl
@[simp] theorem State.writeGr_iaoqBack (r : BitVec 5) (v : Dword) : (s.writeGr r v).iaoqBack = s.iaoqBack := by unfold State.writeGr; split <;> rfl
@[simp] theorem State.writeGr_iasqFront (r : BitVec 5) (v : Dword) : (s.writeGr r v).iasqFront = s.iasqFront := by unfold State.writeGr; split <;> rfl
@[simp] theorem State.writeGr_iasqBack (r : BitVec 5) (v : Dword) : (s.writeGr r v).iasqBack = s.iasqBack := by unfold State.writeGr; split <;> rfl
@[simp] theorem State.writeGr_psw (r : BitVec 5) (v : Dword) : (s.writeGr r v).psw = s.psw := by unfold State.writeGr; split <;> rfl
@[simp] theorem State.writeGr_rctr (r : BitVec 5) (v : Dword) : (s.writeGr r v).rctr = s.rctr := by unfold State.writeGr; split <;> rfl
@[simp] theorem State.writeGr_pid12 (r : BitVec 5) (v : Dword) : (s.writeGr r v).pid12 = s.pid12 := by unfold State.writeGr; split <;> rfl
@[simp] theorem State.writeGr_pid34 (r : BitVec 5) (v : Dword) : (s.writeGr r v).pid34 = s.pid34 := by unfold State.writeGr; split <;> rfl
@[simp] theorem State.writeGr_pid56 (r : BitVec 5) (v : Dword) : (s.writeGr r v).pid56 = s.pid56 := by unfold State.writeGr; split <;> rfl
@[simp] theorem State.writeGr_pid78 (r : BitVec 5) (v : Dword) : (s.writeGr r v).pid78 = s.pid78 := by unfold State.writeGr; split <;> rfl
@[simp] theorem State.writeGr_scr (r : BitVec 5) (v : Dword) : (s.writeGr r v).scr = s.scr := by unfold State.writeGr; split <;> rfl
@[simp] theorem State.writeGr_ccr (r : BitVec 5) (v : Dword) : (s.writeGr r v).ccr = s.ccr := by unfold State.writeGr; split <;> rfl
@[simp] theorem State.writeGr_sar (r : BitVec 5) (v : Dword) : (s.writeGr r v).sar = s.sar := by unfold State.writeGr; split <;> rfl
@[simp] theorem State.writeGr_iva (r : BitVec 5) (v : Dword) : (s.writeGr r v).iva = s.iva := by unfold State.writeGr; split <;> rfl
@[simp] theorem State.writeGr_eiem (r : BitVec 5) (v : Dword) : (s.writeGr r v).eiem = s.eiem := by unfold State.writeGr; split <;> rfl
@[simp] theorem State.writeGr_itmr (r : BitVec 5) (v : Dword) : (s.writeGr r v).itmr = s.itmr := by unfold State.writeGr; split <;> rfl
@[simp] theorem State.writeGr_itmrCompare (r : BitVec 5) (v : Dword) : (s.writeGr r v).itmrCompare = s.itmrCompare := by unfold State.writeGr; split <;> rfl
@[simp] theorem State.writeGr_iiasqFront (r : BitVec 5) (v : Dword) : (s.writeGr r v).iiasqFront = s.iiasqFront := by unfold State.writeGr; split <;> rfl
@[simp] theorem State.writeGr_iiasqBack (r : BitVec 5) (v : Dword) : (s.writeGr r v).iiasqBack = s.iiasqBack := by unfold State.writeGr; split <;> rfl
@[simp] theorem State.writeGr_iiaoqFront (r : BitVec 5) (v : Dword) : (s.writeGr r v).iiaoqFront = s.iiaoqFront := by unfold State.writeGr; split <;> rfl
@[simp] theorem State.writeGr_iiaoqBack (r : BitVec 5) (v : Dword) : (s.writeGr r v).iiaoqBack = s.iiaoqBack := by unfold State.writeGr; split <;> rfl
@[simp] theorem State.writeGr_iir (r : BitVec 5) (v : Dword) : (s.writeGr r v).iir = s.iir := by unfold State.writeGr; split <;> rfl
@[simp] theorem State.writeGr_isr (r : BitVec 5) (v : Dword) : (s.writeGr r v).isr = s.isr := by unfold State.writeGr; split <;> rfl
@[simp] theorem State.writeGr_ior (r : BitVec 5) (v : Dword) : (s.writeGr r v).ior = s.ior := by unfold State.writeGr; split <;> rfl
@[simp] theorem State.writeGr_ipsw (r : BitVec 5) (v : Dword) : (s.writeGr r v).ipsw = s.ipsw := by unfold State.writeGr; split <;> rfl
@[simp] theorem State.writeGr_eirr (r : BitVec 5) (v : Dword) : (s.writeGr r v).eirr = s.eirr := by unfold State.writeGr; split <;> rfl
@[simp] theorem State.writeGr_tr (r : BitVec 5) (v : Dword) : (s.writeGr r v).tr = s.tr := by unfold State.writeGr; split <;> rfl
@[simp] theorem State.writeGr_fpr (r : BitVec 5) (v : Dword) : (s.writeGr r v).fpr = s.fpr := by unfold State.writeGr; split <;> rfl
@[simp] theorem State.writeGr_itlb (r : BitVec 5) (v : Dword) : (s.writeGr r v).itlb = s.itlb := by unfold State.writeGr; split <;> rfl
@[simp] theorem State.writeGr_dtlb (r : BitVec 5) (v : Dword) : (s.writeGr r v).dtlb = s.dtlb := by unfold State.writeGr; split <;> rfl
@[simp] theorem State.writeGr_defaultWidth (r : BitVec 5) (v : Dword) : (s.writeGr r v).defaultWidth = s.defaultWidth := by unfold State.writeGr; split <;> rfl
@[simp] theorem State.writeGr_defaultEndian (r : BitVec 5) (v : Dword) : (s.writeGr r v).defaultEndian = s.defaultEndian := by unfold State.writeGr; split <;> rfl
@[simp] theorem State.writeGr_hpmcPending (r : BitVec 5) (v : Dword) : (s.writeGr r v).hpmcPending = s.hpmcPending := by unfold State.writeGr; split <;> rfl
@[simp] theorem State.writeGr_powerFailPending (r : BitVec 5) (v : Dword) : (s.writeGr r v).powerFailPending = s.powerFailPending := by unfold State.writeGr; split <;> rfl
@[simp] theorem State.writeGr_lpmcPending (r : BitVec 5) (v : Dword) : (s.writeGr r v).lpmcPending = s.lpmcPending := by unfold State.writeGr; split <;> rfl
@[simp] theorem State.writeGr_perfMonPending (r : BitVec 5) (v : Dword) : (s.writeGr r v).perfMonPending = s.perfMonPending := by unfold State.writeGr; split <;> rfl
@[simp] theorem State.writeGr_measurementEnabled (r : BitVec 5) (v : Dword) : (s.writeGr r v).measurementEnabled = s.measurementEnabled := by unfold State.writeGr; split <;> rfl
@[simp] theorem State.writeGr_bts (r : BitVec 5) (v : Dword) : (s.writeGr r v).bts = s.bts := by unfold State.writeGr; split <;> rfl
@[simp] theorem State.writeGr_bnr (r : BitVec 5) (v : Dword) : (s.writeGr r v).bnr = s.bnr := by unfold State.writeGr; split <;> rfl
@[simp] theorem State.writeGr_sfu (r : BitVec 5) (v : Dword) : (s.writeGr r v).sfu = s.sfu := by unfold State.writeGr; split <;> rfl
@[simp] theorem State.writeGr_copr (r : BitVec 5) (v : Dword) : (s.writeGr r v).copr = s.copr := by unfold State.writeGr; split <;> rfl
@[simp] theorem State.writeGr_cpr (r : BitVec 5) (v : Dword) : (s.writeGr r v).cpr = s.cpr := by unfold State.writeGr; split <;> rfl
@[simp] theorem State.writeGr_mem (r : BitVec 5) (v : Dword) : (s.writeGr r v).mem = s.mem := by unfold State.writeGr; split <;> rfl
@[simp] theorem State.writeGr_iword (r : BitVec 5) (v : Dword) : (s.writeGr r v).iword = s.iword := by unfold State.writeGr; split <;> rfl
@[simp] theorem State.writeGr_freeCount (r : BitVec 5) (v : Dword) : (s.writeGr r v).freeCount = s.freeCount := by unfold State.writeGr; split <;> rfl
@[simp] theorem State.writeGr_removals (r : BitVec 5) (v : Dword) : (s.writeGr r v).removals = s.removals := by unfold State.writeGr; split <;> rfl
@[simp] theorem State.writeGr_relied (r : BitVec 5) (v : Dword) : (s.writeGr r v).relied = s.relied := by unfold State.writeGr; split <;> rfl
@[simp] theorem State.writeGr_semaphores (r : BitVec 5) (v : Dword) : (s.writeGr r v).semaphores = s.semaphores := by unfold State.writeGr; split <;> rfl
@[simp] theorem State.writeGr_fpQueue (r : BitVec 5) (v : Dword) : (s.writeGr r v).fpQueue = s.fpQueue := by unfold State.writeGr; split <;> rfl
@[simp] theorem State.writeGr_fpArray (r : BitVec 5) (v : Dword) : (s.writeGr r v).fpArray = s.fpArray := by unfold State.writeGr; split <;> rfl
@[simp] theorem State.writeGr_fpSequence (r : BitVec 5) (v : Dword) : (s.writeGr r v).fpSequence = s.fpSequence := by unfold State.writeGr; split <;> rfl

/-! ### writeSr -/

@[simp] theorem State.writeSr_gr (n : BitVec 3) (v : Dword) : (s.writeSr n v).gr = s.gr := rfl
@[simp] theorem State.writeSr_shr (n : BitVec 3) (v : Dword) : (s.writeSr n v).shr = s.shr := rfl
@[simp] theorem State.writeSr_iaoqFront (n : BitVec 3) (v : Dword) : (s.writeSr n v).iaoqFront = s.iaoqFront := rfl
@[simp] theorem State.writeSr_iaoqBack (n : BitVec 3) (v : Dword) : (s.writeSr n v).iaoqBack = s.iaoqBack := rfl
@[simp] theorem State.writeSr_iasqFront (n : BitVec 3) (v : Dword) : (s.writeSr n v).iasqFront = s.iasqFront := rfl
@[simp] theorem State.writeSr_iasqBack (n : BitVec 3) (v : Dword) : (s.writeSr n v).iasqBack = s.iasqBack := rfl
@[simp] theorem State.writeSr_psw (n : BitVec 3) (v : Dword) : (s.writeSr n v).psw = s.psw := rfl
@[simp] theorem State.writeSr_rctr (n : BitVec 3) (v : Dword) : (s.writeSr n v).rctr = s.rctr := rfl
@[simp] theorem State.writeSr_pid12 (n : BitVec 3) (v : Dword) : (s.writeSr n v).pid12 = s.pid12 := rfl
@[simp] theorem State.writeSr_pid34 (n : BitVec 3) (v : Dword) : (s.writeSr n v).pid34 = s.pid34 := rfl
@[simp] theorem State.writeSr_pid56 (n : BitVec 3) (v : Dword) : (s.writeSr n v).pid56 = s.pid56 := rfl
@[simp] theorem State.writeSr_pid78 (n : BitVec 3) (v : Dword) : (s.writeSr n v).pid78 = s.pid78 := rfl
@[simp] theorem State.writeSr_scr (n : BitVec 3) (v : Dword) : (s.writeSr n v).scr = s.scr := rfl
@[simp] theorem State.writeSr_ccr (n : BitVec 3) (v : Dword) : (s.writeSr n v).ccr = s.ccr := rfl
@[simp] theorem State.writeSr_sar (n : BitVec 3) (v : Dword) : (s.writeSr n v).sar = s.sar := rfl
@[simp] theorem State.writeSr_iva (n : BitVec 3) (v : Dword) : (s.writeSr n v).iva = s.iva := rfl
@[simp] theorem State.writeSr_eiem (n : BitVec 3) (v : Dword) : (s.writeSr n v).eiem = s.eiem := rfl
@[simp] theorem State.writeSr_itmr (n : BitVec 3) (v : Dword) : (s.writeSr n v).itmr = s.itmr := rfl
@[simp] theorem State.writeSr_itmrCompare (n : BitVec 3) (v : Dword) : (s.writeSr n v).itmrCompare = s.itmrCompare := rfl
@[simp] theorem State.writeSr_iiasqFront (n : BitVec 3) (v : Dword) : (s.writeSr n v).iiasqFront = s.iiasqFront := rfl
@[simp] theorem State.writeSr_iiasqBack (n : BitVec 3) (v : Dword) : (s.writeSr n v).iiasqBack = s.iiasqBack := rfl
@[simp] theorem State.writeSr_iiaoqFront (n : BitVec 3) (v : Dword) : (s.writeSr n v).iiaoqFront = s.iiaoqFront := rfl
@[simp] theorem State.writeSr_iiaoqBack (n : BitVec 3) (v : Dword) : (s.writeSr n v).iiaoqBack = s.iiaoqBack := rfl
@[simp] theorem State.writeSr_iir (n : BitVec 3) (v : Dword) : (s.writeSr n v).iir = s.iir := rfl
@[simp] theorem State.writeSr_isr (n : BitVec 3) (v : Dword) : (s.writeSr n v).isr = s.isr := rfl
@[simp] theorem State.writeSr_ior (n : BitVec 3) (v : Dword) : (s.writeSr n v).ior = s.ior := rfl
@[simp] theorem State.writeSr_ipsw (n : BitVec 3) (v : Dword) : (s.writeSr n v).ipsw = s.ipsw := rfl
@[simp] theorem State.writeSr_eirr (n : BitVec 3) (v : Dword) : (s.writeSr n v).eirr = s.eirr := rfl
@[simp] theorem State.writeSr_tr (n : BitVec 3) (v : Dword) : (s.writeSr n v).tr = s.tr := rfl
@[simp] theorem State.writeSr_fpr (n : BitVec 3) (v : Dword) : (s.writeSr n v).fpr = s.fpr := rfl
@[simp] theorem State.writeSr_itlb (n : BitVec 3) (v : Dword) : (s.writeSr n v).itlb = s.itlb := rfl
@[simp] theorem State.writeSr_dtlb (n : BitVec 3) (v : Dword) : (s.writeSr n v).dtlb = s.dtlb := rfl
@[simp] theorem State.writeSr_defaultWidth (n : BitVec 3) (v : Dword) : (s.writeSr n v).defaultWidth = s.defaultWidth := rfl
@[simp] theorem State.writeSr_defaultEndian (n : BitVec 3) (v : Dword) : (s.writeSr n v).defaultEndian = s.defaultEndian := rfl
@[simp] theorem State.writeSr_hpmcPending (n : BitVec 3) (v : Dword) : (s.writeSr n v).hpmcPending = s.hpmcPending := rfl
@[simp] theorem State.writeSr_powerFailPending (n : BitVec 3) (v : Dword) : (s.writeSr n v).powerFailPending = s.powerFailPending := rfl
@[simp] theorem State.writeSr_lpmcPending (n : BitVec 3) (v : Dword) : (s.writeSr n v).lpmcPending = s.lpmcPending := rfl
@[simp] theorem State.writeSr_perfMonPending (n : BitVec 3) (v : Dword) : (s.writeSr n v).perfMonPending = s.perfMonPending := rfl
@[simp] theorem State.writeSr_measurementEnabled (n : BitVec 3) (v : Dword) : (s.writeSr n v).measurementEnabled = s.measurementEnabled := rfl
@[simp] theorem State.writeSr_bts (n : BitVec 3) (v : Dword) : (s.writeSr n v).bts = s.bts := rfl
@[simp] theorem State.writeSr_bnr (n : BitVec 3) (v : Dword) : (s.writeSr n v).bnr = s.bnr := rfl
@[simp] theorem State.writeSr_sfu (n : BitVec 3) (v : Dword) : (s.writeSr n v).sfu = s.sfu := rfl
@[simp] theorem State.writeSr_copr (n : BitVec 3) (v : Dword) : (s.writeSr n v).copr = s.copr := rfl
@[simp] theorem State.writeSr_cpr (n : BitVec 3) (v : Dword) : (s.writeSr n v).cpr = s.cpr := rfl
@[simp] theorem State.writeSr_mem (n : BitVec 3) (v : Dword) : (s.writeSr n v).mem = s.mem := rfl
@[simp] theorem State.writeSr_iword (n : BitVec 3) (v : Dword) : (s.writeSr n v).iword = s.iword := rfl
@[simp] theorem State.writeSr_freeCount (n : BitVec 3) (v : Dword) : (s.writeSr n v).freeCount = s.freeCount := rfl
@[simp] theorem State.writeSr_removals (n : BitVec 3) (v : Dword) : (s.writeSr n v).removals = s.removals := rfl
@[simp] theorem State.writeSr_relied (n : BitVec 3) (v : Dword) : (s.writeSr n v).relied = s.relied := rfl
@[simp] theorem State.writeSr_semaphores (n : BitVec 3) (v : Dword) : (s.writeSr n v).semaphores = s.semaphores := rfl
@[simp] theorem State.writeSr_fpQueue (n : BitVec 3) (v : Dword) : (s.writeSr n v).fpQueue = s.fpQueue := rfl
@[simp] theorem State.writeSr_fpArray (n : BitVec 3) (v : Dword) : (s.writeSr n v).fpArray = s.fpArray := rfl
@[simp] theorem State.writeSr_fpSequence (n : BitVec 3) (v : Dword) : (s.writeSr n v).fpSequence = s.fpSequence := rfl

/-! ### writeFpr -/

@[simp] theorem State.writeFpr_gr (r : BitVec 5) (v : Dword) : (s.writeFpr r v).gr = s.gr := rfl
@[simp] theorem State.writeFpr_sr (r : BitVec 5) (v : Dword) : (s.writeFpr r v).sr = s.sr := rfl
@[simp] theorem State.writeFpr_shr (r : BitVec 5) (v : Dword) : (s.writeFpr r v).shr = s.shr := rfl
@[simp] theorem State.writeFpr_iaoqFront (r : BitVec 5) (v : Dword) : (s.writeFpr r v).iaoqFront = s.iaoqFront := rfl
@[simp] theorem State.writeFpr_iaoqBack (r : BitVec 5) (v : Dword) : (s.writeFpr r v).iaoqBack = s.iaoqBack := rfl
@[simp] theorem State.writeFpr_iasqFront (r : BitVec 5) (v : Dword) : (s.writeFpr r v).iasqFront = s.iasqFront := rfl
@[simp] theorem State.writeFpr_iasqBack (r : BitVec 5) (v : Dword) : (s.writeFpr r v).iasqBack = s.iasqBack := rfl
@[simp] theorem State.writeFpr_psw (r : BitVec 5) (v : Dword) : (s.writeFpr r v).psw = s.psw := rfl
@[simp] theorem State.writeFpr_rctr (r : BitVec 5) (v : Dword) : (s.writeFpr r v).rctr = s.rctr := rfl
@[simp] theorem State.writeFpr_pid12 (r : BitVec 5) (v : Dword) : (s.writeFpr r v).pid12 = s.pid12 := rfl
@[simp] theorem State.writeFpr_pid34 (r : BitVec 5) (v : Dword) : (s.writeFpr r v).pid34 = s.pid34 := rfl
@[simp] theorem State.writeFpr_pid56 (r : BitVec 5) (v : Dword) : (s.writeFpr r v).pid56 = s.pid56 := rfl
@[simp] theorem State.writeFpr_pid78 (r : BitVec 5) (v : Dword) : (s.writeFpr r v).pid78 = s.pid78 := rfl
@[simp] theorem State.writeFpr_scr (r : BitVec 5) (v : Dword) : (s.writeFpr r v).scr = s.scr := rfl
@[simp] theorem State.writeFpr_ccr (r : BitVec 5) (v : Dword) : (s.writeFpr r v).ccr = s.ccr := rfl
@[simp] theorem State.writeFpr_sar (r : BitVec 5) (v : Dword) : (s.writeFpr r v).sar = s.sar := rfl
@[simp] theorem State.writeFpr_iva (r : BitVec 5) (v : Dword) : (s.writeFpr r v).iva = s.iva := rfl
@[simp] theorem State.writeFpr_eiem (r : BitVec 5) (v : Dword) : (s.writeFpr r v).eiem = s.eiem := rfl
@[simp] theorem State.writeFpr_itmr (r : BitVec 5) (v : Dword) : (s.writeFpr r v).itmr = s.itmr := rfl
@[simp] theorem State.writeFpr_itmrCompare (r : BitVec 5) (v : Dword) : (s.writeFpr r v).itmrCompare = s.itmrCompare := rfl
@[simp] theorem State.writeFpr_iiasqFront (r : BitVec 5) (v : Dword) : (s.writeFpr r v).iiasqFront = s.iiasqFront := rfl
@[simp] theorem State.writeFpr_iiasqBack (r : BitVec 5) (v : Dword) : (s.writeFpr r v).iiasqBack = s.iiasqBack := rfl
@[simp] theorem State.writeFpr_iiaoqFront (r : BitVec 5) (v : Dword) : (s.writeFpr r v).iiaoqFront = s.iiaoqFront := rfl
@[simp] theorem State.writeFpr_iiaoqBack (r : BitVec 5) (v : Dword) : (s.writeFpr r v).iiaoqBack = s.iiaoqBack := rfl
@[simp] theorem State.writeFpr_iir (r : BitVec 5) (v : Dword) : (s.writeFpr r v).iir = s.iir := rfl
@[simp] theorem State.writeFpr_isr (r : BitVec 5) (v : Dword) : (s.writeFpr r v).isr = s.isr := rfl
@[simp] theorem State.writeFpr_ior (r : BitVec 5) (v : Dword) : (s.writeFpr r v).ior = s.ior := rfl
@[simp] theorem State.writeFpr_ipsw (r : BitVec 5) (v : Dword) : (s.writeFpr r v).ipsw = s.ipsw := rfl
@[simp] theorem State.writeFpr_eirr (r : BitVec 5) (v : Dword) : (s.writeFpr r v).eirr = s.eirr := rfl
@[simp] theorem State.writeFpr_tr (r : BitVec 5) (v : Dword) : (s.writeFpr r v).tr = s.tr := rfl
@[simp] theorem State.writeFpr_itlb (r : BitVec 5) (v : Dword) : (s.writeFpr r v).itlb = s.itlb := rfl
@[simp] theorem State.writeFpr_dtlb (r : BitVec 5) (v : Dword) : (s.writeFpr r v).dtlb = s.dtlb := rfl
@[simp] theorem State.writeFpr_defaultWidth (r : BitVec 5) (v : Dword) : (s.writeFpr r v).defaultWidth = s.defaultWidth := rfl
@[simp] theorem State.writeFpr_defaultEndian (r : BitVec 5) (v : Dword) : (s.writeFpr r v).defaultEndian = s.defaultEndian := rfl
@[simp] theorem State.writeFpr_hpmcPending (r : BitVec 5) (v : Dword) : (s.writeFpr r v).hpmcPending = s.hpmcPending := rfl
@[simp] theorem State.writeFpr_powerFailPending (r : BitVec 5) (v : Dword) : (s.writeFpr r v).powerFailPending = s.powerFailPending := rfl
@[simp] theorem State.writeFpr_lpmcPending (r : BitVec 5) (v : Dword) : (s.writeFpr r v).lpmcPending = s.lpmcPending := rfl
@[simp] theorem State.writeFpr_perfMonPending (r : BitVec 5) (v : Dword) : (s.writeFpr r v).perfMonPending = s.perfMonPending := rfl
@[simp] theorem State.writeFpr_measurementEnabled (r : BitVec 5) (v : Dword) : (s.writeFpr r v).measurementEnabled = s.measurementEnabled := rfl
@[simp] theorem State.writeFpr_bts (r : BitVec 5) (v : Dword) : (s.writeFpr r v).bts = s.bts := rfl
@[simp] theorem State.writeFpr_bnr (r : BitVec 5) (v : Dword) : (s.writeFpr r v).bnr = s.bnr := rfl
@[simp] theorem State.writeFpr_sfu (r : BitVec 5) (v : Dword) : (s.writeFpr r v).sfu = s.sfu := rfl
@[simp] theorem State.writeFpr_copr (r : BitVec 5) (v : Dword) : (s.writeFpr r v).copr = s.copr := rfl
@[simp] theorem State.writeFpr_cpr (r : BitVec 5) (v : Dword) : (s.writeFpr r v).cpr = s.cpr := rfl
@[simp] theorem State.writeFpr_mem (r : BitVec 5) (v : Dword) : (s.writeFpr r v).mem = s.mem := rfl
@[simp] theorem State.writeFpr_iword (r : BitVec 5) (v : Dword) : (s.writeFpr r v).iword = s.iword := rfl
@[simp] theorem State.writeFpr_freeCount (r : BitVec 5) (v : Dword) : (s.writeFpr r v).freeCount = s.freeCount := rfl
@[simp] theorem State.writeFpr_removals (r : BitVec 5) (v : Dword) : (s.writeFpr r v).removals = s.removals := rfl
@[simp] theorem State.writeFpr_relied (r : BitVec 5) (v : Dword) : (s.writeFpr r v).relied = s.relied := rfl
@[simp] theorem State.writeFpr_semaphores (r : BitVec 5) (v : Dword) : (s.writeFpr r v).semaphores = s.semaphores := rfl
@[simp] theorem State.writeFpr_fpQueue (r : BitVec 5) (v : Dword) : (s.writeFpr r v).fpQueue = s.fpQueue := rfl
@[simp] theorem State.writeFpr_fpArray (r : BitVec 5) (v : Dword) : (s.writeFpr r v).fpArray = s.fpArray := rfl
@[simp] theorem State.writeFpr_fpSequence (r : BitVec 5) (v : Dword) : (s.writeFpr r v).fpSequence = s.fpSequence := rfl

/-! ### drawn -/

@[simp] theorem State.drawn_gr (n : Nat) : (s.drawn n).gr = s.gr := rfl
@[simp] theorem State.drawn_sr (n : Nat) : (s.drawn n).sr = s.sr := rfl
@[simp] theorem State.drawn_shr (n : Nat) : (s.drawn n).shr = s.shr := rfl
@[simp] theorem State.drawn_iaoqFront (n : Nat) : (s.drawn n).iaoqFront = s.iaoqFront := rfl
@[simp] theorem State.drawn_iaoqBack (n : Nat) : (s.drawn n).iaoqBack = s.iaoqBack := rfl
@[simp] theorem State.drawn_iasqFront (n : Nat) : (s.drawn n).iasqFront = s.iasqFront := rfl
@[simp] theorem State.drawn_iasqBack (n : Nat) : (s.drawn n).iasqBack = s.iasqBack := rfl
@[simp] theorem State.drawn_psw (n : Nat) : (s.drawn n).psw = s.psw := rfl
@[simp] theorem State.drawn_rctr (n : Nat) : (s.drawn n).rctr = s.rctr := rfl
@[simp] theorem State.drawn_pid12 (n : Nat) : (s.drawn n).pid12 = s.pid12 := rfl
@[simp] theorem State.drawn_pid34 (n : Nat) : (s.drawn n).pid34 = s.pid34 := rfl
@[simp] theorem State.drawn_pid56 (n : Nat) : (s.drawn n).pid56 = s.pid56 := rfl
@[simp] theorem State.drawn_pid78 (n : Nat) : (s.drawn n).pid78 = s.pid78 := rfl
@[simp] theorem State.drawn_scr (n : Nat) : (s.drawn n).scr = s.scr := rfl
@[simp] theorem State.drawn_ccr (n : Nat) : (s.drawn n).ccr = s.ccr := rfl
@[simp] theorem State.drawn_sar (n : Nat) : (s.drawn n).sar = s.sar := rfl
@[simp] theorem State.drawn_iva (n : Nat) : (s.drawn n).iva = s.iva := rfl
@[simp] theorem State.drawn_eiem (n : Nat) : (s.drawn n).eiem = s.eiem := rfl
@[simp] theorem State.drawn_itmr (n : Nat) : (s.drawn n).itmr = s.itmr := rfl
@[simp] theorem State.drawn_itmrCompare (n : Nat) : (s.drawn n).itmrCompare = s.itmrCompare := rfl
@[simp] theorem State.drawn_iiasqFront (n : Nat) : (s.drawn n).iiasqFront = s.iiasqFront := rfl
@[simp] theorem State.drawn_iiasqBack (n : Nat) : (s.drawn n).iiasqBack = s.iiasqBack := rfl
@[simp] theorem State.drawn_iiaoqFront (n : Nat) : (s.drawn n).iiaoqFront = s.iiaoqFront := rfl
@[simp] theorem State.drawn_iiaoqBack (n : Nat) : (s.drawn n).iiaoqBack = s.iiaoqBack := rfl
@[simp] theorem State.drawn_iir (n : Nat) : (s.drawn n).iir = s.iir := rfl
@[simp] theorem State.drawn_isr (n : Nat) : (s.drawn n).isr = s.isr := rfl
@[simp] theorem State.drawn_ior (n : Nat) : (s.drawn n).ior = s.ior := rfl
@[simp] theorem State.drawn_ipsw (n : Nat) : (s.drawn n).ipsw = s.ipsw := rfl
@[simp] theorem State.drawn_eirr (n : Nat) : (s.drawn n).eirr = s.eirr := rfl
@[simp] theorem State.drawn_tr (n : Nat) : (s.drawn n).tr = s.tr := rfl
@[simp] theorem State.drawn_fpr (n : Nat) : (s.drawn n).fpr = s.fpr := rfl
@[simp] theorem State.drawn_itlb (n : Nat) : (s.drawn n).itlb = s.itlb := rfl
@[simp] theorem State.drawn_dtlb (n : Nat) : (s.drawn n).dtlb = s.dtlb := rfl
@[simp] theorem State.drawn_defaultWidth (n : Nat) : (s.drawn n).defaultWidth = s.defaultWidth := rfl
@[simp] theorem State.drawn_defaultEndian (n : Nat) : (s.drawn n).defaultEndian = s.defaultEndian := rfl
@[simp] theorem State.drawn_hpmcPending (n : Nat) : (s.drawn n).hpmcPending = s.hpmcPending := rfl
@[simp] theorem State.drawn_powerFailPending (n : Nat) : (s.drawn n).powerFailPending = s.powerFailPending := rfl
@[simp] theorem State.drawn_lpmcPending (n : Nat) : (s.drawn n).lpmcPending = s.lpmcPending := rfl
@[simp] theorem State.drawn_perfMonPending (n : Nat) : (s.drawn n).perfMonPending = s.perfMonPending := rfl
@[simp] theorem State.drawn_measurementEnabled (n : Nat) : (s.drawn n).measurementEnabled = s.measurementEnabled := rfl
@[simp] theorem State.drawn_bts (n : Nat) : (s.drawn n).bts = s.bts := rfl
@[simp] theorem State.drawn_bnr (n : Nat) : (s.drawn n).bnr = s.bnr := rfl
@[simp] theorem State.drawn_sfu (n : Nat) : (s.drawn n).sfu = s.sfu := rfl
@[simp] theorem State.drawn_copr (n : Nat) : (s.drawn n).copr = s.copr := rfl
@[simp] theorem State.drawn_cpr (n : Nat) : (s.drawn n).cpr = s.cpr := rfl
@[simp] theorem State.drawn_mem (n : Nat) : (s.drawn n).mem = s.mem := rfl
@[simp] theorem State.drawn_iword (n : Nat) : (s.drawn n).iword = s.iword := rfl
@[simp] theorem State.drawn_freeCount (n : Nat) : (s.drawn n).freeCount = s.freeCount + n := rfl
@[simp] theorem State.drawn_removals (n : Nat) : (s.drawn n).removals = s.removals := rfl
@[simp] theorem State.drawn_relied (n : Nat) : (s.drawn n).relied = s.relied := rfl
@[simp] theorem State.drawn_semaphores (n : Nat) : (s.drawn n).semaphores = s.semaphores := rfl
@[simp] theorem State.drawn_fpQueue (n : Nat) : (s.drawn n).fpQueue = s.fpQueue := rfl
@[simp] theorem State.drawn_fpArray (n : Nat) : (s.drawn n).fpArray = s.fpArray := rfl
@[simp] theorem State.drawn_fpSequence (n : Nat) : (s.drawn n).fpSequence = s.fpSequence := rfl

/-! ### latch -/

@[simp] theorem State.latch_gr (w : Word) : (s.latch w).gr = s.gr := rfl
@[simp] theorem State.latch_sr (w : Word) : (s.latch w).sr = s.sr := rfl
@[simp] theorem State.latch_shr (w : Word) : (s.latch w).shr = s.shr := rfl
@[simp] theorem State.latch_iaoqFront (w : Word) : (s.latch w).iaoqFront = s.iaoqFront := rfl
@[simp] theorem State.latch_iaoqBack (w : Word) : (s.latch w).iaoqBack = s.iaoqBack := rfl
@[simp] theorem State.latch_iasqFront (w : Word) : (s.latch w).iasqFront = s.iasqFront := rfl
@[simp] theorem State.latch_iasqBack (w : Word) : (s.latch w).iasqBack = s.iasqBack := rfl
@[simp] theorem State.latch_psw (w : Word) : (s.latch w).psw = s.psw := rfl
@[simp] theorem State.latch_rctr (w : Word) : (s.latch w).rctr = s.rctr := rfl
@[simp] theorem State.latch_pid12 (w : Word) : (s.latch w).pid12 = s.pid12 := rfl
@[simp] theorem State.latch_pid34 (w : Word) : (s.latch w).pid34 = s.pid34 := rfl
@[simp] theorem State.latch_pid56 (w : Word) : (s.latch w).pid56 = s.pid56 := rfl
@[simp] theorem State.latch_pid78 (w : Word) : (s.latch w).pid78 = s.pid78 := rfl
@[simp] theorem State.latch_scr (w : Word) : (s.latch w).scr = s.scr := rfl
@[simp] theorem State.latch_ccr (w : Word) : (s.latch w).ccr = s.ccr := rfl
@[simp] theorem State.latch_sar (w : Word) : (s.latch w).sar = s.sar := rfl
@[simp] theorem State.latch_iva (w : Word) : (s.latch w).iva = s.iva := rfl
@[simp] theorem State.latch_eiem (w : Word) : (s.latch w).eiem = s.eiem := rfl
@[simp] theorem State.latch_itmr (w : Word) : (s.latch w).itmr = s.itmr := rfl
@[simp] theorem State.latch_itmrCompare (w : Word) : (s.latch w).itmrCompare = s.itmrCompare := rfl
@[simp] theorem State.latch_iiasqFront (w : Word) : (s.latch w).iiasqFront = s.iiasqFront := rfl
@[simp] theorem State.latch_iiasqBack (w : Word) : (s.latch w).iiasqBack = s.iiasqBack := rfl
@[simp] theorem State.latch_iiaoqFront (w : Word) : (s.latch w).iiaoqFront = s.iiaoqFront := rfl
@[simp] theorem State.latch_iiaoqBack (w : Word) : (s.latch w).iiaoqBack = s.iiaoqBack := rfl
@[simp] theorem State.latch_iir (w : Word) : (s.latch w).iir = s.iir := rfl
@[simp] theorem State.latch_isr (w : Word) : (s.latch w).isr = s.isr := rfl
@[simp] theorem State.latch_ior (w : Word) : (s.latch w).ior = s.ior := rfl
@[simp] theorem State.latch_ipsw (w : Word) : (s.latch w).ipsw = s.ipsw := rfl
@[simp] theorem State.latch_eirr (w : Word) : (s.latch w).eirr = s.eirr := rfl
@[simp] theorem State.latch_tr (w : Word) : (s.latch w).tr = s.tr := rfl
@[simp] theorem State.latch_fpr (w : Word) : (s.latch w).fpr = s.fpr := rfl
@[simp] theorem State.latch_itlb (w : Word) : (s.latch w).itlb = s.itlb := rfl
@[simp] theorem State.latch_dtlb (w : Word) : (s.latch w).dtlb = s.dtlb := rfl
@[simp] theorem State.latch_defaultWidth (w : Word) : (s.latch w).defaultWidth = s.defaultWidth := rfl
@[simp] theorem State.latch_defaultEndian (w : Word) : (s.latch w).defaultEndian = s.defaultEndian := rfl
@[simp] theorem State.latch_hpmcPending (w : Word) : (s.latch w).hpmcPending = s.hpmcPending := rfl
@[simp] theorem State.latch_powerFailPending (w : Word) : (s.latch w).powerFailPending = s.powerFailPending := rfl
@[simp] theorem State.latch_lpmcPending (w : Word) : (s.latch w).lpmcPending = s.lpmcPending := rfl
@[simp] theorem State.latch_perfMonPending (w : Word) : (s.latch w).perfMonPending = s.perfMonPending := rfl
@[simp] theorem State.latch_measurementEnabled (w : Word) : (s.latch w).measurementEnabled = s.measurementEnabled := rfl
@[simp] theorem State.latch_bts (w : Word) : (s.latch w).bts = s.bts := rfl
@[simp] theorem State.latch_bnr (w : Word) : (s.latch w).bnr = s.bnr := rfl
@[simp] theorem State.latch_sfu (w : Word) : (s.latch w).sfu = s.sfu := rfl
@[simp] theorem State.latch_copr (w : Word) : (s.latch w).copr = s.copr := rfl
@[simp] theorem State.latch_cpr (w : Word) : (s.latch w).cpr = s.cpr := rfl
@[simp] theorem State.latch_mem (w : Word) : (s.latch w).mem = s.mem := rfl
@[simp] theorem State.latch_iword (w : Word) : (s.latch w).iword = w := rfl
@[simp] theorem State.latch_freeCount (w : Word) : (s.latch w).freeCount = s.freeCount := rfl
@[simp] theorem State.latch_removals (w : Word) : (s.latch w).removals = s.removals := rfl
@[simp] theorem State.latch_relied (w : Word) : (s.latch w).relied = s.relied := rfl
@[simp] theorem State.latch_semaphores (w : Word) : (s.latch w).semaphores = s.semaphores := rfl
@[simp] theorem State.latch_fpQueue (w : Word) : (s.latch w).fpQueue = s.fpQueue := rfl
@[simp] theorem State.latch_fpArray (w : Word) : (s.latch w).fpArray = s.fpArray := rfl
@[simp] theorem State.latch_fpSequence (w : Word) : (s.latch w).fpSequence = s.fpSequence := rfl

/-! ### advance -/

@[simp] theorem State.advance_gr (fl : Flow) : (s.advance fl).gr = s.gr := rfl
@[simp] theorem State.advance_sr (fl : Flow) : (s.advance fl).sr = s.sr := rfl
@[simp] theorem State.advance_shr (fl : Flow) : (s.advance fl).shr = s.shr := rfl
@[simp] theorem State.advance_iaoqFront (fl : Flow) : (s.advance fl).iaoqFront = s.iaoqBack := rfl
@[simp] theorem State.advance_iaoqBack (fl : Flow) : (s.advance fl).iaoqBack = fl.offset := rfl
@[simp] theorem State.advance_iasqFront (fl : Flow) : (s.advance fl).iasqFront = s.iasqBack := rfl
@[simp] theorem State.advance_iasqBack (fl : Flow) : (s.advance fl).iasqBack = fl.space := rfl
@[simp] theorem State.advance_psw (fl : Flow) : (s.advance fl).psw = endPsw s.psw fl := rfl
@[simp] theorem State.advance_rctr (fl : Flow) : (s.advance fl).rctr = s.rctr := rfl
@[simp] theorem State.advance_pid12 (fl : Flow) : (s.advance fl).pid12 = s.pid12 := rfl
@[simp] theorem State.advance_pid34 (fl : Flow) : (s.advance fl).pid34 = s.pid34 := rfl
@[simp] theorem State.advance_pid56 (fl : Flow) : (s.advance fl).pid56 = s.pid56 := rfl
@[simp] theorem State.advance_pid78 (fl : Flow) : (s.advance fl).pid78 = s.pid78 := rfl
@[simp] theorem State.advance_scr (fl : Flow) : (s.advance fl).scr = s.scr := rfl
@[simp] theorem State.advance_ccr (fl : Flow) : (s.advance fl).ccr = s.ccr := rfl
@[simp] theorem State.advance_sar (fl : Flow) : (s.advance fl).sar = s.sar := rfl
@[simp] theorem State.advance_iva (fl : Flow) : (s.advance fl).iva = s.iva := rfl
@[simp] theorem State.advance_eiem (fl : Flow) : (s.advance fl).eiem = s.eiem := rfl
@[simp] theorem State.advance_itmr (fl : Flow) : (s.advance fl).itmr = s.itmr := rfl
@[simp] theorem State.advance_itmrCompare (fl : Flow) : (s.advance fl).itmrCompare = s.itmrCompare := rfl
@[simp] theorem State.advance_iiasqFront (fl : Flow) : (s.advance fl).iiasqFront = s.iiasqFront := rfl
@[simp] theorem State.advance_iiasqBack (fl : Flow) : (s.advance fl).iiasqBack = s.iiasqBack := rfl
@[simp] theorem State.advance_iiaoqFront (fl : Flow) : (s.advance fl).iiaoqFront = s.iiaoqFront := rfl
@[simp] theorem State.advance_iiaoqBack (fl : Flow) : (s.advance fl).iiaoqBack = s.iiaoqBack := rfl
@[simp] theorem State.advance_iir (fl : Flow) : (s.advance fl).iir = s.iir := rfl
@[simp] theorem State.advance_isr (fl : Flow) : (s.advance fl).isr = s.isr := rfl
@[simp] theorem State.advance_ior (fl : Flow) : (s.advance fl).ior = s.ior := rfl
@[simp] theorem State.advance_ipsw (fl : Flow) : (s.advance fl).ipsw = s.ipsw := rfl
@[simp] theorem State.advance_eirr (fl : Flow) : (s.advance fl).eirr = s.eirr := rfl
@[simp] theorem State.advance_tr (fl : Flow) : (s.advance fl).tr = s.tr := rfl
@[simp] theorem State.advance_fpr (fl : Flow) : (s.advance fl).fpr = s.fpr := rfl
@[simp] theorem State.advance_itlb (fl : Flow) : (s.advance fl).itlb = s.itlb := rfl
@[simp] theorem State.advance_dtlb (fl : Flow) : (s.advance fl).dtlb = s.dtlb := rfl
@[simp] theorem State.advance_defaultWidth (fl : Flow) : (s.advance fl).defaultWidth = s.defaultWidth := rfl
@[simp] theorem State.advance_defaultEndian (fl : Flow) : (s.advance fl).defaultEndian = s.defaultEndian := rfl
@[simp] theorem State.advance_hpmcPending (fl : Flow) : (s.advance fl).hpmcPending = s.hpmcPending := rfl
@[simp] theorem State.advance_powerFailPending (fl : Flow) : (s.advance fl).powerFailPending = s.powerFailPending := rfl
@[simp] theorem State.advance_lpmcPending (fl : Flow) : (s.advance fl).lpmcPending = s.lpmcPending := rfl
@[simp] theorem State.advance_perfMonPending (fl : Flow) : (s.advance fl).perfMonPending = s.perfMonPending := rfl
@[simp] theorem State.advance_measurementEnabled (fl : Flow) : (s.advance fl).measurementEnabled = s.measurementEnabled := rfl
@[simp] theorem State.advance_bts (fl : Flow) : (s.advance fl).bts = s.bts := rfl
@[simp] theorem State.advance_bnr (fl : Flow) : (s.advance fl).bnr = s.bnr := rfl
@[simp] theorem State.advance_sfu (fl : Flow) : (s.advance fl).sfu = s.sfu := rfl
@[simp] theorem State.advance_copr (fl : Flow) : (s.advance fl).copr = s.copr := rfl
@[simp] theorem State.advance_cpr (fl : Flow) : (s.advance fl).cpr = s.cpr := rfl
@[simp] theorem State.advance_mem (fl : Flow) : (s.advance fl).mem = s.mem := rfl
@[simp] theorem State.advance_iword (fl : Flow) : (s.advance fl).iword = s.iword := rfl
@[simp] theorem State.advance_freeCount (fl : Flow) : (s.advance fl).freeCount = s.freeCount := rfl
@[simp] theorem State.advance_removals (fl : Flow) : (s.advance fl).removals = s.removals := rfl
@[simp] theorem State.advance_relied (fl : Flow) : (s.advance fl).relied = s.relied := rfl
@[simp] theorem State.advance_semaphores (fl : Flow) : (s.advance fl).semaphores = s.semaphores := rfl
@[simp] theorem State.advance_fpQueue (fl : Flow) : (s.advance fl).fpQueue = s.fpQueue := rfl
@[simp] theorem State.advance_fpArray (fl : Flow) : (s.advance fl).fpArray = s.fpArray := rfl
@[simp] theorem State.advance_fpSequence (fl : Flow) : (s.advance fl).fpSequence = s.fpSequence := rfl

/-! ### countDown -/

@[simp] theorem State.countDown_gr (running : Bool) : (s.countDown running).gr = s.gr := by unfold State.countDown; split <;> rfl
@[simp] theorem State.countDown_sr (running : Bool) : (s.countDown running).sr = s.sr := by unfold State.countDown; split <;> rfl
@[simp] theorem State.countDown_shr (running : Bool) : (s.countDown running).shr = s.shr := by unfold State.countDown; split <;> rfl
@[simp] theorem State.countDown_iaoqFront (running : Bool) : (s.countDown running).iaoqFront = s.iaoqFront := by unfold State.countDown; split <;> rfl
@[simp] theorem State.countDown_iaoqBack (running : Bool) : (s.countDown running).iaoqBack = s.iaoqBack := by unfold State.countDown; split <;> rfl
@[simp] theorem State.countDown_iasqFront (running : Bool) : (s.countDown running).iasqFront = s.iasqFront := by unfold State.countDown; split <;> rfl
@[simp] theorem State.countDown_iasqBack (running : Bool) : (s.countDown running).iasqBack = s.iasqBack := by unfold State.countDown; split <;> rfl
@[simp] theorem State.countDown_psw (running : Bool) : (s.countDown running).psw = s.psw := by unfold State.countDown; split <;> rfl
@[simp] theorem State.countDown_pid12 (running : Bool) : (s.countDown running).pid12 = s.pid12 := by unfold State.countDown; split <;> rfl
@[simp] theorem State.countDown_pid34 (running : Bool) : (s.countDown running).pid34 = s.pid34 := by unfold State.countDown; split <;> rfl
@[simp] theorem State.countDown_pid56 (running : Bool) : (s.countDown running).pid56 = s.pid56 := by unfold State.countDown; split <;> rfl
@[simp] theorem State.countDown_pid78 (running : Bool) : (s.countDown running).pid78 = s.pid78 := by unfold State.countDown; split <;> rfl
@[simp] theorem State.countDown_scr (running : Bool) : (s.countDown running).scr = s.scr := by unfold State.countDown; split <;> rfl
@[simp] theorem State.countDown_ccr (running : Bool) : (s.countDown running).ccr = s.ccr := by unfold State.countDown; split <;> rfl
@[simp] theorem State.countDown_sar (running : Bool) : (s.countDown running).sar = s.sar := by unfold State.countDown; split <;> rfl
@[simp] theorem State.countDown_iva (running : Bool) : (s.countDown running).iva = s.iva := by unfold State.countDown; split <;> rfl
@[simp] theorem State.countDown_eiem (running : Bool) : (s.countDown running).eiem = s.eiem := by unfold State.countDown; split <;> rfl
@[simp] theorem State.countDown_itmr (running : Bool) : (s.countDown running).itmr = s.itmr := by unfold State.countDown; split <;> rfl
@[simp] theorem State.countDown_itmrCompare (running : Bool) : (s.countDown running).itmrCompare = s.itmrCompare := by unfold State.countDown; split <;> rfl
@[simp] theorem State.countDown_iiasqFront (running : Bool) : (s.countDown running).iiasqFront = s.iiasqFront := by unfold State.countDown; split <;> rfl
@[simp] theorem State.countDown_iiasqBack (running : Bool) : (s.countDown running).iiasqBack = s.iiasqBack := by unfold State.countDown; split <;> rfl
@[simp] theorem State.countDown_iiaoqFront (running : Bool) : (s.countDown running).iiaoqFront = s.iiaoqFront := by unfold State.countDown; split <;> rfl
@[simp] theorem State.countDown_iiaoqBack (running : Bool) : (s.countDown running).iiaoqBack = s.iiaoqBack := by unfold State.countDown; split <;> rfl
@[simp] theorem State.countDown_iir (running : Bool) : (s.countDown running).iir = s.iir := by unfold State.countDown; split <;> rfl
@[simp] theorem State.countDown_isr (running : Bool) : (s.countDown running).isr = s.isr := by unfold State.countDown; split <;> rfl
@[simp] theorem State.countDown_ior (running : Bool) : (s.countDown running).ior = s.ior := by unfold State.countDown; split <;> rfl
@[simp] theorem State.countDown_ipsw (running : Bool) : (s.countDown running).ipsw = s.ipsw := by unfold State.countDown; split <;> rfl
@[simp] theorem State.countDown_eirr (running : Bool) : (s.countDown running).eirr = s.eirr := by unfold State.countDown; split <;> rfl
@[simp] theorem State.countDown_tr (running : Bool) : (s.countDown running).tr = s.tr := by unfold State.countDown; split <;> rfl
@[simp] theorem State.countDown_fpr (running : Bool) : (s.countDown running).fpr = s.fpr := by unfold State.countDown; split <;> rfl
@[simp] theorem State.countDown_itlb (running : Bool) : (s.countDown running).itlb = s.itlb := by unfold State.countDown; split <;> rfl
@[simp] theorem State.countDown_dtlb (running : Bool) : (s.countDown running).dtlb = s.dtlb := by unfold State.countDown; split <;> rfl
@[simp] theorem State.countDown_defaultWidth (running : Bool) : (s.countDown running).defaultWidth = s.defaultWidth := by unfold State.countDown; split <;> rfl
@[simp] theorem State.countDown_defaultEndian (running : Bool) : (s.countDown running).defaultEndian = s.defaultEndian := by unfold State.countDown; split <;> rfl
@[simp] theorem State.countDown_hpmcPending (running : Bool) : (s.countDown running).hpmcPending = s.hpmcPending := by unfold State.countDown; split <;> rfl
@[simp] theorem State.countDown_powerFailPending (running : Bool) : (s.countDown running).powerFailPending = s.powerFailPending := by unfold State.countDown; split <;> rfl
@[simp] theorem State.countDown_lpmcPending (running : Bool) : (s.countDown running).lpmcPending = s.lpmcPending := by unfold State.countDown; split <;> rfl
@[simp] theorem State.countDown_perfMonPending (running : Bool) : (s.countDown running).perfMonPending = s.perfMonPending := by unfold State.countDown; split <;> rfl
@[simp] theorem State.countDown_measurementEnabled (running : Bool) : (s.countDown running).measurementEnabled = s.measurementEnabled := by unfold State.countDown; split <;> rfl
@[simp] theorem State.countDown_bts (running : Bool) : (s.countDown running).bts = s.bts := by unfold State.countDown; split <;> rfl
@[simp] theorem State.countDown_bnr (running : Bool) : (s.countDown running).bnr = s.bnr := by unfold State.countDown; split <;> rfl
@[simp] theorem State.countDown_sfu (running : Bool) : (s.countDown running).sfu = s.sfu := by unfold State.countDown; split <;> rfl
@[simp] theorem State.countDown_copr (running : Bool) : (s.countDown running).copr = s.copr := by unfold State.countDown; split <;> rfl
@[simp] theorem State.countDown_cpr (running : Bool) : (s.countDown running).cpr = s.cpr := by unfold State.countDown; split <;> rfl
@[simp] theorem State.countDown_mem (running : Bool) : (s.countDown running).mem = s.mem := by unfold State.countDown; split <;> rfl
@[simp] theorem State.countDown_iword (running : Bool) : (s.countDown running).iword = s.iword := by unfold State.countDown; split <;> rfl
@[simp] theorem State.countDown_freeCount (running : Bool) : (s.countDown running).freeCount = s.freeCount := by unfold State.countDown; split <;> rfl
@[simp] theorem State.countDown_removals (running : Bool) : (s.countDown running).removals = s.removals := by unfold State.countDown; split <;> rfl
@[simp] theorem State.countDown_relied (running : Bool) : (s.countDown running).relied = s.relied := by unfold State.countDown; split <;> rfl
@[simp] theorem State.countDown_semaphores (running : Bool) : (s.countDown running).semaphores = s.semaphores := by unfold State.countDown; split <;> rfl
@[simp] theorem State.countDown_fpQueue (running : Bool) : (s.countDown running).fpQueue = s.fpQueue := by unfold State.countDown; split <;> rfl
@[simp] theorem State.countDown_fpArray (running : Bool) : (s.countDown running).fpArray = s.fpArray := by unfold State.countDown; split <;> rfl
@[simp] theorem State.countDown_fpSequence (running : Bool) : (s.countDown running).fpSequence = s.fpSequence := by unfold State.countDown; split <;> rfl

/-! ### tick -/

@[simp] theorem State.tick_gr  : s.tick.gr = s.gr := rfl
@[simp] theorem State.tick_sr  : s.tick.sr = s.sr := rfl
@[simp] theorem State.tick_shr  : s.tick.shr = s.shr := rfl
@[simp] theorem State.tick_iaoqFront  : s.tick.iaoqFront = s.iaoqFront := rfl
@[simp] theorem State.tick_iaoqBack  : s.tick.iaoqBack = s.iaoqBack := rfl
@[simp] theorem State.tick_iasqFront  : s.tick.iasqFront = s.iasqFront := rfl
@[simp] theorem State.tick_iasqBack  : s.tick.iasqBack = s.iasqBack := rfl
@[simp] theorem State.tick_psw  : s.tick.psw = s.psw := rfl
@[simp] theorem State.tick_rctr  : s.tick.rctr = s.rctr := rfl
@[simp] theorem State.tick_pid12  : s.tick.pid12 = s.pid12 := rfl
@[simp] theorem State.tick_pid34  : s.tick.pid34 = s.pid34 := rfl
@[simp] theorem State.tick_pid56  : s.tick.pid56 = s.pid56 := rfl
@[simp] theorem State.tick_pid78  : s.tick.pid78 = s.pid78 := rfl
@[simp] theorem State.tick_scr  : s.tick.scr = s.scr := rfl
@[simp] theorem State.tick_ccr  : s.tick.ccr = s.ccr := rfl
@[simp] theorem State.tick_sar  : s.tick.sar = s.sar := rfl
@[simp] theorem State.tick_iva  : s.tick.iva = s.iva := rfl
@[simp] theorem State.tick_eiem  : s.tick.eiem = s.eiem := rfl
@[simp] theorem State.tick_itmr  : s.tick.itmr = s.itmr + Config.timerRate := rfl
@[simp] theorem State.tick_itmrCompare  : s.tick.itmrCompare = s.itmrCompare := rfl
@[simp] theorem State.tick_iiasqFront  : s.tick.iiasqFront = s.iiasqFront := rfl
@[simp] theorem State.tick_iiasqBack  : s.tick.iiasqBack = s.iiasqBack := rfl
@[simp] theorem State.tick_iiaoqFront  : s.tick.iiaoqFront = s.iiaoqFront := rfl
@[simp] theorem State.tick_iiaoqBack  : s.tick.iiaoqBack = s.iiaoqBack := rfl
@[simp] theorem State.tick_iir  : s.tick.iir = s.iir := rfl
@[simp] theorem State.tick_isr  : s.tick.isr = s.isr := rfl
@[simp] theorem State.tick_ior  : s.tick.ior = s.ior := rfl
@[simp] theorem State.tick_ipsw  : s.tick.ipsw = s.ipsw := rfl
@[simp] theorem State.tick_tr  : s.tick.tr = s.tr := rfl
@[simp] theorem State.tick_fpr  : s.tick.fpr = s.fpr := rfl
@[simp] theorem State.tick_itlb  : s.tick.itlb = s.itlb := rfl
@[simp] theorem State.tick_dtlb  : s.tick.dtlb = s.dtlb := rfl
@[simp] theorem State.tick_defaultWidth  : s.tick.defaultWidth = s.defaultWidth := rfl
@[simp] theorem State.tick_defaultEndian  : s.tick.defaultEndian = s.defaultEndian := rfl
@[simp] theorem State.tick_hpmcPending  : s.tick.hpmcPending = s.hpmcPending := rfl
@[simp] theorem State.tick_powerFailPending  : s.tick.powerFailPending = s.powerFailPending := rfl
@[simp] theorem State.tick_lpmcPending  : s.tick.lpmcPending = s.lpmcPending := rfl
@[simp] theorem State.tick_perfMonPending  : s.tick.perfMonPending = s.perfMonPending := rfl
@[simp] theorem State.tick_measurementEnabled  : s.tick.measurementEnabled = s.measurementEnabled := rfl
@[simp] theorem State.tick_bts  : s.tick.bts = s.bts := rfl
@[simp] theorem State.tick_bnr  : s.tick.bnr = s.bnr := rfl
@[simp] theorem State.tick_sfu  : s.tick.sfu = s.sfu := rfl
@[simp] theorem State.tick_copr  : s.tick.copr = s.copr := rfl
@[simp] theorem State.tick_cpr  : s.tick.cpr = s.cpr := rfl
@[simp] theorem State.tick_mem  : s.tick.mem = s.mem := rfl
@[simp] theorem State.tick_iword  : s.tick.iword = s.iword := rfl
@[simp] theorem State.tick_freeCount  : s.tick.freeCount = s.freeCount := rfl
@[simp] theorem State.tick_removals  : s.tick.removals = s.removals := rfl
@[simp] theorem State.tick_relied  : s.tick.relied = s.relied := rfl
@[simp] theorem State.tick_semaphores  : s.tick.semaphores = s.semaphores := rfl
@[simp] theorem State.tick_fpQueue  : s.tick.fpQueue = s.fpQueue := rfl
@[simp] theorem State.tick_fpArray  : s.tick.fpArray = s.fpArray := rfl
@[simp] theorem State.tick_fpSequence  : s.tick.fpSequence = s.fpSequence := rfl

/-! ### linkTo -/

@[simp] theorem State.linkTo_sr (t : BitVec 5) : (s.linkTo t).sr = s.sr := by unfold State.linkTo State.writeGr; split <;> rfl
@[simp] theorem State.linkTo_shr (t : BitVec 5) : (s.linkTo t).shr = s.shr := by unfold State.linkTo State.writeGr; split <;> rfl
@[simp] theorem State.linkTo_iaoqFront (t : BitVec 5) : (s.linkTo t).iaoqFront = s.iaoqFront := by unfold State.linkTo State.writeGr; split <;> rfl
@[simp] theorem State.linkTo_iaoqBack (t : BitVec 5) : (s.linkTo t).iaoqBack = s.iaoqBack := by unfold State.linkTo State.writeGr; split <;> rfl
@[simp] theorem State.linkTo_iasqFront (t : BitVec 5) : (s.linkTo t).iasqFront = s.iasqFront := by unfold State.linkTo State.writeGr; split <;> rfl
@[simp] theorem State.linkTo_iasqBack (t : BitVec 5) : (s.linkTo t).iasqBack = s.iasqBack := by unfold State.linkTo State.writeGr; split <;> rfl
@[simp] theorem State.linkTo_psw (t : BitVec 5) : (s.linkTo t).psw = s.psw := by unfold State.linkTo State.writeGr; split <;> rfl
@[simp] theorem State.linkTo_rctr (t : BitVec 5) : (s.linkTo t).rctr = s.rctr := by unfold State.linkTo State.writeGr; split <;> rfl
@[simp] theorem State.linkTo_pid12 (t : BitVec 5) : (s.linkTo t).pid12 = s.pid12 := by unfold State.linkTo State.writeGr; split <;> rfl
@[simp] theorem State.linkTo_pid34 (t : BitVec 5) : (s.linkTo t).pid34 = s.pid34 := by unfold State.linkTo State.writeGr; split <;> rfl
@[simp] theorem State.linkTo_pid56 (t : BitVec 5) : (s.linkTo t).pid56 = s.pid56 := by unfold State.linkTo State.writeGr; split <;> rfl
@[simp] theorem State.linkTo_pid78 (t : BitVec 5) : (s.linkTo t).pid78 = s.pid78 := by unfold State.linkTo State.writeGr; split <;> rfl
@[simp] theorem State.linkTo_scr (t : BitVec 5) : (s.linkTo t).scr = s.scr := by unfold State.linkTo State.writeGr; split <;> rfl
@[simp] theorem State.linkTo_ccr (t : BitVec 5) : (s.linkTo t).ccr = s.ccr := by unfold State.linkTo State.writeGr; split <;> rfl
@[simp] theorem State.linkTo_sar (t : BitVec 5) : (s.linkTo t).sar = s.sar := by unfold State.linkTo State.writeGr; split <;> rfl
@[simp] theorem State.linkTo_iva (t : BitVec 5) : (s.linkTo t).iva = s.iva := by unfold State.linkTo State.writeGr; split <;> rfl
@[simp] theorem State.linkTo_eiem (t : BitVec 5) : (s.linkTo t).eiem = s.eiem := by unfold State.linkTo State.writeGr; split <;> rfl
@[simp] theorem State.linkTo_itmr (t : BitVec 5) : (s.linkTo t).itmr = s.itmr := by unfold State.linkTo State.writeGr; split <;> rfl
@[simp] theorem State.linkTo_itmrCompare (t : BitVec 5) : (s.linkTo t).itmrCompare = s.itmrCompare := by unfold State.linkTo State.writeGr; split <;> rfl
@[simp] theorem State.linkTo_iiasqFront (t : BitVec 5) : (s.linkTo t).iiasqFront = s.iiasqFront := by unfold State.linkTo State.writeGr; split <;> rfl
@[simp] theorem State.linkTo_iiasqBack (t : BitVec 5) : (s.linkTo t).iiasqBack = s.iiasqBack := by unfold State.linkTo State.writeGr; split <;> rfl
@[simp] theorem State.linkTo_iiaoqFront (t : BitVec 5) : (s.linkTo t).iiaoqFront = s.iiaoqFront := by unfold State.linkTo State.writeGr; split <;> rfl
@[simp] theorem State.linkTo_iiaoqBack (t : BitVec 5) : (s.linkTo t).iiaoqBack = s.iiaoqBack := by unfold State.linkTo State.writeGr; split <;> rfl
@[simp] theorem State.linkTo_iir (t : BitVec 5) : (s.linkTo t).iir = s.iir := by unfold State.linkTo State.writeGr; split <;> rfl
@[simp] theorem State.linkTo_isr (t : BitVec 5) : (s.linkTo t).isr = s.isr := by unfold State.linkTo State.writeGr; split <;> rfl
@[simp] theorem State.linkTo_ior (t : BitVec 5) : (s.linkTo t).ior = s.ior := by unfold State.linkTo State.writeGr; split <;> rfl
@[simp] theorem State.linkTo_ipsw (t : BitVec 5) : (s.linkTo t).ipsw = s.ipsw := by unfold State.linkTo State.writeGr; split <;> rfl
@[simp] theorem State.linkTo_eirr (t : BitVec 5) : (s.linkTo t).eirr = s.eirr := by unfold State.linkTo State.writeGr; split <;> rfl
@[simp] theorem State.linkTo_tr (t : BitVec 5) : (s.linkTo t).tr = s.tr := by unfold State.linkTo State.writeGr; split <;> rfl
@[simp] theorem State.linkTo_fpr (t : BitVec 5) : (s.linkTo t).fpr = s.fpr := by unfold State.linkTo State.writeGr; split <;> rfl
@[simp] theorem State.linkTo_itlb (t : BitVec 5) : (s.linkTo t).itlb = s.itlb := by unfold State.linkTo State.writeGr; split <;> rfl
@[simp] theorem State.linkTo_dtlb (t : BitVec 5) : (s.linkTo t).dtlb = s.dtlb := by unfold State.linkTo State.writeGr; split <;> rfl
@[simp] theorem State.linkTo_defaultWidth (t : BitVec 5) : (s.linkTo t).defaultWidth = s.defaultWidth := by unfold State.linkTo State.writeGr; split <;> rfl
@[simp] theorem State.linkTo_defaultEndian (t : BitVec 5) : (s.linkTo t).defaultEndian = s.defaultEndian := by unfold State.linkTo State.writeGr; split <;> rfl
@[simp] theorem State.linkTo_hpmcPending (t : BitVec 5) : (s.linkTo t).hpmcPending = s.hpmcPending := by unfold State.linkTo State.writeGr; split <;> rfl
@[simp] theorem State.linkTo_powerFailPending (t : BitVec 5) : (s.linkTo t).powerFailPending = s.powerFailPending := by unfold State.linkTo State.writeGr; split <;> rfl
@[simp] theorem State.linkTo_lpmcPending (t : BitVec 5) : (s.linkTo t).lpmcPending = s.lpmcPending := by unfold State.linkTo State.writeGr; split <;> rfl
@[simp] theorem State.linkTo_perfMonPending (t : BitVec 5) : (s.linkTo t).perfMonPending = s.perfMonPending := by unfold State.linkTo State.writeGr; split <;> rfl
@[simp] theorem State.linkTo_measurementEnabled (t : BitVec 5) : (s.linkTo t).measurementEnabled = s.measurementEnabled := by unfold State.linkTo State.writeGr; split <;> rfl
@[simp] theorem State.linkTo_bts (t : BitVec 5) : (s.linkTo t).bts = s.bts := by unfold State.linkTo State.writeGr; split <;> rfl
@[simp] theorem State.linkTo_bnr (t : BitVec 5) : (s.linkTo t).bnr = btsEntry s.link := rfl
@[simp] theorem State.linkTo_sfu (t : BitVec 5) : (s.linkTo t).sfu = s.sfu := by unfold State.linkTo State.writeGr; split <;> rfl
@[simp] theorem State.linkTo_copr (t : BitVec 5) : (s.linkTo t).copr = s.copr := by unfold State.linkTo State.writeGr; split <;> rfl
@[simp] theorem State.linkTo_cpr (t : BitVec 5) : (s.linkTo t).cpr = s.cpr := by unfold State.linkTo State.writeGr; split <;> rfl
@[simp] theorem State.linkTo_mem (t : BitVec 5) : (s.linkTo t).mem = s.mem := by unfold State.linkTo State.writeGr; split <;> rfl
@[simp] theorem State.linkTo_iword (t : BitVec 5) : (s.linkTo t).iword = s.iword := by unfold State.linkTo State.writeGr; split <;> rfl
@[simp] theorem State.linkTo_freeCount (t : BitVec 5) : (s.linkTo t).freeCount = s.freeCount := by unfold State.linkTo State.writeGr; split <;> rfl
@[simp] theorem State.linkTo_removals (t : BitVec 5) : (s.linkTo t).removals = s.removals := by unfold State.linkTo State.writeGr; split <;> rfl
@[simp] theorem State.linkTo_relied (t : BitVec 5) : (s.linkTo t).relied = s.relied := by unfold State.linkTo State.writeGr; split <;> rfl
@[simp] theorem State.linkTo_semaphores (t : BitVec 5) : (s.linkTo t).semaphores = s.semaphores := by unfold State.linkTo State.writeGr; split <;> rfl
@[simp] theorem State.linkTo_fpQueue (t : BitVec 5) : (s.linkTo t).fpQueue = s.fpQueue := by unfold State.linkTo State.writeGr; split <;> rfl
@[simp] theorem State.linkTo_fpArray (t : BitVec 5) : (s.linkTo t).fpArray = s.fpArray := by unfold State.linkTo State.writeGr; split <;> rfl
@[simp] theorem State.linkTo_fpSequence (t : BitVec 5) : (s.linkTo t).fpSequence = s.fpSequence := by unfold State.linkTo State.writeGr; split <;> rfl

/-! ### pushBts -/

@[simp] theorem State.pushBts_gr (e : BitVec 63) : (s.pushBts e).gr = s.gr := rfl
@[simp] theorem State.pushBts_sr (e : BitVec 63) : (s.pushBts e).sr = s.sr := rfl
@[simp] theorem State.pushBts_shr (e : BitVec 63) : (s.pushBts e).shr = s.shr := rfl
@[simp] theorem State.pushBts_iaoqFront (e : BitVec 63) : (s.pushBts e).iaoqFront = s.iaoqFront := rfl
@[simp] theorem State.pushBts_iaoqBack (e : BitVec 63) : (s.pushBts e).iaoqBack = s.iaoqBack := rfl
@[simp] theorem State.pushBts_iasqFront (e : BitVec 63) : (s.pushBts e).iasqFront = s.iasqFront := rfl
@[simp] theorem State.pushBts_iasqBack (e : BitVec 63) : (s.pushBts e).iasqBack = s.iasqBack := rfl
@[simp] theorem State.pushBts_psw (e : BitVec 63) : (s.pushBts e).psw = s.psw := rfl
@[simp] theorem State.pushBts_rctr (e : BitVec 63) : (s.pushBts e).rctr = s.rctr := rfl
@[simp] theorem State.pushBts_pid12 (e : BitVec 63) : (s.pushBts e).pid12 = s.pid12 := rfl
@[simp] theorem State.pushBts_pid34 (e : BitVec 63) : (s.pushBts e).pid34 = s.pid34 := rfl
@[simp] theorem State.pushBts_pid56 (e : BitVec 63) : (s.pushBts e).pid56 = s.pid56 := rfl
@[simp] theorem State.pushBts_pid78 (e : BitVec 63) : (s.pushBts e).pid78 = s.pid78 := rfl
@[simp] theorem State.pushBts_scr (e : BitVec 63) : (s.pushBts e).scr = s.scr := rfl
@[simp] theorem State.pushBts_ccr (e : BitVec 63) : (s.pushBts e).ccr = s.ccr := rfl
@[simp] theorem State.pushBts_sar (e : BitVec 63) : (s.pushBts e).sar = s.sar := rfl
@[simp] theorem State.pushBts_iva (e : BitVec 63) : (s.pushBts e).iva = s.iva := rfl
@[simp] theorem State.pushBts_eiem (e : BitVec 63) : (s.pushBts e).eiem = s.eiem := rfl
@[simp] theorem State.pushBts_itmr (e : BitVec 63) : (s.pushBts e).itmr = s.itmr := rfl
@[simp] theorem State.pushBts_itmrCompare (e : BitVec 63) : (s.pushBts e).itmrCompare = s.itmrCompare := rfl
@[simp] theorem State.pushBts_iiasqFront (e : BitVec 63) : (s.pushBts e).iiasqFront = s.iiasqFront := rfl
@[simp] theorem State.pushBts_iiasqBack (e : BitVec 63) : (s.pushBts e).iiasqBack = s.iiasqBack := rfl
@[simp] theorem State.pushBts_iiaoqFront (e : BitVec 63) : (s.pushBts e).iiaoqFront = s.iiaoqFront := rfl
@[simp] theorem State.pushBts_iiaoqBack (e : BitVec 63) : (s.pushBts e).iiaoqBack = s.iiaoqBack := rfl
@[simp] theorem State.pushBts_iir (e : BitVec 63) : (s.pushBts e).iir = s.iir := rfl
@[simp] theorem State.pushBts_isr (e : BitVec 63) : (s.pushBts e).isr = s.isr := rfl
@[simp] theorem State.pushBts_ior (e : BitVec 63) : (s.pushBts e).ior = s.ior := rfl
@[simp] theorem State.pushBts_ipsw (e : BitVec 63) : (s.pushBts e).ipsw = s.ipsw := rfl
@[simp] theorem State.pushBts_eirr (e : BitVec 63) : (s.pushBts e).eirr = s.eirr := rfl
@[simp] theorem State.pushBts_tr (e : BitVec 63) : (s.pushBts e).tr = s.tr := rfl
@[simp] theorem State.pushBts_fpr (e : BitVec 63) : (s.pushBts e).fpr = s.fpr := rfl
@[simp] theorem State.pushBts_itlb (e : BitVec 63) : (s.pushBts e).itlb = s.itlb := rfl
@[simp] theorem State.pushBts_dtlb (e : BitVec 63) : (s.pushBts e).dtlb = s.dtlb := rfl
@[simp] theorem State.pushBts_defaultWidth (e : BitVec 63) : (s.pushBts e).defaultWidth = s.defaultWidth := rfl
@[simp] theorem State.pushBts_defaultEndian (e : BitVec 63) : (s.pushBts e).defaultEndian = s.defaultEndian := rfl
@[simp] theorem State.pushBts_hpmcPending (e : BitVec 63) : (s.pushBts e).hpmcPending = s.hpmcPending := rfl
@[simp] theorem State.pushBts_powerFailPending (e : BitVec 63) : (s.pushBts e).powerFailPending = s.powerFailPending := rfl
@[simp] theorem State.pushBts_lpmcPending (e : BitVec 63) : (s.pushBts e).lpmcPending = s.lpmcPending := rfl
@[simp] theorem State.pushBts_perfMonPending (e : BitVec 63) : (s.pushBts e).perfMonPending = s.perfMonPending := rfl
@[simp] theorem State.pushBts_measurementEnabled (e : BitVec 63) : (s.pushBts e).measurementEnabled = s.measurementEnabled := rfl
@[simp] theorem State.pushBts_bts (e : BitVec 63) : (s.pushBts e).bts = (e :: s.bts).take s.bts.length := rfl
@[simp] theorem State.pushBts_bnr (e : BitVec 63) : (s.pushBts e).bnr = s.bnr := rfl
@[simp] theorem State.pushBts_sfu (e : BitVec 63) : (s.pushBts e).sfu = s.sfu := rfl
@[simp] theorem State.pushBts_copr (e : BitVec 63) : (s.pushBts e).copr = s.copr := rfl
@[simp] theorem State.pushBts_cpr (e : BitVec 63) : (s.pushBts e).cpr = s.cpr := rfl
@[simp] theorem State.pushBts_mem (e : BitVec 63) : (s.pushBts e).mem = s.mem := rfl
@[simp] theorem State.pushBts_iword (e : BitVec 63) : (s.pushBts e).iword = s.iword := rfl
@[simp] theorem State.pushBts_freeCount (e : BitVec 63) : (s.pushBts e).freeCount = s.freeCount := rfl
@[simp] theorem State.pushBts_removals (e : BitVec 63) : (s.pushBts e).removals = s.removals := rfl
@[simp] theorem State.pushBts_relied (e : BitVec 63) : (s.pushBts e).relied = s.relied := rfl
@[simp] theorem State.pushBts_semaphores (e : BitVec 63) : (s.pushBts e).semaphores = s.semaphores := rfl
@[simp] theorem State.pushBts_fpQueue (e : BitVec 63) : (s.pushBts e).fpQueue = s.fpQueue := rfl
@[simp] theorem State.pushBts_fpArray (e : BitVec 63) : (s.pushBts e).fpArray = s.fpArray := rfl
@[simp] theorem State.pushBts_fpSequence (e : BitVec 63) : (s.pushBts e).fpSequence = s.fpSequence := rfl

/-! ### afterSfu -/

@[simp] theorem State.afterSfu_gr (c : Config.SfuCall) : (s.afterSfu c).gr = s.gr := rfl
@[simp] theorem State.afterSfu_sr (c : Config.SfuCall) : (s.afterSfu c).sr = s.sr := rfl
@[simp] theorem State.afterSfu_shr (c : Config.SfuCall) : (s.afterSfu c).shr = s.shr := rfl
@[simp] theorem State.afterSfu_iaoqFront (c : Config.SfuCall) : (s.afterSfu c).iaoqFront = s.iaoqFront := rfl
@[simp] theorem State.afterSfu_iaoqBack (c : Config.SfuCall) : (s.afterSfu c).iaoqBack = s.iaoqBack := rfl
@[simp] theorem State.afterSfu_iasqFront (c : Config.SfuCall) : (s.afterSfu c).iasqFront = s.iasqFront := rfl
@[simp] theorem State.afterSfu_iasqBack (c : Config.SfuCall) : (s.afterSfu c).iasqBack = s.iasqBack := rfl
@[simp] theorem State.afterSfu_psw (c : Config.SfuCall) : (s.afterSfu c).psw = s.psw := rfl
@[simp] theorem State.afterSfu_rctr (c : Config.SfuCall) : (s.afterSfu c).rctr = s.rctr := rfl
@[simp] theorem State.afterSfu_pid12 (c : Config.SfuCall) : (s.afterSfu c).pid12 = s.pid12 := rfl
@[simp] theorem State.afterSfu_pid34 (c : Config.SfuCall) : (s.afterSfu c).pid34 = s.pid34 := rfl
@[simp] theorem State.afterSfu_pid56 (c : Config.SfuCall) : (s.afterSfu c).pid56 = s.pid56 := rfl
@[simp] theorem State.afterSfu_pid78 (c : Config.SfuCall) : (s.afterSfu c).pid78 = s.pid78 := rfl
@[simp] theorem State.afterSfu_scr (c : Config.SfuCall) : (s.afterSfu c).scr = s.scr := rfl
@[simp] theorem State.afterSfu_ccr (c : Config.SfuCall) : (s.afterSfu c).ccr = s.ccr := rfl
@[simp] theorem State.afterSfu_sar (c : Config.SfuCall) : (s.afterSfu c).sar = s.sar := rfl
@[simp] theorem State.afterSfu_iva (c : Config.SfuCall) : (s.afterSfu c).iva = s.iva := rfl
@[simp] theorem State.afterSfu_eiem (c : Config.SfuCall) : (s.afterSfu c).eiem = s.eiem := rfl
@[simp] theorem State.afterSfu_itmr (c : Config.SfuCall) : (s.afterSfu c).itmr = s.itmr := rfl
@[simp] theorem State.afterSfu_itmrCompare (c : Config.SfuCall) : (s.afterSfu c).itmrCompare = s.itmrCompare := rfl
@[simp] theorem State.afterSfu_iiasqFront (c : Config.SfuCall) : (s.afterSfu c).iiasqFront = s.iiasqFront := rfl
@[simp] theorem State.afterSfu_iiasqBack (c : Config.SfuCall) : (s.afterSfu c).iiasqBack = s.iiasqBack := rfl
@[simp] theorem State.afterSfu_iiaoqFront (c : Config.SfuCall) : (s.afterSfu c).iiaoqFront = s.iiaoqFront := rfl
@[simp] theorem State.afterSfu_iiaoqBack (c : Config.SfuCall) : (s.afterSfu c).iiaoqBack = s.iiaoqBack := rfl
@[simp] theorem State.afterSfu_iir (c : Config.SfuCall) : (s.afterSfu c).iir = s.iir := rfl
@[simp] theorem State.afterSfu_isr (c : Config.SfuCall) : (s.afterSfu c).isr = s.isr := rfl
@[simp] theorem State.afterSfu_ior (c : Config.SfuCall) : (s.afterSfu c).ior = s.ior := rfl
@[simp] theorem State.afterSfu_ipsw (c : Config.SfuCall) : (s.afterSfu c).ipsw = s.ipsw := rfl
@[simp] theorem State.afterSfu_eirr (c : Config.SfuCall) : (s.afterSfu c).eirr = s.eirr := rfl
@[simp] theorem State.afterSfu_tr (c : Config.SfuCall) : (s.afterSfu c).tr = s.tr := rfl
@[simp] theorem State.afterSfu_fpr (c : Config.SfuCall) : (s.afterSfu c).fpr = s.fpr := rfl
@[simp] theorem State.afterSfu_itlb (c : Config.SfuCall) : (s.afterSfu c).itlb = s.itlb := rfl
@[simp] theorem State.afterSfu_dtlb (c : Config.SfuCall) : (s.afterSfu c).dtlb = s.dtlb := rfl
@[simp] theorem State.afterSfu_defaultWidth (c : Config.SfuCall) : (s.afterSfu c).defaultWidth = s.defaultWidth := rfl
@[simp] theorem State.afterSfu_defaultEndian (c : Config.SfuCall) : (s.afterSfu c).defaultEndian = s.defaultEndian := rfl
@[simp] theorem State.afterSfu_hpmcPending (c : Config.SfuCall) : (s.afterSfu c).hpmcPending = s.hpmcPending := rfl
@[simp] theorem State.afterSfu_powerFailPending (c : Config.SfuCall) : (s.afterSfu c).powerFailPending = s.powerFailPending := rfl
@[simp] theorem State.afterSfu_lpmcPending (c : Config.SfuCall) : (s.afterSfu c).lpmcPending = s.lpmcPending := rfl
@[simp] theorem State.afterSfu_perfMonPending (c : Config.SfuCall) : (s.afterSfu c).perfMonPending = s.perfMonPending := rfl
@[simp] theorem State.afterSfu_measurementEnabled (c : Config.SfuCall) : (s.afterSfu c).measurementEnabled = s.measurementEnabled := rfl
@[simp] theorem State.afterSfu_bts (c : Config.SfuCall) : (s.afterSfu c).bts = s.bts := rfl
@[simp] theorem State.afterSfu_bnr (c : Config.SfuCall) : (s.afterSfu c).bnr = s.bnr := rfl
@[simp] theorem State.afterSfu_copr (c : Config.SfuCall) : (s.afterSfu c).copr = s.copr := rfl
@[simp] theorem State.afterSfu_cpr (c : Config.SfuCall) : (s.afterSfu c).cpr = s.cpr := rfl
@[simp] theorem State.afterSfu_mem (c : Config.SfuCall) : (s.afterSfu c).mem = s.mem := rfl
@[simp] theorem State.afterSfu_iword (c : Config.SfuCall) : (s.afterSfu c).iword = s.iword := rfl
@[simp] theorem State.afterSfu_freeCount (c : Config.SfuCall) : (s.afterSfu c).freeCount = s.freeCount := rfl
@[simp] theorem State.afterSfu_removals (c : Config.SfuCall) : (s.afterSfu c).removals = s.removals := rfl
@[simp] theorem State.afterSfu_relied (c : Config.SfuCall) : (s.afterSfu c).relied = s.relied := rfl
@[simp] theorem State.afterSfu_semaphores (c : Config.SfuCall) : (s.afterSfu c).semaphores = s.semaphores := rfl
@[simp] theorem State.afterSfu_fpQueue (c : Config.SfuCall) : (s.afterSfu c).fpQueue = s.fpQueue := rfl
@[simp] theorem State.afterSfu_fpArray (c : Config.SfuCall) : (s.afterSfu c).fpArray = s.fpArray := rfl
@[simp] theorem State.afterSfu_fpSequence (c : Config.SfuCall) : (s.afterSfu c).fpSequence = s.fpSequence := rfl

/-! ### setCopr -/

@[simp] theorem State.setCopr_gr (unit : BitVec 3) (regs : Vector Dword 32) : (s.setCopr unit regs).gr = s.gr := rfl
@[simp] theorem State.setCopr_sr (unit : BitVec 3) (regs : Vector Dword 32) : (s.setCopr unit regs).sr = s.sr := rfl
@[simp] theorem State.setCopr_shr (unit : BitVec 3) (regs : Vector Dword 32) : (s.setCopr unit regs).shr = s.shr := rfl
@[simp] theorem State.setCopr_iaoqFront (unit : BitVec 3) (regs : Vector Dword 32) : (s.setCopr unit regs).iaoqFront = s.iaoqFront := rfl
@[simp] theorem State.setCopr_iaoqBack (unit : BitVec 3) (regs : Vector Dword 32) : (s.setCopr unit regs).iaoqBack = s.iaoqBack := rfl
@[simp] theorem State.setCopr_iasqFront (unit : BitVec 3) (regs : Vector Dword 32) : (s.setCopr unit regs).iasqFront = s.iasqFront := rfl
@[simp] theorem State.setCopr_iasqBack (unit : BitVec 3) (regs : Vector Dword 32) : (s.setCopr unit regs).iasqBack = s.iasqBack := rfl
@[simp] theorem State.setCopr_psw (unit : BitVec 3) (regs : Vector Dword 32) : (s.setCopr unit regs).psw = s.psw := rfl
@[simp] theorem State.setCopr_rctr (unit : BitVec 3) (regs : Vector Dword 32) : (s.setCopr unit regs).rctr = s.rctr := rfl
@[simp] theorem State.setCopr_pid12 (unit : BitVec 3) (regs : Vector Dword 32) : (s.setCopr unit regs).pid12 = s.pid12 := rfl
@[simp] theorem State.setCopr_pid34 (unit : BitVec 3) (regs : Vector Dword 32) : (s.setCopr unit regs).pid34 = s.pid34 := rfl
@[simp] theorem State.setCopr_pid56 (unit : BitVec 3) (regs : Vector Dword 32) : (s.setCopr unit regs).pid56 = s.pid56 := rfl
@[simp] theorem State.setCopr_pid78 (unit : BitVec 3) (regs : Vector Dword 32) : (s.setCopr unit regs).pid78 = s.pid78 := rfl
@[simp] theorem State.setCopr_scr (unit : BitVec 3) (regs : Vector Dword 32) : (s.setCopr unit regs).scr = s.scr := rfl
@[simp] theorem State.setCopr_ccr (unit : BitVec 3) (regs : Vector Dword 32) : (s.setCopr unit regs).ccr = s.ccr := rfl
@[simp] theorem State.setCopr_sar (unit : BitVec 3) (regs : Vector Dword 32) : (s.setCopr unit regs).sar = s.sar := rfl
@[simp] theorem State.setCopr_iva (unit : BitVec 3) (regs : Vector Dword 32) : (s.setCopr unit regs).iva = s.iva := rfl
@[simp] theorem State.setCopr_eiem (unit : BitVec 3) (regs : Vector Dword 32) : (s.setCopr unit regs).eiem = s.eiem := rfl
@[simp] theorem State.setCopr_itmr (unit : BitVec 3) (regs : Vector Dword 32) : (s.setCopr unit regs).itmr = s.itmr := rfl
@[simp] theorem State.setCopr_itmrCompare (unit : BitVec 3) (regs : Vector Dword 32) : (s.setCopr unit regs).itmrCompare = s.itmrCompare := rfl
@[simp] theorem State.setCopr_iiasqFront (unit : BitVec 3) (regs : Vector Dword 32) : (s.setCopr unit regs).iiasqFront = s.iiasqFront := rfl
@[simp] theorem State.setCopr_iiasqBack (unit : BitVec 3) (regs : Vector Dword 32) : (s.setCopr unit regs).iiasqBack = s.iiasqBack := rfl
@[simp] theorem State.setCopr_iiaoqFront (unit : BitVec 3) (regs : Vector Dword 32) : (s.setCopr unit regs).iiaoqFront = s.iiaoqFront := rfl
@[simp] theorem State.setCopr_iiaoqBack (unit : BitVec 3) (regs : Vector Dword 32) : (s.setCopr unit regs).iiaoqBack = s.iiaoqBack := rfl
@[simp] theorem State.setCopr_iir (unit : BitVec 3) (regs : Vector Dword 32) : (s.setCopr unit regs).iir = s.iir := rfl
@[simp] theorem State.setCopr_isr (unit : BitVec 3) (regs : Vector Dword 32) : (s.setCopr unit regs).isr = s.isr := rfl
@[simp] theorem State.setCopr_ior (unit : BitVec 3) (regs : Vector Dword 32) : (s.setCopr unit regs).ior = s.ior := rfl
@[simp] theorem State.setCopr_ipsw (unit : BitVec 3) (regs : Vector Dword 32) : (s.setCopr unit regs).ipsw = s.ipsw := rfl
@[simp] theorem State.setCopr_eirr (unit : BitVec 3) (regs : Vector Dword 32) : (s.setCopr unit regs).eirr = s.eirr := rfl
@[simp] theorem State.setCopr_tr (unit : BitVec 3) (regs : Vector Dword 32) : (s.setCopr unit regs).tr = s.tr := rfl
@[simp] theorem State.setCopr_fpr (unit : BitVec 3) (regs : Vector Dword 32) : (s.setCopr unit regs).fpr = s.fpr := rfl
@[simp] theorem State.setCopr_itlb (unit : BitVec 3) (regs : Vector Dword 32) : (s.setCopr unit regs).itlb = s.itlb := rfl
@[simp] theorem State.setCopr_dtlb (unit : BitVec 3) (regs : Vector Dword 32) : (s.setCopr unit regs).dtlb = s.dtlb := rfl
@[simp] theorem State.setCopr_defaultWidth (unit : BitVec 3) (regs : Vector Dword 32) : (s.setCopr unit regs).defaultWidth = s.defaultWidth := rfl
@[simp] theorem State.setCopr_defaultEndian (unit : BitVec 3) (regs : Vector Dword 32) : (s.setCopr unit regs).defaultEndian = s.defaultEndian := rfl
@[simp] theorem State.setCopr_hpmcPending (unit : BitVec 3) (regs : Vector Dword 32) : (s.setCopr unit regs).hpmcPending = s.hpmcPending := rfl
@[simp] theorem State.setCopr_powerFailPending (unit : BitVec 3) (regs : Vector Dword 32) : (s.setCopr unit regs).powerFailPending = s.powerFailPending := rfl
@[simp] theorem State.setCopr_lpmcPending (unit : BitVec 3) (regs : Vector Dword 32) : (s.setCopr unit regs).lpmcPending = s.lpmcPending := rfl
@[simp] theorem State.setCopr_perfMonPending (unit : BitVec 3) (regs : Vector Dword 32) : (s.setCopr unit regs).perfMonPending = s.perfMonPending := rfl
@[simp] theorem State.setCopr_measurementEnabled (unit : BitVec 3) (regs : Vector Dword 32) : (s.setCopr unit regs).measurementEnabled = s.measurementEnabled := rfl
@[simp] theorem State.setCopr_bts (unit : BitVec 3) (regs : Vector Dword 32) : (s.setCopr unit regs).bts = s.bts := rfl
@[simp] theorem State.setCopr_bnr (unit : BitVec 3) (regs : Vector Dword 32) : (s.setCopr unit regs).bnr = s.bnr := rfl
@[simp] theorem State.setCopr_sfu (unit : BitVec 3) (regs : Vector Dword 32) : (s.setCopr unit regs).sfu = s.sfu := rfl
@[simp] theorem State.setCopr_copr (unit : BitVec 3) (regs : Vector Dword 32) : (s.setCopr unit regs).copr = s.copr := rfl
@[simp] theorem State.setCopr_mem (unit : BitVec 3) (regs : Vector Dword 32) : (s.setCopr unit regs).mem = s.mem := rfl
@[simp] theorem State.setCopr_iword (unit : BitVec 3) (regs : Vector Dword 32) : (s.setCopr unit regs).iword = s.iword := rfl
@[simp] theorem State.setCopr_freeCount (unit : BitVec 3) (regs : Vector Dword 32) : (s.setCopr unit regs).freeCount = s.freeCount := rfl
@[simp] theorem State.setCopr_removals (unit : BitVec 3) (regs : Vector Dword 32) : (s.setCopr unit regs).removals = s.removals := rfl
@[simp] theorem State.setCopr_relied (unit : BitVec 3) (regs : Vector Dword 32) : (s.setCopr unit regs).relied = s.relied := rfl
@[simp] theorem State.setCopr_semaphores (unit : BitVec 3) (regs : Vector Dword 32) : (s.setCopr unit regs).semaphores = s.semaphores := rfl
@[simp] theorem State.setCopr_fpQueue (unit : BitVec 3) (regs : Vector Dword 32) : (s.setCopr unit regs).fpQueue = s.fpQueue := rfl
@[simp] theorem State.setCopr_fpArray (unit : BitVec 3) (regs : Vector Dword 32) : (s.setCopr unit regs).fpArray = s.fpArray := rfl
@[simp] theorem State.setCopr_fpSequence (unit : BitVec 3) (regs : Vector Dword 32) : (s.setCopr unit regs).fpSequence = s.fpSequence := rfl

/-! ### setCpr -/

@[simp] theorem State.setCpr_gr (unit : BitVec 3) (r : BitVec 5) (v : Dword) : (s.setCpr unit r v).gr = s.gr := rfl
@[simp] theorem State.setCpr_sr (unit : BitVec 3) (r : BitVec 5) (v : Dword) : (s.setCpr unit r v).sr = s.sr := rfl
@[simp] theorem State.setCpr_shr (unit : BitVec 3) (r : BitVec 5) (v : Dword) : (s.setCpr unit r v).shr = s.shr := rfl
@[simp] theorem State.setCpr_iaoqFront (unit : BitVec 3) (r : BitVec 5) (v : Dword) : (s.setCpr unit r v).iaoqFront = s.iaoqFront := rfl
@[simp] theorem State.setCpr_iaoqBack (unit : BitVec 3) (r : BitVec 5) (v : Dword) : (s.setCpr unit r v).iaoqBack = s.iaoqBack := rfl
@[simp] theorem State.setCpr_iasqFront (unit : BitVec 3) (r : BitVec 5) (v : Dword) : (s.setCpr unit r v).iasqFront = s.iasqFront := rfl
@[simp] theorem State.setCpr_iasqBack (unit : BitVec 3) (r : BitVec 5) (v : Dword) : (s.setCpr unit r v).iasqBack = s.iasqBack := rfl
@[simp] theorem State.setCpr_psw (unit : BitVec 3) (r : BitVec 5) (v : Dword) : (s.setCpr unit r v).psw = s.psw := rfl
@[simp] theorem State.setCpr_rctr (unit : BitVec 3) (r : BitVec 5) (v : Dword) : (s.setCpr unit r v).rctr = s.rctr := rfl
@[simp] theorem State.setCpr_pid12 (unit : BitVec 3) (r : BitVec 5) (v : Dword) : (s.setCpr unit r v).pid12 = s.pid12 := rfl
@[simp] theorem State.setCpr_pid34 (unit : BitVec 3) (r : BitVec 5) (v : Dword) : (s.setCpr unit r v).pid34 = s.pid34 := rfl
@[simp] theorem State.setCpr_pid56 (unit : BitVec 3) (r : BitVec 5) (v : Dword) : (s.setCpr unit r v).pid56 = s.pid56 := rfl
@[simp] theorem State.setCpr_pid78 (unit : BitVec 3) (r : BitVec 5) (v : Dword) : (s.setCpr unit r v).pid78 = s.pid78 := rfl
@[simp] theorem State.setCpr_scr (unit : BitVec 3) (r : BitVec 5) (v : Dword) : (s.setCpr unit r v).scr = s.scr := rfl
@[simp] theorem State.setCpr_ccr (unit : BitVec 3) (r : BitVec 5) (v : Dword) : (s.setCpr unit r v).ccr = s.ccr := rfl
@[simp] theorem State.setCpr_sar (unit : BitVec 3) (r : BitVec 5) (v : Dword) : (s.setCpr unit r v).sar = s.sar := rfl
@[simp] theorem State.setCpr_iva (unit : BitVec 3) (r : BitVec 5) (v : Dword) : (s.setCpr unit r v).iva = s.iva := rfl
@[simp] theorem State.setCpr_eiem (unit : BitVec 3) (r : BitVec 5) (v : Dword) : (s.setCpr unit r v).eiem = s.eiem := rfl
@[simp] theorem State.setCpr_itmr (unit : BitVec 3) (r : BitVec 5) (v : Dword) : (s.setCpr unit r v).itmr = s.itmr := rfl
@[simp] theorem State.setCpr_itmrCompare (unit : BitVec 3) (r : BitVec 5) (v : Dword) : (s.setCpr unit r v).itmrCompare = s.itmrCompare := rfl
@[simp] theorem State.setCpr_iiasqFront (unit : BitVec 3) (r : BitVec 5) (v : Dword) : (s.setCpr unit r v).iiasqFront = s.iiasqFront := rfl
@[simp] theorem State.setCpr_iiasqBack (unit : BitVec 3) (r : BitVec 5) (v : Dword) : (s.setCpr unit r v).iiasqBack = s.iiasqBack := rfl
@[simp] theorem State.setCpr_iiaoqFront (unit : BitVec 3) (r : BitVec 5) (v : Dword) : (s.setCpr unit r v).iiaoqFront = s.iiaoqFront := rfl
@[simp] theorem State.setCpr_iiaoqBack (unit : BitVec 3) (r : BitVec 5) (v : Dword) : (s.setCpr unit r v).iiaoqBack = s.iiaoqBack := rfl
@[simp] theorem State.setCpr_iir (unit : BitVec 3) (r : BitVec 5) (v : Dword) : (s.setCpr unit r v).iir = s.iir := rfl
@[simp] theorem State.setCpr_isr (unit : BitVec 3) (r : BitVec 5) (v : Dword) : (s.setCpr unit r v).isr = s.isr := rfl
@[simp] theorem State.setCpr_ior (unit : BitVec 3) (r : BitVec 5) (v : Dword) : (s.setCpr unit r v).ior = s.ior := rfl
@[simp] theorem State.setCpr_ipsw (unit : BitVec 3) (r : BitVec 5) (v : Dword) : (s.setCpr unit r v).ipsw = s.ipsw := rfl
@[simp] theorem State.setCpr_eirr (unit : BitVec 3) (r : BitVec 5) (v : Dword) : (s.setCpr unit r v).eirr = s.eirr := rfl
@[simp] theorem State.setCpr_tr (unit : BitVec 3) (r : BitVec 5) (v : Dword) : (s.setCpr unit r v).tr = s.tr := rfl
@[simp] theorem State.setCpr_fpr (unit : BitVec 3) (r : BitVec 5) (v : Dword) : (s.setCpr unit r v).fpr = s.fpr := rfl
@[simp] theorem State.setCpr_itlb (unit : BitVec 3) (r : BitVec 5) (v : Dword) : (s.setCpr unit r v).itlb = s.itlb := rfl
@[simp] theorem State.setCpr_dtlb (unit : BitVec 3) (r : BitVec 5) (v : Dword) : (s.setCpr unit r v).dtlb = s.dtlb := rfl
@[simp] theorem State.setCpr_defaultWidth (unit : BitVec 3) (r : BitVec 5) (v : Dword) : (s.setCpr unit r v).defaultWidth = s.defaultWidth := rfl
@[simp] theorem State.setCpr_defaultEndian (unit : BitVec 3) (r : BitVec 5) (v : Dword) : (s.setCpr unit r v).defaultEndian = s.defaultEndian := rfl
@[simp] theorem State.setCpr_hpmcPending (unit : BitVec 3) (r : BitVec 5) (v : Dword) : (s.setCpr unit r v).hpmcPending = s.hpmcPending := rfl
@[simp] theorem State.setCpr_powerFailPending (unit : BitVec 3) (r : BitVec 5) (v : Dword) : (s.setCpr unit r v).powerFailPending = s.powerFailPending := rfl
@[simp] theorem State.setCpr_lpmcPending (unit : BitVec 3) (r : BitVec 5) (v : Dword) : (s.setCpr unit r v).lpmcPending = s.lpmcPending := rfl
@[simp] theorem State.setCpr_perfMonPending (unit : BitVec 3) (r : BitVec 5) (v : Dword) : (s.setCpr unit r v).perfMonPending = s.perfMonPending := rfl
@[simp] theorem State.setCpr_measurementEnabled (unit : BitVec 3) (r : BitVec 5) (v : Dword) : (s.setCpr unit r v).measurementEnabled = s.measurementEnabled := rfl
@[simp] theorem State.setCpr_bts (unit : BitVec 3) (r : BitVec 5) (v : Dword) : (s.setCpr unit r v).bts = s.bts := rfl
@[simp] theorem State.setCpr_bnr (unit : BitVec 3) (r : BitVec 5) (v : Dword) : (s.setCpr unit r v).bnr = s.bnr := rfl
@[simp] theorem State.setCpr_sfu (unit : BitVec 3) (r : BitVec 5) (v : Dword) : (s.setCpr unit r v).sfu = s.sfu := rfl
@[simp] theorem State.setCpr_copr (unit : BitVec 3) (r : BitVec 5) (v : Dword) : (s.setCpr unit r v).copr = s.copr := rfl
@[simp] theorem State.setCpr_mem (unit : BitVec 3) (r : BitVec 5) (v : Dword) : (s.setCpr unit r v).mem = s.mem := rfl
@[simp] theorem State.setCpr_iword (unit : BitVec 3) (r : BitVec 5) (v : Dword) : (s.setCpr unit r v).iword = s.iword := rfl
@[simp] theorem State.setCpr_freeCount (unit : BitVec 3) (r : BitVec 5) (v : Dword) : (s.setCpr unit r v).freeCount = s.freeCount := rfl
@[simp] theorem State.setCpr_removals (unit : BitVec 3) (r : BitVec 5) (v : Dword) : (s.setCpr unit r v).removals = s.removals := rfl
@[simp] theorem State.setCpr_relied (unit : BitVec 3) (r : BitVec 5) (v : Dword) : (s.setCpr unit r v).relied = s.relied := rfl
@[simp] theorem State.setCpr_semaphores (unit : BitVec 3) (r : BitVec 5) (v : Dword) : (s.setCpr unit r v).semaphores = s.semaphores := rfl
@[simp] theorem State.setCpr_fpQueue (unit : BitVec 3) (r : BitVec 5) (v : Dword) : (s.setCpr unit r v).fpQueue = s.fpQueue := rfl
@[simp] theorem State.setCpr_fpArray (unit : BitVec 3) (r : BitVec 5) (v : Dword) : (s.setCpr unit r v).fpArray = s.fpArray := rfl
@[simp] theorem State.setCpr_fpSequence (unit : BitVec 3) (r : BitVec 5) (v : Dword) : (s.setCpr unit r v).fpSequence = s.fpSequence := rfl

/-! ### setFpTrap -/

@[simp] theorem State.setFpTrap_gr (v : Bool) : (s.setFpTrap v).gr = s.gr := rfl
@[simp] theorem State.setFpTrap_sr (v : Bool) : (s.setFpTrap v).sr = s.sr := rfl
@[simp] theorem State.setFpTrap_shr (v : Bool) : (s.setFpTrap v).shr = s.shr := rfl
@[simp] theorem State.setFpTrap_iaoqFront (v : Bool) : (s.setFpTrap v).iaoqFront = s.iaoqFront := rfl
@[simp] theorem State.setFpTrap_iaoqBack (v : Bool) : (s.setFpTrap v).iaoqBack = s.iaoqBack := rfl
@[simp] theorem State.setFpTrap_iasqFront (v : Bool) : (s.setFpTrap v).iasqFront = s.iasqFront := rfl
@[simp] theorem State.setFpTrap_iasqBack (v : Bool) : (s.setFpTrap v).iasqBack = s.iasqBack := rfl
@[simp] theorem State.setFpTrap_psw (v : Bool) : (s.setFpTrap v).psw = s.psw := rfl
@[simp] theorem State.setFpTrap_rctr (v : Bool) : (s.setFpTrap v).rctr = s.rctr := rfl
@[simp] theorem State.setFpTrap_pid12 (v : Bool) : (s.setFpTrap v).pid12 = s.pid12 := rfl
@[simp] theorem State.setFpTrap_pid34 (v : Bool) : (s.setFpTrap v).pid34 = s.pid34 := rfl
@[simp] theorem State.setFpTrap_pid56 (v : Bool) : (s.setFpTrap v).pid56 = s.pid56 := rfl
@[simp] theorem State.setFpTrap_pid78 (v : Bool) : (s.setFpTrap v).pid78 = s.pid78 := rfl
@[simp] theorem State.setFpTrap_scr (v : Bool) : (s.setFpTrap v).scr = s.scr := rfl
@[simp] theorem State.setFpTrap_ccr (v : Bool) : (s.setFpTrap v).ccr = s.ccr := rfl
@[simp] theorem State.setFpTrap_sar (v : Bool) : (s.setFpTrap v).sar = s.sar := rfl
@[simp] theorem State.setFpTrap_iva (v : Bool) : (s.setFpTrap v).iva = s.iva := rfl
@[simp] theorem State.setFpTrap_eiem (v : Bool) : (s.setFpTrap v).eiem = s.eiem := rfl
@[simp] theorem State.setFpTrap_itmr (v : Bool) : (s.setFpTrap v).itmr = s.itmr := rfl
@[simp] theorem State.setFpTrap_itmrCompare (v : Bool) : (s.setFpTrap v).itmrCompare = s.itmrCompare := rfl
@[simp] theorem State.setFpTrap_iiasqFront (v : Bool) : (s.setFpTrap v).iiasqFront = s.iiasqFront := rfl
@[simp] theorem State.setFpTrap_iiasqBack (v : Bool) : (s.setFpTrap v).iiasqBack = s.iiasqBack := rfl
@[simp] theorem State.setFpTrap_iiaoqFront (v : Bool) : (s.setFpTrap v).iiaoqFront = s.iiaoqFront := rfl
@[simp] theorem State.setFpTrap_iiaoqBack (v : Bool) : (s.setFpTrap v).iiaoqBack = s.iiaoqBack := rfl
@[simp] theorem State.setFpTrap_iir (v : Bool) : (s.setFpTrap v).iir = s.iir := rfl
@[simp] theorem State.setFpTrap_isr (v : Bool) : (s.setFpTrap v).isr = s.isr := rfl
@[simp] theorem State.setFpTrap_ior (v : Bool) : (s.setFpTrap v).ior = s.ior := rfl
@[simp] theorem State.setFpTrap_ipsw (v : Bool) : (s.setFpTrap v).ipsw = s.ipsw := rfl
@[simp] theorem State.setFpTrap_eirr (v : Bool) : (s.setFpTrap v).eirr = s.eirr := rfl
@[simp] theorem State.setFpTrap_tr (v : Bool) : (s.setFpTrap v).tr = s.tr := rfl
@[simp] theorem State.setFpTrap_itlb (v : Bool) : (s.setFpTrap v).itlb = s.itlb := rfl
@[simp] theorem State.setFpTrap_dtlb (v : Bool) : (s.setFpTrap v).dtlb = s.dtlb := rfl
@[simp] theorem State.setFpTrap_defaultWidth (v : Bool) : (s.setFpTrap v).defaultWidth = s.defaultWidth := rfl
@[simp] theorem State.setFpTrap_defaultEndian (v : Bool) : (s.setFpTrap v).defaultEndian = s.defaultEndian := rfl
@[simp] theorem State.setFpTrap_hpmcPending (v : Bool) : (s.setFpTrap v).hpmcPending = s.hpmcPending := rfl
@[simp] theorem State.setFpTrap_powerFailPending (v : Bool) : (s.setFpTrap v).powerFailPending = s.powerFailPending := rfl
@[simp] theorem State.setFpTrap_lpmcPending (v : Bool) : (s.setFpTrap v).lpmcPending = s.lpmcPending := rfl
@[simp] theorem State.setFpTrap_perfMonPending (v : Bool) : (s.setFpTrap v).perfMonPending = s.perfMonPending := rfl
@[simp] theorem State.setFpTrap_measurementEnabled (v : Bool) : (s.setFpTrap v).measurementEnabled = s.measurementEnabled := rfl
@[simp] theorem State.setFpTrap_bts (v : Bool) : (s.setFpTrap v).bts = s.bts := rfl
@[simp] theorem State.setFpTrap_bnr (v : Bool) : (s.setFpTrap v).bnr = s.bnr := rfl
@[simp] theorem State.setFpTrap_sfu (v : Bool) : (s.setFpTrap v).sfu = s.sfu := rfl
@[simp] theorem State.setFpTrap_copr (v : Bool) : (s.setFpTrap v).copr = s.copr := rfl
@[simp] theorem State.setFpTrap_cpr (v : Bool) : (s.setFpTrap v).cpr = s.cpr := rfl
@[simp] theorem State.setFpTrap_mem (v : Bool) : (s.setFpTrap v).mem = s.mem := rfl
@[simp] theorem State.setFpTrap_iword (v : Bool) : (s.setFpTrap v).iword = s.iword := rfl
@[simp] theorem State.setFpTrap_freeCount (v : Bool) : (s.setFpTrap v).freeCount = s.freeCount := rfl
@[simp] theorem State.setFpTrap_removals (v : Bool) : (s.setFpTrap v).removals = s.removals := rfl
@[simp] theorem State.setFpTrap_relied (v : Bool) : (s.setFpTrap v).relied = s.relied := rfl
@[simp] theorem State.setFpTrap_semaphores (v : Bool) : (s.setFpTrap v).semaphores = s.semaphores := rfl
@[simp] theorem State.setFpTrap_fpQueue (v : Bool) : (s.setFpTrap v).fpQueue = s.fpQueue := rfl
@[simp] theorem State.setFpTrap_fpArray (v : Bool) : (s.setFpTrap v).fpArray = s.fpArray := rfl
@[simp] theorem State.setFpTrap_fpSequence (v : Bool) : (s.setFpTrap v).fpSequence = s.fpSequence := rfl

/-! ### fpFlags -/

@[simp] theorem State.fpFlags_gr (x : BitVec 5) : (s.fpFlags x).gr = s.gr := rfl
@[simp] theorem State.fpFlags_sr (x : BitVec 5) : (s.fpFlags x).sr = s.sr := rfl
@[simp] theorem State.fpFlags_shr (x : BitVec 5) : (s.fpFlags x).shr = s.shr := rfl
@[simp] theorem State.fpFlags_iaoqFront (x : BitVec 5) : (s.fpFlags x).iaoqFront = s.iaoqFront := rfl
@[simp] theorem State.fpFlags_iaoqBack (x : BitVec 5) : (s.fpFlags x).iaoqBack = s.iaoqBack := rfl
@[simp] theorem State.fpFlags_iasqFront (x : BitVec 5) : (s.fpFlags x).iasqFront = s.iasqFront := rfl
@[simp] theorem State.fpFlags_iasqBack (x : BitVec 5) : (s.fpFlags x).iasqBack = s.iasqBack := rfl
@[simp] theorem State.fpFlags_psw (x : BitVec 5) : (s.fpFlags x).psw = s.psw := rfl
@[simp] theorem State.fpFlags_rctr (x : BitVec 5) : (s.fpFlags x).rctr = s.rctr := rfl
@[simp] theorem State.fpFlags_pid12 (x : BitVec 5) : (s.fpFlags x).pid12 = s.pid12 := rfl
@[simp] theorem State.fpFlags_pid34 (x : BitVec 5) : (s.fpFlags x).pid34 = s.pid34 := rfl
@[simp] theorem State.fpFlags_pid56 (x : BitVec 5) : (s.fpFlags x).pid56 = s.pid56 := rfl
@[simp] theorem State.fpFlags_pid78 (x : BitVec 5) : (s.fpFlags x).pid78 = s.pid78 := rfl
@[simp] theorem State.fpFlags_scr (x : BitVec 5) : (s.fpFlags x).scr = s.scr := rfl
@[simp] theorem State.fpFlags_ccr (x : BitVec 5) : (s.fpFlags x).ccr = s.ccr := rfl
@[simp] theorem State.fpFlags_sar (x : BitVec 5) : (s.fpFlags x).sar = s.sar := rfl
@[simp] theorem State.fpFlags_iva (x : BitVec 5) : (s.fpFlags x).iva = s.iva := rfl
@[simp] theorem State.fpFlags_eiem (x : BitVec 5) : (s.fpFlags x).eiem = s.eiem := rfl
@[simp] theorem State.fpFlags_itmr (x : BitVec 5) : (s.fpFlags x).itmr = s.itmr := rfl
@[simp] theorem State.fpFlags_itmrCompare (x : BitVec 5) : (s.fpFlags x).itmrCompare = s.itmrCompare := rfl
@[simp] theorem State.fpFlags_iiasqFront (x : BitVec 5) : (s.fpFlags x).iiasqFront = s.iiasqFront := rfl
@[simp] theorem State.fpFlags_iiasqBack (x : BitVec 5) : (s.fpFlags x).iiasqBack = s.iiasqBack := rfl
@[simp] theorem State.fpFlags_iiaoqFront (x : BitVec 5) : (s.fpFlags x).iiaoqFront = s.iiaoqFront := rfl
@[simp] theorem State.fpFlags_iiaoqBack (x : BitVec 5) : (s.fpFlags x).iiaoqBack = s.iiaoqBack := rfl
@[simp] theorem State.fpFlags_iir (x : BitVec 5) : (s.fpFlags x).iir = s.iir := rfl
@[simp] theorem State.fpFlags_isr (x : BitVec 5) : (s.fpFlags x).isr = s.isr := rfl
@[simp] theorem State.fpFlags_ior (x : BitVec 5) : (s.fpFlags x).ior = s.ior := rfl
@[simp] theorem State.fpFlags_ipsw (x : BitVec 5) : (s.fpFlags x).ipsw = s.ipsw := rfl
@[simp] theorem State.fpFlags_eirr (x : BitVec 5) : (s.fpFlags x).eirr = s.eirr := rfl
@[simp] theorem State.fpFlags_tr (x : BitVec 5) : (s.fpFlags x).tr = s.tr := rfl
@[simp] theorem State.fpFlags_itlb (x : BitVec 5) : (s.fpFlags x).itlb = s.itlb := rfl
@[simp] theorem State.fpFlags_dtlb (x : BitVec 5) : (s.fpFlags x).dtlb = s.dtlb := rfl
@[simp] theorem State.fpFlags_defaultWidth (x : BitVec 5) : (s.fpFlags x).defaultWidth = s.defaultWidth := rfl
@[simp] theorem State.fpFlags_defaultEndian (x : BitVec 5) : (s.fpFlags x).defaultEndian = s.defaultEndian := rfl
@[simp] theorem State.fpFlags_hpmcPending (x : BitVec 5) : (s.fpFlags x).hpmcPending = s.hpmcPending := rfl
@[simp] theorem State.fpFlags_powerFailPending (x : BitVec 5) : (s.fpFlags x).powerFailPending = s.powerFailPending := rfl
@[simp] theorem State.fpFlags_lpmcPending (x : BitVec 5) : (s.fpFlags x).lpmcPending = s.lpmcPending := rfl
@[simp] theorem State.fpFlags_perfMonPending (x : BitVec 5) : (s.fpFlags x).perfMonPending = s.perfMonPending := rfl
@[simp] theorem State.fpFlags_measurementEnabled (x : BitVec 5) : (s.fpFlags x).measurementEnabled = s.measurementEnabled := rfl
@[simp] theorem State.fpFlags_bts (x : BitVec 5) : (s.fpFlags x).bts = s.bts := rfl
@[simp] theorem State.fpFlags_bnr (x : BitVec 5) : (s.fpFlags x).bnr = s.bnr := rfl
@[simp] theorem State.fpFlags_sfu (x : BitVec 5) : (s.fpFlags x).sfu = s.sfu := rfl
@[simp] theorem State.fpFlags_copr (x : BitVec 5) : (s.fpFlags x).copr = s.copr := rfl
@[simp] theorem State.fpFlags_cpr (x : BitVec 5) : (s.fpFlags x).cpr = s.cpr := rfl
@[simp] theorem State.fpFlags_mem (x : BitVec 5) : (s.fpFlags x).mem = s.mem := rfl
@[simp] theorem State.fpFlags_iword (x : BitVec 5) : (s.fpFlags x).iword = s.iword := rfl
@[simp] theorem State.fpFlags_freeCount (x : BitVec 5) : (s.fpFlags x).freeCount = s.freeCount := rfl
@[simp] theorem State.fpFlags_removals (x : BitVec 5) : (s.fpFlags x).removals = s.removals := rfl
@[simp] theorem State.fpFlags_relied (x : BitVec 5) : (s.fpFlags x).relied = s.relied := rfl
@[simp] theorem State.fpFlags_semaphores (x : BitVec 5) : (s.fpFlags x).semaphores = s.semaphores := rfl
@[simp] theorem State.fpFlags_fpQueue (x : BitVec 5) : (s.fpFlags x).fpQueue = s.fpQueue := rfl
@[simp] theorem State.fpFlags_fpArray (x : BitVec 5) : (s.fpFlags x).fpArray = s.fpArray := rfl
@[simp] theorem State.fpFlags_fpSequence (x : BitVec 5) : (s.fpFlags x).fpSequence = s.fpSequence := rfl

/-! ### fpTrapped -/

@[simp] theorem State.fpTrapped_gr (code : BitVec 6) : (s.fpTrapped code).gr = s.gr := rfl
@[simp] theorem State.fpTrapped_sr (code : BitVec 6) : (s.fpTrapped code).sr = s.sr := rfl
@[simp] theorem State.fpTrapped_shr (code : BitVec 6) : (s.fpTrapped code).shr = s.shr := rfl
@[simp] theorem State.fpTrapped_iaoqFront (code : BitVec 6) : (s.fpTrapped code).iaoqFront = s.iaoqFront := rfl
@[simp] theorem State.fpTrapped_iaoqBack (code : BitVec 6) : (s.fpTrapped code).iaoqBack = s.iaoqBack := rfl
@[simp] theorem State.fpTrapped_iasqFront (code : BitVec 6) : (s.fpTrapped code).iasqFront = s.iasqFront := rfl
@[simp] theorem State.fpTrapped_iasqBack (code : BitVec 6) : (s.fpTrapped code).iasqBack = s.iasqBack := rfl
@[simp] theorem State.fpTrapped_psw (code : BitVec 6) : (s.fpTrapped code).psw = s.psw := rfl
@[simp] theorem State.fpTrapped_rctr (code : BitVec 6) : (s.fpTrapped code).rctr = s.rctr := rfl
@[simp] theorem State.fpTrapped_pid12 (code : BitVec 6) : (s.fpTrapped code).pid12 = s.pid12 := rfl
@[simp] theorem State.fpTrapped_pid34 (code : BitVec 6) : (s.fpTrapped code).pid34 = s.pid34 := rfl
@[simp] theorem State.fpTrapped_pid56 (code : BitVec 6) : (s.fpTrapped code).pid56 = s.pid56 := rfl
@[simp] theorem State.fpTrapped_pid78 (code : BitVec 6) : (s.fpTrapped code).pid78 = s.pid78 := rfl
@[simp] theorem State.fpTrapped_scr (code : BitVec 6) : (s.fpTrapped code).scr = s.scr := rfl
@[simp] theorem State.fpTrapped_ccr (code : BitVec 6) : (s.fpTrapped code).ccr = s.ccr := rfl
@[simp] theorem State.fpTrapped_sar (code : BitVec 6) : (s.fpTrapped code).sar = s.sar := rfl
@[simp] theorem State.fpTrapped_iva (code : BitVec 6) : (s.fpTrapped code).iva = s.iva := rfl
@[simp] theorem State.fpTrapped_eiem (code : BitVec 6) : (s.fpTrapped code).eiem = s.eiem := rfl
@[simp] theorem State.fpTrapped_itmr (code : BitVec 6) : (s.fpTrapped code).itmr = s.itmr := rfl
@[simp] theorem State.fpTrapped_itmrCompare (code : BitVec 6) : (s.fpTrapped code).itmrCompare = s.itmrCompare := rfl
@[simp] theorem State.fpTrapped_iiasqFront (code : BitVec 6) : (s.fpTrapped code).iiasqFront = s.iiasqFront := rfl
@[simp] theorem State.fpTrapped_iiasqBack (code : BitVec 6) : (s.fpTrapped code).iiasqBack = s.iiasqBack := rfl
@[simp] theorem State.fpTrapped_iiaoqFront (code : BitVec 6) : (s.fpTrapped code).iiaoqFront = s.iiaoqFront := rfl
@[simp] theorem State.fpTrapped_iiaoqBack (code : BitVec 6) : (s.fpTrapped code).iiaoqBack = s.iiaoqBack := rfl
@[simp] theorem State.fpTrapped_iir (code : BitVec 6) : (s.fpTrapped code).iir = s.iir := rfl
@[simp] theorem State.fpTrapped_isr (code : BitVec 6) : (s.fpTrapped code).isr = s.isr := rfl
@[simp] theorem State.fpTrapped_ior (code : BitVec 6) : (s.fpTrapped code).ior = s.ior := rfl
@[simp] theorem State.fpTrapped_ipsw (code : BitVec 6) : (s.fpTrapped code).ipsw = s.ipsw := rfl
@[simp] theorem State.fpTrapped_eirr (code : BitVec 6) : (s.fpTrapped code).eirr = s.eirr := rfl
@[simp] theorem State.fpTrapped_tr (code : BitVec 6) : (s.fpTrapped code).tr = s.tr := rfl
@[simp] theorem State.fpTrapped_itlb (code : BitVec 6) : (s.fpTrapped code).itlb = s.itlb := rfl
@[simp] theorem State.fpTrapped_dtlb (code : BitVec 6) : (s.fpTrapped code).dtlb = s.dtlb := rfl
@[simp] theorem State.fpTrapped_defaultWidth (code : BitVec 6) : (s.fpTrapped code).defaultWidth = s.defaultWidth := rfl
@[simp] theorem State.fpTrapped_defaultEndian (code : BitVec 6) : (s.fpTrapped code).defaultEndian = s.defaultEndian := rfl
@[simp] theorem State.fpTrapped_hpmcPending (code : BitVec 6) : (s.fpTrapped code).hpmcPending = s.hpmcPending := rfl
@[simp] theorem State.fpTrapped_powerFailPending (code : BitVec 6) : (s.fpTrapped code).powerFailPending = s.powerFailPending := rfl
@[simp] theorem State.fpTrapped_lpmcPending (code : BitVec 6) : (s.fpTrapped code).lpmcPending = s.lpmcPending := rfl
@[simp] theorem State.fpTrapped_perfMonPending (code : BitVec 6) : (s.fpTrapped code).perfMonPending = s.perfMonPending := rfl
@[simp] theorem State.fpTrapped_measurementEnabled (code : BitVec 6) : (s.fpTrapped code).measurementEnabled = s.measurementEnabled := rfl
@[simp] theorem State.fpTrapped_bts (code : BitVec 6) : (s.fpTrapped code).bts = s.bts := rfl
@[simp] theorem State.fpTrapped_bnr (code : BitVec 6) : (s.fpTrapped code).bnr = s.bnr := rfl
@[simp] theorem State.fpTrapped_sfu (code : BitVec 6) : (s.fpTrapped code).sfu = s.sfu := rfl
@[simp] theorem State.fpTrapped_copr (code : BitVec 6) : (s.fpTrapped code).copr = s.copr := rfl
@[simp] theorem State.fpTrapped_cpr (code : BitVec 6) : (s.fpTrapped code).cpr = s.cpr := rfl
@[simp] theorem State.fpTrapped_mem (code : BitVec 6) : (s.fpTrapped code).mem = s.mem := rfl
@[simp] theorem State.fpTrapped_iword (code : BitVec 6) : (s.fpTrapped code).iword = s.iword := rfl
@[simp] theorem State.fpTrapped_freeCount (code : BitVec 6) : (s.fpTrapped code).freeCount = s.freeCount := rfl
@[simp] theorem State.fpTrapped_removals (code : BitVec 6) : (s.fpTrapped code).removals = s.removals := rfl
@[simp] theorem State.fpTrapped_relied (code : BitVec 6) : (s.fpTrapped code).relied = s.relied := rfl
@[simp] theorem State.fpTrapped_semaphores (code : BitVec 6) : (s.fpTrapped code).semaphores = s.semaphores := rfl
@[simp] theorem State.fpTrapped_fpQueue (code : BitVec 6) : (s.fpTrapped code).fpQueue = s.fpQueue := rfl
@[simp] theorem State.fpTrapped_fpArray (code : BitVec 6) : (s.fpTrapped code).fpArray = s.fpArray := rfl
@[simp] theorem State.fpTrapped_fpSequence (code : BitVec 6) : (s.fpTrapped code).fpSequence = s.fpSequence := rfl

/-! ### fpDid -/

@[simp] theorem State.fpDid_gr (q : FpSequence) : (s.fpDid q).gr = s.gr := rfl
@[simp] theorem State.fpDid_sr (q : FpSequence) : (s.fpDid q).sr = s.sr := rfl
@[simp] theorem State.fpDid_shr (q : FpSequence) : (s.fpDid q).shr = s.shr := rfl
@[simp] theorem State.fpDid_iaoqFront (q : FpSequence) : (s.fpDid q).iaoqFront = s.iaoqFront := rfl
@[simp] theorem State.fpDid_iaoqBack (q : FpSequence) : (s.fpDid q).iaoqBack = s.iaoqBack := rfl
@[simp] theorem State.fpDid_iasqFront (q : FpSequence) : (s.fpDid q).iasqFront = s.iasqFront := rfl
@[simp] theorem State.fpDid_iasqBack (q : FpSequence) : (s.fpDid q).iasqBack = s.iasqBack := rfl
@[simp] theorem State.fpDid_psw (q : FpSequence) : (s.fpDid q).psw = s.psw := rfl
@[simp] theorem State.fpDid_rctr (q : FpSequence) : (s.fpDid q).rctr = s.rctr := rfl
@[simp] theorem State.fpDid_pid12 (q : FpSequence) : (s.fpDid q).pid12 = s.pid12 := rfl
@[simp] theorem State.fpDid_pid34 (q : FpSequence) : (s.fpDid q).pid34 = s.pid34 := rfl
@[simp] theorem State.fpDid_pid56 (q : FpSequence) : (s.fpDid q).pid56 = s.pid56 := rfl
@[simp] theorem State.fpDid_pid78 (q : FpSequence) : (s.fpDid q).pid78 = s.pid78 := rfl
@[simp] theorem State.fpDid_scr (q : FpSequence) : (s.fpDid q).scr = s.scr := rfl
@[simp] theorem State.fpDid_ccr (q : FpSequence) : (s.fpDid q).ccr = s.ccr := rfl
@[simp] theorem State.fpDid_sar (q : FpSequence) : (s.fpDid q).sar = s.sar := rfl
@[simp] theorem State.fpDid_iva (q : FpSequence) : (s.fpDid q).iva = s.iva := rfl
@[simp] theorem State.fpDid_eiem (q : FpSequence) : (s.fpDid q).eiem = s.eiem := rfl
@[simp] theorem State.fpDid_itmr (q : FpSequence) : (s.fpDid q).itmr = s.itmr := rfl
@[simp] theorem State.fpDid_itmrCompare (q : FpSequence) : (s.fpDid q).itmrCompare = s.itmrCompare := rfl
@[simp] theorem State.fpDid_iiasqFront (q : FpSequence) : (s.fpDid q).iiasqFront = s.iiasqFront := rfl
@[simp] theorem State.fpDid_iiasqBack (q : FpSequence) : (s.fpDid q).iiasqBack = s.iiasqBack := rfl
@[simp] theorem State.fpDid_iiaoqFront (q : FpSequence) : (s.fpDid q).iiaoqFront = s.iiaoqFront := rfl
@[simp] theorem State.fpDid_iiaoqBack (q : FpSequence) : (s.fpDid q).iiaoqBack = s.iiaoqBack := rfl
@[simp] theorem State.fpDid_iir (q : FpSequence) : (s.fpDid q).iir = s.iir := rfl
@[simp] theorem State.fpDid_isr (q : FpSequence) : (s.fpDid q).isr = s.isr := rfl
@[simp] theorem State.fpDid_ior (q : FpSequence) : (s.fpDid q).ior = s.ior := rfl
@[simp] theorem State.fpDid_ipsw (q : FpSequence) : (s.fpDid q).ipsw = s.ipsw := rfl
@[simp] theorem State.fpDid_eirr (q : FpSequence) : (s.fpDid q).eirr = s.eirr := rfl
@[simp] theorem State.fpDid_tr (q : FpSequence) : (s.fpDid q).tr = s.tr := rfl
@[simp] theorem State.fpDid_fpr (q : FpSequence) : (s.fpDid q).fpr = s.fpr := rfl
@[simp] theorem State.fpDid_itlb (q : FpSequence) : (s.fpDid q).itlb = s.itlb := rfl
@[simp] theorem State.fpDid_dtlb (q : FpSequence) : (s.fpDid q).dtlb = s.dtlb := rfl
@[simp] theorem State.fpDid_defaultWidth (q : FpSequence) : (s.fpDid q).defaultWidth = s.defaultWidth := rfl
@[simp] theorem State.fpDid_defaultEndian (q : FpSequence) : (s.fpDid q).defaultEndian = s.defaultEndian := rfl
@[simp] theorem State.fpDid_hpmcPending (q : FpSequence) : (s.fpDid q).hpmcPending = s.hpmcPending := rfl
@[simp] theorem State.fpDid_powerFailPending (q : FpSequence) : (s.fpDid q).powerFailPending = s.powerFailPending := rfl
@[simp] theorem State.fpDid_lpmcPending (q : FpSequence) : (s.fpDid q).lpmcPending = s.lpmcPending := rfl
@[simp] theorem State.fpDid_perfMonPending (q : FpSequence) : (s.fpDid q).perfMonPending = s.perfMonPending := rfl
@[simp] theorem State.fpDid_measurementEnabled (q : FpSequence) : (s.fpDid q).measurementEnabled = s.measurementEnabled := rfl
@[simp] theorem State.fpDid_bts (q : FpSequence) : (s.fpDid q).bts = s.bts := rfl
@[simp] theorem State.fpDid_bnr (q : FpSequence) : (s.fpDid q).bnr = s.bnr := rfl
@[simp] theorem State.fpDid_sfu (q : FpSequence) : (s.fpDid q).sfu = s.sfu := rfl
@[simp] theorem State.fpDid_copr (q : FpSequence) : (s.fpDid q).copr = s.copr := rfl
@[simp] theorem State.fpDid_cpr (q : FpSequence) : (s.fpDid q).cpr = s.cpr := rfl
@[simp] theorem State.fpDid_mem (q : FpSequence) : (s.fpDid q).mem = s.mem := rfl
@[simp] theorem State.fpDid_iword (q : FpSequence) : (s.fpDid q).iword = s.iword := rfl
@[simp] theorem State.fpDid_freeCount (q : FpSequence) : (s.fpDid q).freeCount = s.freeCount := rfl
@[simp] theorem State.fpDid_removals (q : FpSequence) : (s.fpDid q).removals = s.removals := rfl
@[simp] theorem State.fpDid_relied (q : FpSequence) : (s.fpDid q).relied = s.relied := rfl
@[simp] theorem State.fpDid_semaphores (q : FpSequence) : (s.fpDid q).semaphores = s.semaphores := rfl
@[simp] theorem State.fpDid_fpQueue (q : FpSequence) : (s.fpDid q).fpQueue = s.fpQueue := rfl
@[simp] theorem State.fpDid_fpArray (q : FpSequence) : (s.fpDid q).fpArray = s.fpArray := rfl

/-! ### fpLoaded -/

@[simp] theorem State.fpLoaded_gr (r : BitVec 5) (double : Bool) : (s.fpLoaded r double).gr = s.gr := by unfold State.fpLoaded; split <;> rfl
@[simp] theorem State.fpLoaded_sr (r : BitVec 5) (double : Bool) : (s.fpLoaded r double).sr = s.sr := by unfold State.fpLoaded; split <;> rfl
@[simp] theorem State.fpLoaded_shr (r : BitVec 5) (double : Bool) : (s.fpLoaded r double).shr = s.shr := by unfold State.fpLoaded; split <;> rfl
@[simp] theorem State.fpLoaded_iaoqFront (r : BitVec 5) (double : Bool) : (s.fpLoaded r double).iaoqFront = s.iaoqFront := by unfold State.fpLoaded; split <;> rfl
@[simp] theorem State.fpLoaded_iaoqBack (r : BitVec 5) (double : Bool) : (s.fpLoaded r double).iaoqBack = s.iaoqBack := by unfold State.fpLoaded; split <;> rfl
@[simp] theorem State.fpLoaded_iasqFront (r : BitVec 5) (double : Bool) : (s.fpLoaded r double).iasqFront = s.iasqFront := by unfold State.fpLoaded; split <;> rfl
@[simp] theorem State.fpLoaded_iasqBack (r : BitVec 5) (double : Bool) : (s.fpLoaded r double).iasqBack = s.iasqBack := by unfold State.fpLoaded; split <;> rfl
@[simp] theorem State.fpLoaded_psw (r : BitVec 5) (double : Bool) : (s.fpLoaded r double).psw = s.psw := by unfold State.fpLoaded; split <;> rfl
@[simp] theorem State.fpLoaded_rctr (r : BitVec 5) (double : Bool) : (s.fpLoaded r double).rctr = s.rctr := by unfold State.fpLoaded; split <;> rfl
@[simp] theorem State.fpLoaded_pid12 (r : BitVec 5) (double : Bool) : (s.fpLoaded r double).pid12 = s.pid12 := by unfold State.fpLoaded; split <;> rfl
@[simp] theorem State.fpLoaded_pid34 (r : BitVec 5) (double : Bool) : (s.fpLoaded r double).pid34 = s.pid34 := by unfold State.fpLoaded; split <;> rfl
@[simp] theorem State.fpLoaded_pid56 (r : BitVec 5) (double : Bool) : (s.fpLoaded r double).pid56 = s.pid56 := by unfold State.fpLoaded; split <;> rfl
@[simp] theorem State.fpLoaded_pid78 (r : BitVec 5) (double : Bool) : (s.fpLoaded r double).pid78 = s.pid78 := by unfold State.fpLoaded; split <;> rfl
@[simp] theorem State.fpLoaded_scr (r : BitVec 5) (double : Bool) : (s.fpLoaded r double).scr = s.scr := by unfold State.fpLoaded; split <;> rfl
@[simp] theorem State.fpLoaded_ccr (r : BitVec 5) (double : Bool) : (s.fpLoaded r double).ccr = s.ccr := by unfold State.fpLoaded; split <;> rfl
@[simp] theorem State.fpLoaded_sar (r : BitVec 5) (double : Bool) : (s.fpLoaded r double).sar = s.sar := by unfold State.fpLoaded; split <;> rfl
@[simp] theorem State.fpLoaded_iva (r : BitVec 5) (double : Bool) : (s.fpLoaded r double).iva = s.iva := by unfold State.fpLoaded; split <;> rfl
@[simp] theorem State.fpLoaded_eiem (r : BitVec 5) (double : Bool) : (s.fpLoaded r double).eiem = s.eiem := by unfold State.fpLoaded; split <;> rfl
@[simp] theorem State.fpLoaded_itmr (r : BitVec 5) (double : Bool) : (s.fpLoaded r double).itmr = s.itmr := by unfold State.fpLoaded; split <;> rfl
@[simp] theorem State.fpLoaded_itmrCompare (r : BitVec 5) (double : Bool) : (s.fpLoaded r double).itmrCompare = s.itmrCompare := by unfold State.fpLoaded; split <;> rfl
@[simp] theorem State.fpLoaded_iiasqFront (r : BitVec 5) (double : Bool) : (s.fpLoaded r double).iiasqFront = s.iiasqFront := by unfold State.fpLoaded; split <;> rfl
@[simp] theorem State.fpLoaded_iiasqBack (r : BitVec 5) (double : Bool) : (s.fpLoaded r double).iiasqBack = s.iiasqBack := by unfold State.fpLoaded; split <;> rfl
@[simp] theorem State.fpLoaded_iiaoqFront (r : BitVec 5) (double : Bool) : (s.fpLoaded r double).iiaoqFront = s.iiaoqFront := by unfold State.fpLoaded; split <;> rfl
@[simp] theorem State.fpLoaded_iiaoqBack (r : BitVec 5) (double : Bool) : (s.fpLoaded r double).iiaoqBack = s.iiaoqBack := by unfold State.fpLoaded; split <;> rfl
@[simp] theorem State.fpLoaded_iir (r : BitVec 5) (double : Bool) : (s.fpLoaded r double).iir = s.iir := by unfold State.fpLoaded; split <;> rfl
@[simp] theorem State.fpLoaded_isr (r : BitVec 5) (double : Bool) : (s.fpLoaded r double).isr = s.isr := by unfold State.fpLoaded; split <;> rfl
@[simp] theorem State.fpLoaded_ior (r : BitVec 5) (double : Bool) : (s.fpLoaded r double).ior = s.ior := by unfold State.fpLoaded; split <;> rfl
@[simp] theorem State.fpLoaded_ipsw (r : BitVec 5) (double : Bool) : (s.fpLoaded r double).ipsw = s.ipsw := by unfold State.fpLoaded; split <;> rfl
@[simp] theorem State.fpLoaded_eirr (r : BitVec 5) (double : Bool) : (s.fpLoaded r double).eirr = s.eirr := by unfold State.fpLoaded; split <;> rfl
@[simp] theorem State.fpLoaded_tr (r : BitVec 5) (double : Bool) : (s.fpLoaded r double).tr = s.tr := by unfold State.fpLoaded; split <;> rfl
@[simp] theorem State.fpLoaded_fpr (r : BitVec 5) (double : Bool) : (s.fpLoaded r double).fpr = s.fpr := by unfold State.fpLoaded; split <;> rfl
@[simp] theorem State.fpLoaded_itlb (r : BitVec 5) (double : Bool) : (s.fpLoaded r double).itlb = s.itlb := by unfold State.fpLoaded; split <;> rfl
@[simp] theorem State.fpLoaded_dtlb (r : BitVec 5) (double : Bool) : (s.fpLoaded r double).dtlb = s.dtlb := by unfold State.fpLoaded; split <;> rfl
@[simp] theorem State.fpLoaded_defaultWidth (r : BitVec 5) (double : Bool) : (s.fpLoaded r double).defaultWidth = s.defaultWidth := by unfold State.fpLoaded; split <;> rfl
@[simp] theorem State.fpLoaded_defaultEndian (r : BitVec 5) (double : Bool) : (s.fpLoaded r double).defaultEndian = s.defaultEndian := by unfold State.fpLoaded; split <;> rfl
@[simp] theorem State.fpLoaded_hpmcPending (r : BitVec 5) (double : Bool) : (s.fpLoaded r double).hpmcPending = s.hpmcPending := by unfold State.fpLoaded; split <;> rfl
@[simp] theorem State.fpLoaded_powerFailPending (r : BitVec 5) (double : Bool) : (s.fpLoaded r double).powerFailPending = s.powerFailPending := by unfold State.fpLoaded; split <;> rfl
@[simp] theorem State.fpLoaded_lpmcPending (r : BitVec 5) (double : Bool) : (s.fpLoaded r double).lpmcPending = s.lpmcPending := by unfold State.fpLoaded; split <;> rfl
@[simp] theorem State.fpLoaded_perfMonPending (r : BitVec 5) (double : Bool) : (s.fpLoaded r double).perfMonPending = s.perfMonPending := by unfold State.fpLoaded; split <;> rfl
@[simp] theorem State.fpLoaded_measurementEnabled (r : BitVec 5) (double : Bool) : (s.fpLoaded r double).measurementEnabled = s.measurementEnabled := by unfold State.fpLoaded; split <;> rfl
@[simp] theorem State.fpLoaded_bts (r : BitVec 5) (double : Bool) : (s.fpLoaded r double).bts = s.bts := by unfold State.fpLoaded; split <;> rfl
@[simp] theorem State.fpLoaded_bnr (r : BitVec 5) (double : Bool) : (s.fpLoaded r double).bnr = s.bnr := by unfold State.fpLoaded; split <;> rfl
@[simp] theorem State.fpLoaded_sfu (r : BitVec 5) (double : Bool) : (s.fpLoaded r double).sfu = s.sfu := by unfold State.fpLoaded; split <;> rfl
@[simp] theorem State.fpLoaded_copr (r : BitVec 5) (double : Bool) : (s.fpLoaded r double).copr = s.copr := by unfold State.fpLoaded; split <;> rfl
@[simp] theorem State.fpLoaded_cpr (r : BitVec 5) (double : Bool) : (s.fpLoaded r double).cpr = s.cpr := by unfold State.fpLoaded; split <;> rfl
@[simp] theorem State.fpLoaded_mem (r : BitVec 5) (double : Bool) : (s.fpLoaded r double).mem = s.mem := by unfold State.fpLoaded; split <;> rfl
@[simp] theorem State.fpLoaded_iword (r : BitVec 5) (double : Bool) : (s.fpLoaded r double).iword = s.iword := by unfold State.fpLoaded; split <;> rfl
@[simp] theorem State.fpLoaded_freeCount (r : BitVec 5) (double : Bool) : (s.fpLoaded r double).freeCount = s.freeCount := by unfold State.fpLoaded; split <;> rfl
@[simp] theorem State.fpLoaded_removals (r : BitVec 5) (double : Bool) : (s.fpLoaded r double).removals = s.removals := by unfold State.fpLoaded; split <;> rfl
@[simp] theorem State.fpLoaded_relied (r : BitVec 5) (double : Bool) : (s.fpLoaded r double).relied = s.relied := by unfold State.fpLoaded; split <;> rfl
@[simp] theorem State.fpLoaded_semaphores (r : BitVec 5) (double : Bool) : (s.fpLoaded r double).semaphores = s.semaphores := by unfold State.fpLoaded; split <;> rfl

/-! ### passTime -/

@[simp] theorem State.passTime_gr  : s.passTime.gr = s.gr := rfl
@[simp] theorem State.passTime_sr  : s.passTime.sr = s.sr := rfl
@[simp] theorem State.passTime_shr  : s.passTime.shr = s.shr := rfl
@[simp] theorem State.passTime_iaoqFront  : s.passTime.iaoqFront = s.iaoqFront := rfl
@[simp] theorem State.passTime_iaoqBack  : s.passTime.iaoqBack = s.iaoqBack := rfl
@[simp] theorem State.passTime_iasqFront  : s.passTime.iasqFront = s.iasqFront := rfl
@[simp] theorem State.passTime_iasqBack  : s.passTime.iasqBack = s.iasqBack := rfl
@[simp] theorem State.passTime_psw  : s.passTime.psw = s.psw := rfl
@[simp] theorem State.passTime_rctr  : s.passTime.rctr = s.rctr := rfl
@[simp] theorem State.passTime_pid12  : s.passTime.pid12 = s.pid12 := rfl
@[simp] theorem State.passTime_pid34  : s.passTime.pid34 = s.pid34 := rfl
@[simp] theorem State.passTime_pid56  : s.passTime.pid56 = s.pid56 := rfl
@[simp] theorem State.passTime_pid78  : s.passTime.pid78 = s.pid78 := rfl
@[simp] theorem State.passTime_scr  : s.passTime.scr = s.scr := rfl
@[simp] theorem State.passTime_ccr  : s.passTime.ccr = s.ccr := rfl
@[simp] theorem State.passTime_sar  : s.passTime.sar = s.sar := rfl
@[simp] theorem State.passTime_iva  : s.passTime.iva = s.iva := rfl
@[simp] theorem State.passTime_eiem  : s.passTime.eiem = s.eiem := rfl
@[simp] theorem State.passTime_itmr  : s.passTime.itmr = s.itmr := rfl
@[simp] theorem State.passTime_itmrCompare  : s.passTime.itmrCompare = s.itmrCompare := rfl
@[simp] theorem State.passTime_iiasqFront  : s.passTime.iiasqFront = s.iiasqFront := rfl
@[simp] theorem State.passTime_iiasqBack  : s.passTime.iiasqBack = s.iiasqBack := rfl
@[simp] theorem State.passTime_iiaoqFront  : s.passTime.iiaoqFront = s.iiaoqFront := rfl
@[simp] theorem State.passTime_iiaoqBack  : s.passTime.iiaoqBack = s.iiaoqBack := rfl
@[simp] theorem State.passTime_iir  : s.passTime.iir = s.iir := rfl
@[simp] theorem State.passTime_isr  : s.passTime.isr = s.isr := rfl
@[simp] theorem State.passTime_ior  : s.passTime.ior = s.ior := rfl
@[simp] theorem State.passTime_ipsw  : s.passTime.ipsw = s.ipsw := rfl
@[simp] theorem State.passTime_eirr  : s.passTime.eirr = s.eirr := rfl
@[simp] theorem State.passTime_tr  : s.passTime.tr = s.tr := rfl
@[simp] theorem State.passTime_fpr  : s.passTime.fpr = s.fpr := rfl
@[simp] theorem State.passTime_defaultWidth  : s.passTime.defaultWidth = s.defaultWidth := rfl
@[simp] theorem State.passTime_defaultEndian  : s.passTime.defaultEndian = s.defaultEndian := rfl
@[simp] theorem State.passTime_hpmcPending  : s.passTime.hpmcPending = s.hpmcPending := rfl
@[simp] theorem State.passTime_powerFailPending  : s.passTime.powerFailPending = s.powerFailPending := rfl
@[simp] theorem State.passTime_lpmcPending  : s.passTime.lpmcPending = s.lpmcPending := rfl
@[simp] theorem State.passTime_perfMonPending  : s.passTime.perfMonPending = s.perfMonPending := rfl
@[simp] theorem State.passTime_measurementEnabled  : s.passTime.measurementEnabled = s.measurementEnabled := rfl
@[simp] theorem State.passTime_bts  : s.passTime.bts = s.bts := rfl
@[simp] theorem State.passTime_bnr  : s.passTime.bnr = s.bnr := rfl
@[simp] theorem State.passTime_sfu  : s.passTime.sfu = s.sfu := rfl
@[simp] theorem State.passTime_copr  : s.passTime.copr = s.copr := rfl
@[simp] theorem State.passTime_cpr  : s.passTime.cpr = s.cpr := rfl
@[simp] theorem State.passTime_mem  : s.passTime.mem = s.mem := rfl
@[simp] theorem State.passTime_iword  : s.passTime.iword = s.iword := rfl
@[simp] theorem State.passTime_freeCount  : s.passTime.freeCount = s.freeCount := rfl
@[simp] theorem State.passTime_semaphores  : s.passTime.semaphores = s.semaphores := rfl
@[simp] theorem State.passTime_fpQueue  : s.passTime.fpQueue = s.fpQueue := rfl
@[simp] theorem State.passTime_fpArray  : s.passTime.fpArray = s.fpArray := rfl
@[simp] theorem State.passTime_fpSequence  : s.passTime.fpSequence = s.fpSequence := rfl

end Sys2Proof.Machine
end

