-- ==== Sys2Proof/Laws/Ops.lean ====
section
/-! SUPPORT. One lemma per shared operation that says everything it can do: how an instruction ends, registers, memory
references, interruptions. -/

namespace Sys2Proof.Machine

/-! ### The values of Config that masks are made of -/

@[simp] theorem Config_sidMask : Config.sidMask = BitVec.allOnes 64 := by decide
@[simp] theorem Config_paMask : Config.paMask = BitVec.allOnes 64 := by decide
@[simp] theorem Config_pidMask : Config.pidMask = BitVec.allOnes 64 := by decide
@[simp] theorem Config_coprocessorsPresent : Config.coprocessorsPresent = 0xE0#8 := by decide
@[simp] theorem Psw.defined_eq : Psw.defined = 0x000000FFCFFFFFFF#64 := by decide
@[simp] theorem Psw.systemMask_eq : Psw.systemMask = 0x000000000C0000FF#64 := by decide

/-! ### Registers -/

@[simp] theorem State.readGr_zero (s : State) : s.readGr 0#5 = 0 := rfl

@[simp] theorem State.writeGr_zero (s : State) (v : Dword) : s.writeGr 0#5 v = s := rfl

theorem State.readGr_writeGr (s : State) (r q : BitVec 5) (v : Dword) :
    (s.writeGr r v).readGr q = if q = r ∧ r ≠ 0#5 then v else s.readGr q := by
  unfold State.readGr State.writeGr
  by_cases hr : r = 0#5
  · simp [hr]
  · by_cases hq : q = 0#5
    · have h : ¬ (q = r) := fun h => hr (h ▸ hq)
      have h' : ¬ ((0#5 : BitVec 5) = r) := hq ▸ h
      simp [hr, hq, h']
    · have hne : r.toNat = q.toNat ↔ q = r := by rw [← BitVec.toNat_inj]; exact eq_comm
      simp only [hr, hq, if_false, Vector.getElem_set, hne, ne_eq, not_false_eq_true, and_true]

theorem State.readSr_writeSr (s : State) (r q : BitVec 3) (v : Dword) :
    (s.writeSr r v).readSr q = if q = r then v else s.readSr q := by
  have hne : r.toNat = q.toNat ↔ q = r := by rw [← BitVec.toNat_inj]; exact eq_comm
  simp only [State.readSr, State.writeSr, Vector.getElem_set, hne, Config_sidMask, BitVec.and_allOnes]

theorem State.readFpr_writeFpr (s : State) (r q : BitVec 5) (v : Dword) :
    (s.writeFpr r v).readFpr q = if q = r then v else s.readFpr q := by
  have hne : r.toNat = q.toNat ↔ q = r := by rw [← BitVec.toNat_inj]; exact eq_comm
  simp only [State.readFpr, State.writeFpr, Vector.getElem_set, hne]

/-! ### Status bits -/

/-- A bit of a doubleword with another bit set. -/
theorem bitAt_withBit (x : Dword) (i j : Nat) (v : Bool) (hj : j < 64) (hi : i < 64) :
    bitAt (withBit x j v) i = if i = j then v else bitAt x i := by
  have key : (bitMask j).getMsbD i = decide (i = j) := by
    simp only [bitMask, BitVec.getMsbD_shiftLeft]
    by_cases h : i = j
    · subst h; simp [BitVec.getMsbD]; omega
    · simp [BitVec.getMsbD, h]; omega
  unfold withBit bitAt
  split
  · simp only [BitVec.getMsbD_or, key]
    by_cases h : i = j <;> simp_all
  · simp only [BitVec.getMsbD_and, BitVec.getMsbD_not, key, hi, decide_true, Bool.true_and]
    by_cases h : i = j <;> simp_all

theorem State.flag_setFlag (s : State) (i j : Nat) (v : Bool) (hj : j < 64) (hi : i < 64) :
    (s.setFlag j v).flag i = if i = j then v else s.flag i := bitAt_withBit _ _ _ _ hj hi

/-! ### How an instruction ends -/

theorem flag_N (s : State) (fl : Flow) : (s.advance fl).flag Psw.N = fl.nullify := by
  simp [State.flag, State.advance, endPsw, bitAt_withBit, Psw.N, Psw.B]

theorem flag_B (s : State) (fl : Flow) : (s.advance fl).flag Psw.B = fl.taken := by
  simp [State.flag, State.advance, endPsw, bitAt_withBit, Psw.N, Psw.B]

/-- `tick` changes the interval timer and one request bit. -/
theorem tick_eq (s : State) : s.tick = { s with itmr := s.itmr + Config.timerRate, eirr := s.tick.eirr } := rfl

/-- The request that `tick` raises. -/
theorem tick_eirr (s : State) : s.tick.eirr =
    if s.itmr.extractLsb' 0 32 + 1#32 = s.itmrCompare then s.eirr ||| (if s.flag Psw.W then bitMask 0 else bitMask 32) else s.eirr := by
  have key : ∀ x y : BitVec 32, ((y - x != 0#32 && decide ((y - x).toNat ≤ Config.timerRate.toNat)) = true) ↔ x + 1#32 = y := by
    intro x y
    have h1 : Config.timerRate.toNat = 1 := rfl
    simp only [h1, Bool.and_eq_true, bne_iff_ne, ne_eq, decide_eq_true_eq]
    constructor
    · rintro ⟨h, h'⟩; bv_omega
    · rintro rfl
      have : x + 1#32 - x = 1#32 := by bv_omega
      rw [this]; decide
  simp only [State.tick, key]
  split
  · simp only [withBit, if_true]; split <;> rfl
  · rfl

theorem finish_plain {s t : State} {fl : Flow} (h : Plain s) (hf : fl.past = false) : finish s fl t = .next t := by
  obtain ⟨_, h2, h3, h4⟩ := h
  unfold State.flag at h2 h3 h4
  simp [finish, hf, groupFour, h2, h3, h4]

/-- The end of an instruction that does not leave its space: the group 4 trap that follows it, if any. -/
theorem finish_groupFour {s t : State} {fl : Flow} (hf : fl.past = false) :
    finish s fl t = .next (match groupFour s.psw s.priv fl.taken t with | some n => takeInterruption t n .none | none => t) := by
  simp only [finish, hf, Bool.false_eq_true, if_false]; split <;> simp_all

/-- An instruction whose new back element lies past the end of its space is undefined, whatever it did. -/
theorem finish_past {s t : State} {fl : Flow} (hf : fl.past = true) : finish s fl t = .refused .endOfSpace := by
  simp [finish, hf]

/-- A bit set under a mask that covers it. -/
theorem withBit_and_not (x m : Dword) (j : Nat) (v : Bool) (h : bitMask j &&& m = bitMask j) :
    withBit x j v &&& ~~~m = x &&& ~~~m := by
  have hb : ∀ i, i < 64 → (bitMask j).getLsbD i = true → m.getLsbD i = true := by
    intro i _ hj
    have := congrArg (fun z => z.getLsbD i) h
    simp only [BitVec.getLsbD_and, hj, Bool.true_and] at this
    exact this
  unfold withBit
  split <;> (apply BitVec.eq_of_getLsbD_eq; intro i hi; have := hb i hi; simp only [BitVec.getLsbD_and, BitVec.getLsbD_or, BitVec.getLsbD_not]; grind)

/-- N, B, X, Y and Z are all that the end of an instruction settles in the PSW. -/
theorem endPsw_eq (p : Dword) (fl : Flow) : endPsw p fl &&& ~~~statusBits = p &&& ~~~statusBits := by
  unfold endPsw
  rw [withBit_and_not _ _ _ _ (by decide), withBit_and_not _ _ _ _ (by decide), BitVec.and_assoc]
  congr 1

/-- What `retireState` does to the state an instruction's meaning leaves. -/
theorem retireState_ended {s d : State} {fl : Flow} (hb : d.iaoqBack = s.iaoqBack) (hs : d.iasqBack = s.iasqBack)
    (hr : d.rctr = s.rctr) (hi : d.itmr = s.itmr) :
    Ended s (retireState s ⟨d, fl⟩) fl.nullify fl.taken fl.offset fl.space ∧ AsIn d (retireState s ⟨d, fl⟩) ∧
      SameRequests d (retireState s ⟨d, fl⟩) ∧ SamePsw d (retireState s ⟨d, fl⟩) := by
  have e : retireState s ⟨d, fl⟩ =
      { d with
        psw := endPsw d.psw fl, iaoqFront := d.iaoqBack, iasqFront := d.iasqBack, iaoqBack := fl.offset, iasqBack := fl.space
        rctr := if s.flag Psw.R then d.rctr - 1 else d.rctr
        itmr := d.itmr + Config.timerRate
        eirr := (retireState s ⟨d, fl⟩).eirr } := by
    simp only [retireState, State.countDown]
    split <;> rfl
  refine ⟨?_, ?_, ?_, ?_⟩
  · constructor
    · rw [e]; exact hb
    · rw [e]; exact hs
    · rw [e]
    · rw [e]
    · rw [e]; exact flag_N d fl
    · rw [e]; exact flag_B d fl
    · rw [e]
      simp [State.flag, endPsw, bitAt_withBit, Psw.N, Psw.B, Psw.X, Psw.Y, Psw.Z]
      simp [bitAt, bitMask]
    · rw [e]; simp only [hr]
    · rw [e]; simp only [hi]
  · unfold AsIn; rw [e]
  · have ht : ∃ m : State, retireState s ⟨d, fl⟩ = m.tick ∧ m.eirr = d.eirr ∧ m.itmr = d.itmr ∧ m.itmrCompare = d.itmrCompare :=
      ⟨(d.advance fl).countDown (s.flag Psw.R), rfl, by simp, by simp, by simp⟩
    obtain ⟨m, hm, h1, h2, h3⟩ := ht
    unfold SameRequests
    rw [hm, tick_eirr, h1, h2, h3]
    rfl
  · unfold SamePsw; rw [e]; exact endPsw_eq _ _

/-- An instruction whose meaning is `done`. -/
theorem completes_of_done {i : Instr} {s d : State} {n : Bool} (hp : Plain s) (hx : exec i s = complete s (done s d n))
    (hb : d.iaoqBack = s.iaoqBack) (hs : d.iasqBack = s.iasqBack) (hr : d.rctr = s.rctr) (hi : d.itmr = s.itmr) :
    Completes i s d n :=
  ⟨retireState s ⟨d, s.sequential n⟩, by rw [hx]; exact finish_plain hp hp.1, retireState_ended hb hs hr hi⟩

/-- An instruction whose meaning is a taken branch. -/
theorem branchesTo_of_done {i : Instr} {s d : State} {n : Bool} {o sp : Dword} (hp : Plain s)
    (hx : exec i s = complete s (.ok ⟨d, ⟨true, n, o, sp, false⟩⟩))
    (hb : d.iaoqBack = s.iaoqBack) (hs : d.iasqBack = s.iasqBack) (hr : d.rctr = s.rctr) (hi : d.itmr = s.itmr) :
    BranchesTo i s d n o sp :=
  ⟨retireState s ⟨d, ⟨true, n, o, sp, false⟩⟩, by rw [hx]; exact finish_plain hp rfl, retireState_ended hb hs hr hi⟩

theorem traps_of_error {i : Instr} {s : State} {n : Interruption} {p : Params} (hx : exec i s = complete s (.error (.trap n p))) :
    Traps i s n p := hx

/-- Every outcome of `complete` that is a next state. -/
theorem complete_next {s t : State} {r : Res Done} (h : complete s r = .next t) :
    (∃ n p, r = .error (.trap n p) ∧ t = takeInterruption s n p) ∨
    (∃ d, r = .ok d ∧ (t = retireState s d ∨ ∃ n, t = takeInterruption (retireState s d) n .none)) := by
  unfold complete at h
  split at h
  · rename_i d
    right
    refine ⟨d, rfl, ?_⟩
    unfold finish at h
    split at h
    · cases h
    · split at h
      · rename_i n _; injection h with h; exact .inr ⟨n, h.symm⟩
      · injection h with h; exact .inl h.symm
  · rename_i n p; injection h with h; exact .inl ⟨n, p, rfl, h.symm⟩
  · cases h
  · cases h

/-! ### Memory references -/

theorem loadAt_memory {s : State} {pa : Dword} {n : Nat} (h : region pa = .memory) :
    s.loadAt pa n = .ok (s.mem.load (s.flag Psw.E) pa.toNat n) := by
  simp only [State.loadAt, inMemory, h, Config_paMask, BitVec.and_allOnes]; rfl

theorem storeAt_memory {s : State} {pa : Dword} {n : Nat} {v : Dword} (h : region pa = .memory) :
    s.storeAt pa n v = .ok { s with mem := s.mem.store (s.flag Psw.E) pa.toNat n v } := by
  simp only [State.storeAt, inMemory, h, Config_paMask, BitVec.and_allOnes]; rfl

theorem memLoad_reaches {s : State} {e : Ea} {n pa : Nat} (h : Reaches s .load e n pa) :
    ∃ a, e.resolve s = .ok a ∧ s.memLoad a n = .ok (s.mem.load (s.flag Psw.E) pa n) := by
  obtain ⟨a, p, h1, h2, h3, h4⟩ := h
  refine ⟨a, h1, ?_⟩
  simp only [State.memLoad, h2]
  rw [← h4]; exact loadAt_memory h3

theorem memStore_reaches {s : State} {e : Ea} {n pa : Nat} {v : Dword} (h : Reaches s .store e n pa) :
    ∃ a, e.resolve s = .ok a ∧ s.memStore a n v = .ok { s with mem := s.mem.store (s.flag Psw.E) pa n v } := by
  obtain ⟨a, p, h1, h2, h3, h4⟩ := h
  refine ⟨a, h1, ?_⟩
  simp only [State.memStore, h2]
  rw [← h4]; exact storeAt_memory h3

/-- What the write-back of a base register leaves alone. -/
theorem writeBack_eq (e : Ea) (s : State) : e.writeBack s = { s with gr := (e.writeBack s).gr } := by
  unfold Ea.writeBack
  split
  · rfl
  · unfold State.writeGr; split <;> rfl

@[simp] theorem writeBack_mem (e : Ea) (s : State) : (e.writeBack s).mem = s.mem := by rw [writeBack_eq]
@[simp] theorem writeBack_iaoqBack (e : Ea) (s : State) : (e.writeBack s).iaoqBack = s.iaoqBack := by rw [writeBack_eq]
@[simp] theorem writeBack_iasqBack (e : Ea) (s : State) : (e.writeBack s).iasqBack = s.iasqBack := by rw [writeBack_eq]
@[simp] theorem writeBack_rctr (e : Ea) (s : State) : (e.writeBack s).rctr = s.rctr := by rw [writeBack_eq]
@[simp] theorem writeBack_itmr (e : Ea) (s : State) : (e.writeBack s).itmr = s.itmr := by rw [writeBack_eq]
@[simp] theorem writeBack_psw (e : Ea) (s : State) : (e.writeBack s).psw = s.psw := by rw [writeBack_eq]
@[simp] theorem writeBack_eirr (e : Ea) (s : State) : (e.writeBack s).eirr = s.eirr := by rw [writeBack_eq]

/-- Writing memory and writing back the base register do not meet. -/
theorem writeBack_mem_comm (e : Ea) (s : State) (m : Memory) :
    e.writeBack { s with mem := m } = { e.writeBack s with mem := m } := by
  unfold Ea.writeBack
  split
  · rfl
  · unfold State.writeGr; split <;> rfl

/-! ### Between steps -/

/-- The hardware's removals only drop entries of the TLBs. -/
theorem removeEntries_sublist (now : List Removal) (i : Bool) (kept : Option (BitVec 96)) (tlb : List TlbEntry) :
    (removeEntries now i kept tlb).Sublist tlb :=
  List.filter_sublist

@[simp] theorem removeEntries_nil (i : Bool) (kept : Option (BitVec 96)) (tlb : List TlbEntry) : removeEntries [] i kept tlb = tlb := by
  simp [removeEntries]

/-- The entry of a translation relied upon stays whatever removals come. -/
theorem mem_removeEntries_kept {now : List Removal} {i : Bool} {g : BitVec 96} {tlb : List TlbEntry} {e : TlbEntry} (he : e ∈ tlb)
    (hg : e.covers g = true) : e ∈ removeEntries now i (some g) tlb := by
  simp [removeEntries, he, hg]

/-- Without a removal that comes, only what may be relied upon changes. -/
theorem passTime_quiet {s : State} (h : s.removals = []) : s.passTime = { s with relied := s.passTime.relied } := by
  simp only [State.passTime, h, List.headD_nil, removeEntries_nil, List.tail_nil]

/-- Noting a semaphore's hint changes nothing else. -/
theorem noteSemaphore_ok {s t : State} {pa : Dword} {cc : BitVec 2} (h : s.noteSemaphore pa cc = .ok t) :
    t = { s with semaphores := t.semaphores } ∧ t.semaphores.lookup pa.toNat = some (semaphoreHint cc) := by
  unfold State.noteSemaphore at h
  split at h
  · injection h with h; subst h; simp
  · rename_i c hc
    split at h
    · injection h with h; subst h; simp_all
    · cases h

/-! ### Interruptions -/

/-- What every interruption installs. -/
theorem takeInterruption_queue (s : State) (n : Interruption) (p : Params) :
    (takeInterruption s n p).ipsw = s.psw ∧ (takeInterruption s n p).psw = s.interruptionPsw n ∧
    (takeInterruption s n p).iaoqFront = s.vector n ∧ (takeInterruption s n p).iaoqBack = s.vector n + 4 ∧
    (takeInterruption s n p).iasqFront = 0 ∧ (takeInterruption s n p).iasqBack = 0 := ⟨rfl, rfl, rfl, rfl, rfl, rfl⟩

/-- Loading the parameters changes IIR, ISR, IOR and the count of free values. -/
theorem loadParams_eq (s : State) (p : Params) : s.loadParams p =
    { s with iir := (s.loadParams p).iir, isr := (s.loadParams p).isr, ior := (s.loadParams p).ior,
             freeCount := (s.loadParams p).freeCount } := by
  cases p with
  | data a =>
    simp only [State.loadParams]
    by_cases h : s.flag Psw.D = true
    · simp only [h, if_true]
    · simp only [h]; rfl
  | _ => rfl

/-- What an interruption leaves alone. -/
theorem takeInterruption_frame (s : State) (n : Interruption) (p : Params) :
    takeInterruption s n p =
      { s with
        psw := (takeInterruption s n p).psw, ipsw := (takeInterruption s n p).ipsw
        iaoqFront := (takeInterruption s n p).iaoqFront, iaoqBack := (takeInterruption s n p).iaoqBack
        iasqFront := (takeInterruption s n p).iasqFront, iasqBack := (takeInterruption s n p).iasqBack
        iiasqFront := (takeInterruption s n p).iiasqFront, iiasqBack := (takeInterruption s n p).iiasqBack
        iiaoqFront := (takeInterruption s n p).iiaoqFront, iiaoqBack := (takeInterruption s n p).iiaoqBack
        iir := (takeInterruption s n p).iir, isr := (takeInterruption s n p).isr, ior := (takeInterruption s n p).ior
        shr := (takeInterruption s n p).shr, freeCount := (takeInterruption s n p).freeCount, relied := s.reliedAfter n p } := by
  unfold takeInterruption State.collect
  split
  · split
    · simp only [State.loadShadow]; rw [loadParams_eq]; rfl
    · simp only [State.loadShadow]; rw [loadParams_eq]; rfl
  · rfl

/-- With PSW[Q] = 1 the parameter registers are those that `loadParams` leaves, in the state whose queues are saved. -/
theorem takeInterruption_params {s : State} {n : Interruption} {p : Params} (hq : s.flag Psw.Q = true) (hn : n ≠ .highPriorityMachineCheck) :
    (takeInterruption s n p).iir = (s.collectQueues.loadParams p).iir ∧ (takeInterruption s n p).isr = (s.collectQueues.loadParams p).isr ∧
    (takeInterruption s n p).ior = (s.collectQueues.loadParams p).ior ∧
    (takeInterruption s n p).freeCount = (s.collectQueues.loadParams p).freeCount := by
  simp only [takeInterruption, State.collect, hq, if_neg hn, if_true]; exact ⟨rfl, rfl, rfl, rfl⟩

end Sys2Proof.Machine
end

