-- ==== Sys2Proof/Laws/FloatingPoint.lean ====
section
/-! SUPPORT. What the shared floating-point forms can do: the gate, an operation with a destination, a load, a store. -/

namespace Sys2Proof.Machine

/-- A ready coprocessor passes the gate. -/
theorem fpGate_ready {s : State} (h : FpReady s) : s.fpGate = .ok () := by
  obtain ⟨h0, h1, h2, h3, h4⟩ := h
  simp [State.fpGate, State.fpMixed, State.fpOff, State.fpAfterFid, h0, h1, h2, h3, h4]
  rfl

/-- What the specifier rules say of an operand that is no quad. -/
theorem fpShape_eq {r : FpReg} (hq : r.size ≠ .quad) :
    r.shape = if r.size ≠ .single ∧ r.h = 1#1 then .error (.refuse .fpExtensionBit) else .ok () := by
  simp [FpReg.shape, hq]

theorem fpSource_eq {r : FpReg} (hq : r.size ≠ .quad) :
    r.source = if r.n ≠ 0#5 ∧ r.n.toNat < 4 then .error (.refuse .fpRegister) else r.shape := by
  simp [FpReg.source, hq]

theorem fpSource_ok {r : FpReg} (h : FpSource r) (hq : r.size ≠ .quad) : r.source = .ok () := by
  obtain ⟨h1, h2⟩ := h
  rw [fpSource_eq hq, fpShape_eq hq, if_neg, if_neg]
  · rintro ⟨a, b⟩; rcases h2 with h | h
    · exact a h
    · rw [h] at b; cases b
  · rintro ⟨a, b⟩; rcases h1 with h | h
    · exact a h
    · omega

theorem fpDestination_ok {r : FpReg} (h : FpDestination r) (hq : r.size ≠ .quad) : r.destination = .ok () := by
  obtain ⟨h1, h2⟩ := h
  rw [FpReg.destination, fpShape_eq hq, if_neg (by omega), if_neg]
  rintro ⟨a, b⟩; rcases h2 with h | h
  · exact a h
  · rw [h] at b; cases b

theorem sources_ok : ∀ srcs : List FpReg, (∀ x ∈ srcs, FpSource x) → (∀ x ∈ srcs, x.size ≠ .quad) →
    (srcs.forM FpReg.source : Res Unit) = .ok ()
  | [], _, _ => rfl
  | r :: t, h, hq => by
    simp only [List.forM, fpSource_ok (h r (by simp)) (hq r (by simp))]
    exact sources_ok t (fun x hx => h x (by simp [hx])) (fun x hx => hq x (by simp [hx]))

/-- The sources pass, or the first that is undefined refuses. -/
theorem sources_cases : ∀ srcs : List FpReg, (∀ x ∈ srcs, x.size ≠ .quad) →
    ((srcs.forM FpReg.source : Res Unit) = .ok () ∧ ¬(∃ x ∈ srcs, x.n ≠ 0#5 ∧ x.n.toNat < 4) ∧ ¬∃ x ∈ srcs, x.size ≠ .single ∧ x.h = 1#1) ∨
    ((srcs.forM FpReg.source : Res Unit) = .error (.refuse .fpRegister) ∧ ∃ x ∈ srcs, x.n ≠ 0#5 ∧ x.n.toNat < 4) ∨
    ((srcs.forM FpReg.source : Res Unit) = .error (.refuse .fpExtensionBit) ∧ ∃ x ∈ srcs, x.size ≠ .single ∧ x.h = 1#1)
  | [], _ => .inl ⟨rfl, by simp, by simp⟩
  | r :: t, hq => by
    have e := fpSource_eq (hq r List.mem_cons_self)
    rw [fpShape_eq (hq r List.mem_cons_self)] at e
    by_cases hn : r.n ≠ 0#5 ∧ r.n.toNat < 4
    · refine .inr (.inl ⟨?_, r, List.mem_cons_self, hn⟩)
      rw [if_pos hn] at e; simp only [List.forM, e]; rfl
    · rw [if_neg hn] at e
      by_cases hb : r.size ≠ .single ∧ r.h = 1#1
      · refine .inr (.inr ⟨?_, r, List.mem_cons_self, hb⟩)
        rw [if_pos hb] at e; simp only [List.forM, e]; rfl
      · rw [if_neg hb] at e
        have e' : ((r :: t).forM FpReg.source : Res Unit) = t.forM FpReg.source := by simp only [List.forM, e]; rfl
        rw [e']
        rcases sources_cases t (fun x hx => hq x (List.mem_cons_of_mem _ hx)) with ⟨h, h1, h2⟩ | ⟨h, x, hx, h1⟩ | ⟨h, x, hx, h1⟩
        · exact .inl ⟨h, by rw [List.exists_mem_cons_iff]; exact not_or.2 ⟨hn, h1⟩, by rw [List.exists_mem_cons_iff]; exact not_or.2 ⟨hb, h2⟩⟩
        · exact .inr (.inl ⟨h, x, List.mem_cons_of_mem _ hx, h1⟩)
        · exact .inr (.inr ⟨h, x, List.mem_cons_of_mem _ hx, h1⟩)

/-! ### What a write of the floating-point registers leaves alone -/

theorem fpWrite_eq (s : State) (r : FpReg) (v : Nat) : s.fpWrite r v = { s with fpr := (s.fpWrite r v).fpr } := by
  unfold State.fpWrite; split <;> rfl

theorem fpKeep_eq (s old : State) (r : FpReg) : s.fpKeep old r = { s with fpr := (s.fpKeep old r).fpr } := by
  unfold State.fpKeep; split
  · rfl
  · exact fpWrite_eq _ _ _

theorem foldl_fpKeep_eq (old : State) : ∀ (l : List FpReg) (t : State),
    l.foldl (fun t r => t.fpKeep old r) t = { t with fpr := (l.foldl (fun t r => t.fpKeep old r) t).fpr }
  | [], _ => rfl
  | r :: l, t => by
    rw [List.foldl_cons, foldl_fpKeep_eq old l]
    rw [fpKeep_eq]

theorem fpLose_eq (s : State) (d : FpReg) (srcs : List FpReg) :
    s.fpLose d srcs = { s with fpr := (s.fpLose d srcs).fpr, freeCount := (s.fpLose d srcs).freeCount } := by
  unfold State.fpLose
  split
  · rfl
  · rw [foldl_fpKeep_eq, fpWrite_eq]; rfl

/-- A delivery changes the floating-point registers and may draw free values. -/
theorem fpDeliver_eq (s : State) (code : BitVec 6) (d : FpReg) (srcs : List FpReg) (r : Delivery) :
    s.fpDeliver code d srcs r =
      { s with fpr := (s.fpDeliver code d srcs r).fpr, freeCount := (s.fpDeliver code d srcs r).freeCount } := by
  unfold State.fpDeliver
  split
  · rw [fpWrite_eq]; rfl
  · rw [fpWrite_eq]; rfl
  · rw [fpLose_eq]; rfl
  · rw [fpLose_eq]; rfl

/-- What every operation with a destination does on a ready coprocessor. -/
theorem fpCompletes_of_operation {i : Instr} {s : State} {code : BitVec 6} {d : FpReg} {srcs : List FpReg} {r : Delivery}
    (hp : Plain s) (hr : FpReady s) (hx : exec i s = complete s (s.fpOperation code d srcs r)) : FpCompletes i s code d srcs r := by
  have toHardware (hq : ∀ x ∈ d :: srcs, x.size ≠ .quad) : quadToSoftware (d :: srcs) = false := by
    simp only [quadToSoftware, Config.fpQuadImplemented, Bool.not_false, Bool.true_and, List.any_eq_false]
    intro x hx'; simpa using hq x hx'
  refine ⟨?_, ?_, ?_⟩
  · rintro ⟨x, hx', hq⟩
    have hs : quadToSoftware (d :: srcs) = true := by
      simp only [quadToSoftware, Config.fpQuadImplemented, Bool.not_false, Bool.true_and, List.any_eq_true]
      exact ⟨x, hx', by simp [hq]⟩
    refine completes_of_done hp (d := (s.fpDeliver code d srcs .unimplemented).fpDid .other) ?_ ?_ ?_ ?_ ?_
    · rw [hx]; simp only [State.fpOperation, fpGate_ready hr, State.fpToSoftware, hs]; rfl
    all_goals rw [fpDeliver_eq]; rfl
  · intro hq hsrc hd
    have hs := toHardware hq
    have hn : srcs.any (fun x => decide (x.size = .quad)) = false := by
      rw [List.any_eq_false]; intro x hx'; simpa using hq x (by simp [hx'])
    refine completes_of_done hp (d := (s.fpDeliver code d srcs r).fpDid .other) ?_ ?_ ?_ ?_ ?_
    · rw [hx]
      simp only [State.fpOperation, fpGate_ready hr, State.fpToSoftware, hs, hn, Config.fpUnimplemented, Bool.or_false, fpDestination_ok hd (hq d (by simp)),
        sources_ok srcs hsrc (fun x hx' => hq x (by simp [hx']))]
      rfl
    all_goals rw [fpDeliver_eq]; rfl
  · intro hq register bit hregister hbit
    subst hregister hbit
    have hop {e : Refusal} (he : (do srcs.forM FpReg.source; d.destination : Res Unit) = .error (.refuse e)) : exec i s = .refused e := by
      rw [hx]
      simp only [State.fpOperation, fpGate_ready hr, State.fpToSoftware, toHardware hq, Config.fpUnimplemented, Bool.or_false]
      rcases h : (srcs.forM FpReg.source : Res Unit) with x | x
      · rw [h] at he; cases he; rfl
      · rw [h] at he; rw [show d.destination = .error (.refuse e) from he]; rfl
    have hd := fpShape_eq (hq d List.mem_cons_self)
    rcases sources_cases srcs (fun x hx => hq x (List.mem_cons_of_mem _ hx)) with ⟨h, h1, h2⟩ | ⟨h, x, hx, h1⟩ | ⟨h, x, hx, h1⟩
    · by_cases hn : d.n.toNat < 4
      · have := hop (e := .fpRegister) (by rw [h]; simp only [FpReg.destination, if_pos hn]; rfl)
        exact ⟨fun _ _ => this, fun _ hnot => absurd (.inr ⟨d, List.mem_singleton_self d, hn⟩) hnot, fun _ _ => .inl this⟩
      · have hnr : ¬((∃ x ∈ srcs, x.n ≠ 0#5 ∧ x.n.toNat < 4) ∨ ∃ x ∈ [d], x.n.toNat < 4) := by
          simpa only [List.mem_singleton, exists_eq_left] using not_or.2 ⟨h1, hn⟩
        refine ⟨fun hr _ => absurd hr hnr, fun ⟨x, hx, hb⟩ _ => ?_, fun hr _ => absurd hr hnr⟩
        rcases List.mem_cons.1 hx with rfl | hx
        · exact hop (by rw [h]; simp only [FpReg.destination, if_neg hn, hd, if_pos hb]; rfl)
        · exact absurd ⟨x, hx, hb⟩ h2
    · have := hop (e := .fpRegister) (by rw [h]; rfl)
      exact ⟨fun _ _ => this, fun _ hnot => absurd (.inl ⟨x, hx, h1⟩) hnot, fun _ _ => .inl this⟩
    · have := hop (e := .fpExtensionBit) (by rw [h]; rfl)
      exact ⟨fun _ hnot => absurd ⟨x, List.mem_cons_of_mem _ hx, h1⟩ hnot, fun _ _ => this, fun _ _ => .inr this⟩

/-- The operands that every compare on a ready coprocessor refuses. -/
theorem fpRefuses_of_compare {i : Instr} {s : State} {code : BitVec 6} {r1 r2 : FpReg} {y : BitVec 3} {c : BitVec 5} (hr : FpReady s)
    (h1 : r1.size ≠ .quad) (h2 : r2.size ≠ .quad) (hx : exec i s = complete s (s.fpCompare code r1 r2 y c)) : FpRefuses i s [] [r1, r2] := by
  intro register bit hregister hbit
  subst hregister hbit
  have hop {e : Refusal} (he : ([r1, r2].forM FpReg.source : Res Unit) = .error (.refuse e)) : exec i s = .refused e := by
    have hs : s.fpToSoftware [r1, r2] [r1, r2] = false := by simp [State.fpToSoftware, quadToSoftware, h1, h2, Config.fpUnimplemented]
    rw [hx]
    simp only [State.fpCompare, fpGate_ready hr, hs]
    simp only [List.forM] at he
    rcases e1 : r1.source with x | x
    · rw [e1] at he; cases he; rfl
    · rcases e2 : r2.source with x' | x'
      · rw [e1, e2] at he; cases he; rfl
      · rw [e1, e2] at he; cases he
  rcases sources_cases [r1, r2] (by simp [h1, h2]) with ⟨-, hr, hb⟩ | ⟨h, hr⟩ | ⟨h, hb⟩
  · exact ⟨fun h => absurd h (by simpa using hr), fun h => absurd h hb, fun h => absurd h (by simpa using hr)⟩
  · exact ⟨fun _ _ => hop h, fun _ hn => absurd (.inl hr) hn, fun _ _ => .inl (hop h)⟩
  · exact ⟨fun _ hn => absurd hb hn, fun _ _ => hop h, fun _ _ => .inr (hop h)⟩

/-! ### The operands of FMPYADD and FMPYSUB (R847, R848) -/

/-- The operand rules pass exactly when nothing overlaps and no specifier is 0; otherwise they refuse. -/
theorem multiOperands_cases (rm1 rm2 ta ra tm : BitVec 5) :
    (multiOperands rm1 rm2 ta ra tm = .ok () ∧ ra ≠ tm ∧ ta ≠ rm1 ∧ ta ≠ rm2 ∧ ta ≠ tm ∧ ∀ v ∈ [rm1, rm2, ta, ra, tm], v ≠ 0#5) ∨
    (multiOperands rm1 rm2 ta ra tm = .error (.refuse .fpMultiOperands) ∧
      (ra = tm ∨ ta = rm1 ∨ ta = rm2 ∨ ta = tm ∨ ∃ v ∈ [rm1, rm2, ta, ra, tm], v = 0#5)) := by
  unfold multiOperands
  split_ifs with h
  · exact .inr ⟨rfl, h⟩
  · simp only [not_or, not_exists, not_and] at h
    exact .inl ⟨rfl, h⟩

/-! ### Patterns that are no NaN -/

/-- A pattern that is a number or an infinity is no NaN, signaling or quiet. -/
theorem isNan_of_value {f : Fmt} {w : Nat} (h : f.value w ≠ .nan) : f.isNan w = false ∧ f.isSignaling w = false := by
  have hn : f.isNan w = false := by
    unfold Fmt.value at h; simp only at h
    split at h
    · split at h
      · simp [Fmt.isNan, *]
      · exact absurd rfl h
    · simp [Fmt.isNan, *]
  exact ⟨hn, by simp [Fmt.isSignaling, hn]⟩

end Sys2Proof.Machine
end

