-- ==== Sys2Proof/Laws/Forms.lean ====
section
/-! SUPPORT. What the shared operations behind the instruction meanings compute: branch targets, sums, the arithmetic that may
trap, the floating-point gate. -/

namespace Sys2Proof.Machine

/-! ### Branch targets -/

/-- Putting a privilege level into an offset's two low bits. -/
theorem atLevel_append (o : Dword) (l : BitVec 2) : atLevel o l = o.extractLsb' 2 62 ++ l := by
  simp only [atLevel]
  apply BitVec.eq_of_getLsbD_eq
  intro i hi
  have : (3#64).getLsbD i = decide (i < 2) := by
    have : i < 64 := hi
    interval_cases i <;> rfl
  simp only [BitVec.getLsbD_or, BitVec.getLsbD_and, BitVec.getLsbD_not, hi, this, BitVec.getLsbD_append,
    BitVec.getLsbD_extractLsb', BitVec.getLsbD_setWidth]
  by_cases h : i < 2
  · simp [h]
  · have e : 2 + (i - 2) = i := by omega
    have hl : l.getLsbD i = false := BitVec.getLsbD_of_ge l i (by omega)
    have hb : i - 2 < 62 := by omega
    simp [h, e, hl, hb]

/-- A word-aligned displacement keeps the branch's privilege level. -/
theorem relativeTarget_eq (s : State) (d : Dword) (h : d.extractLsb' 0 2 = 0#2) : s.relativeTarget d = s.iaoqFront + d + 8 := by
  simp only [State.relativeTarget, State.priv]
  have : (s.iaoqFront + d + 8).extractLsb' 0 2 = s.iaoqFront.extractLsb' 0 2 := by
    have h2 : d.toNat % 4 = 0 := by
      have := congrArg BitVec.toNat h; simpa [BitVec.extractLsb'_toNat] using this
    apply BitVec.eq_of_toNat_eq
    simp [BitVec.extractLsb'_toNat, BitVec.toNat_add]
    omega
  rw [← this, atLevel_append]
  generalize s.iaoqFront + d + 8 = x
  apply BitVec.eq_of_getLsbD_eq
  intro i hi
  simp only [BitVec.getLsbD_append, BitVec.getLsbD_extractLsb']
  by_cases h : i < 2
  · simp [h]
  · have : 2 + (i - 2) = i := by omega
    simp [h, this]; intro; omega

/-- A shift by 2 or 3 leaves the level bits zero. -/
theorem low_shift2 (x : Dword) : (x <<< 2).extractLsb' 0 2 = 0#2 := by
  apply BitVec.eq_of_getLsbD_eq; intro i hi
  simp [BitVec.getLsbD_extractLsb', BitVec.getLsbD_shiftLeft]; omega

theorem low_shift3 (x : Dword) : (x <<< 3).extractLsb' 0 2 = 0#2 := by
  apply BitVec.eq_of_getLsbD_eq; intro i hi
  simp [BitVec.getLsbD_extractLsb', BitVec.getLsbD_shiftLeft]; omega

/-! ### Sums -/

theorem sum_add (x y : Dword) : (sum x y false).res = x + y := by simp [sum]

theorem sum_sub (x y : Dword) : (sum x (~~~y) true).res = x - y := by
  simp only [sum, if_true]; rw [BitVec.sub_eq_add_neg, BitVec.neg_eq_not_add, BitVec.add_assoc]
  rfl

theorem sum_addc (x y : Dword) (c : Bool) : (sum x y c).res = x + y + BitVec.ofNat 64 c.toNat := by cases c <;> simp [sum]

theorem sum_subb (x y : Dword) (c : Bool) : (sum x (~~~y) c).res = x - y - 1 + BitVec.ofNat 64 c.toNat := by
  have : x + ~~~y = x - y - 1 := by
    rw [BitVec.sub_eq_add_neg x y, BitVec.neg_eq_not_add, ← BitVec.add_assoc]
    exact (BitVec.add_sub_cancel _ _).symm
  rw [sum_addc, this]

/-- The carry an instruction of the width `d` reads (43_computation.md R544). -/
theorem carryIn_eq (s : State) (d : BitVec 1) : s.carryIn d = s.carryBorrow.getMsbD (if d = 1#1 then 0 else 8) := by
  simp only [State.carryIn, bitAt, isSet, beq_iff_eq]

/-- The arithmetic that may trap: overflow trap, then trap on condition, then the result. -/
theorem arith_trapsOrCompletes {i : Instr} {s : State} {k : ArithKind} {t : BitVec 5} {res : Dword} {ca : BitVec 16} {ov co : Bool}
    (hp : Plain s) (hx : exec i s = complete s (s.arith k t res ca ov co)) :
    TrapsOrCompletes i s (if k.setsCarries then (s.writeGr t res).setCarryBorrow ca else s.writeGr t res) k.trapOverflow
      k.trapCondition ov co := by
  refine ⟨fun h => ?_, fun h h2 => ?_, fun h h2 => ?_⟩
  · simp only [State.arith, h] at hx; exact hx
  · simp only [State.arith, h, h2] at hx; exact hx
  · simp only [State.arith, h, h2] at hx
    refine completes_of_done hp hx ?_ ?_ ?_ ?_ <;>
      (split <;> (simp only [State.writeGr, State.setCarryBorrow]; repeat' split) <;> rfl)

/-! ### Floating point -/

theorem fpOn_gate {s : State} (h : FpOn s) : s.fpMixed = false ∧ s.fpOff = false ∧ s.fpTrap = false ∧ s.fpAfterFid = false := by
  obtain ⟨a, b, c, d⟩ := h; simp [State.fpMixed, State.fpOff, State.fpAfterFid, a, b, c, d]

/-! ### Semaphores -/

/-- All that LDCW and LDCD do at an aligned address of cacheable memory: with the hint the semaphore was first used with, or as its first use,
they read and clear; with another they are undefined. -/
theorem semaphoreForm_memory {s : State} {e : Ea} {cc : BitVec 2} {t : BitVec 5} {n : Nat} {d : DataAddr} {p : Place} (hr : e.resolve s = .ok d)
    (ha : (s.usedOffset d.offset).toNat % 16 = 0) (hm : region p.pa = .memory) (hu : p.uncacheable = false) (hc : s.check .semaphore d n = .ok p) :
    (∀ h, s.semaphores.lookup p.pa.toNat = some h → h ≠ semaphoreHint cc → s.semaphoreForm e cc n t = .error (.refuse .mixedSemaphoreHints)) ∧
    ((∀ h, s.semaphores.lookup p.pa.toNat = some h → h = semaphoreHint cc) →
      s.semaphoreForm e cc n t = done s ((e.writeBack
        { s with
          mem := s.mem.store (s.flag Psw.E) p.pa.toNat n 0
          semaphores := if s.semaphores.lookup p.pa.toNat = none then (p.pa.toNat, semaphoreHint cc) :: s.semaphores else s.semaphores }).writeGr t
            (s.mem.load (s.flag Psw.E) p.pa.toNat n)) false) := by
  have hpl : s.semaphorePlace d n = .ok p := by simp [State.semaphorePlace, ha, hc, hu, hm, bind, Except.bind]
  have hl := loadAt_memory (s := s) (n := n) hm
  have hst := storeAt_memory (s := s) (n := n) (v := 0) hm
  constructor
  · intro h h1 h2
    simp only [State.semaphoreForm, show Config.ldcGr0IsPrefetch = false from rfl, Bool.and_false, Bool.false_eq_true, if_false, hr, hpl, hl, hst,
      State.noteSemaphore, bind, Except.bind, h1, h2]
  · intro h
    simp only [State.semaphoreForm, show Config.ldcGr0IsPrefetch = false from rfl, Bool.and_false, Bool.false_eq_true, if_false, hr, hpl, hl, hst,
      State.noteSemaphore, bind, Except.bind]
    cases hq : s.semaphores.lookup p.pa.toNat with
    | none => simp
    | some q => simp [h q hq]

/-! ### References that are not allowed -/

/-- A form that stops as the check of its reference does makes an instruction that takes that check. -/
theorem takesCheck_of_stop {i : Instr} {s : State} {k : RefKind} {n : Nat} {e : Ea} {r : Res Done} (hx : exec i s = complete s r)
    (h : ∀ d z, e.resolve s = .ok d → s.check k d n = .error z → r = .error z) : TakesCheck k n s e i :=
  fun d hd => ⟨fun j q hq => by rw [Traps, hx, h d _ hd hq]; rfl, fun x hq => by rw [hx, h d _ hd hq]; rfl⟩

theorem takesCheck_loadOrPrefetch {i : Instr} {s : State} {n : Nat} {e : Ea} {t : BitVec 5} (ht : t ≠ 0#5)
    (hx : exec i s = complete s (s.loadOrPrefetch e n t)) : TakesCheck .load n s e i :=
  takesCheck_of_stop hx fun d z hd hz => by simp [State.loadOrPrefetch, ht, State.loadForm, State.memLoad, hd, hz, bind, Except.bind]

theorem takesCheck_storeForm {i : Instr} {s : State} {n : Nat} {e : Ea} {r : BitVec 5}
    (hx : exec i s = complete s (s.storeForm e n r)) : TakesCheck .store n s e i :=
  takesCheck_of_stop hx fun d z hd hz => by simp [State.storeForm, State.memStore, hd, hz, bind, Except.bind]

theorem takesCheck_storeBytesForm {i : Instr} {s : State} {n : Nat} {e : Ea} {ending : Bool} {r : BitVec 5}
    (hx : exec i s = complete s (s.storeBytesForm e n ending r)) : TakesCheck .store 1 s e i :=
  takesCheck_of_stop hx fun d z hd hz => by simp [State.storeBytesForm, hd, hz, bind, Except.bind]

/-- A coprocessor's reference stops as the check does, unless the unit raises its exception first. -/
theorem coprReference_stop {s : State} {k : RefKind} {a : DataAddr} {n : Nat} {c : Config.CoprTransfer} {z : Stop}
    (hc : s.coprEnabled c.unit = true → transferRaises c = false) (hz : s.check k a n = .error z) : s.coprReference k a n c = .error z := by
  cases hu : s.coprEnabled c.unit <;> simp_all [State.coprReference, bind, Except.bind]

/-- A floating-point load or store stops as the check of its reference does, with the coprocessor off or when nothing else comes first. -/
theorem fpReference_stop {s : State} {k : RefKind} {e : Ea} {n : Nat} {cancels allowed : Bool} {a : DataAddr} {z : Stop} (hm : s.fpMixed = false)
    (hc : s.fpOff = true ∨ ((cancels = true ∨ (s.fpAfterFid = false ∧ s.fpTrap = false)) ∧ allowed = true)) (ha : e.resolve s = .ok a)
    (hz : s.check k a n = .error z) : s.fpReference k e n cancels allowed = .error z := by
  rcases hc with ho | ⟨hc | ⟨h1, h2⟩, h3⟩ <;> simp_all [State.fpReference, bind, Except.bind]

end Sys2Proof.Machine
end

