-- ==== Sys2Proof/Laws/PerInstr.lean ====
section
/-! SUPPORT. For every instruction: a row of the decoder's table is hit by the instruction's encoding and rebuilds it, field by field.
(Generated from the encoder's and the table's text; that no other row comes first is not said here.) -/

namespace Sys2Proof.Laws

/-- The rightmost field of a word. -/
theorem low {m n : Nat} (a : BitVec m) (b : BitVec n) : (a ++ b).extractLsb' 0 n = b := by
  ext i hi
  simp [BitVec.getLsbD_append, hi]

/-- A field left of the rightmost one. -/
theorem high {m n w : Nat} (k l : Nat) (a : BitVec m) (b : BitVec n) {v : BitVec w} (h : a.extractLsb' l w = v)
    (e : k = n + l) : (a ++ b).extractLsb' k w = v := by
  subst h; subst e
  ext i hi
  have : ¬ (n + l + i < n) := by omega
  simp [BitVec.getLsbD_append, this]
  congr 1
  omega

/-- Masking field by field. -/
theorem masked {m n : Nat} {a mh ah : BitVec m} {b ml al : BitVec n} (h : a &&& mh = ah) (l : b &&& ml = al) :
    (a ++ b) &&& (mh ++ ml) = ah ++ al := by
  subst h; subst l
  ext i hi
  simp only [BitVec.getElem_and, BitVec.getElem_append]
  split <;> rfl

/-- A field under zeros of the mask. -/
theorem unmasked {m n : Nat} {a mh ah : BitVec m} (b : BitVec n) (h : a &&& mh = ah) :
    (a ++ b) &&& (mh ++ 0#n) = ah ++ 0#n := masked h BitVec.and_zero

/-- Some row of the opcode table is hit by the well-formed instruction's encoding and builds the instruction from it. -/
def InTable.Statement (i : Instr) : Prop := i.wellFormed = true →
  ∃ r ∈ opcodeTable, r.hits (encode i) = true ∧ r.build (encode i) = i

theorem of_index {i : Instr} (k : Nat) (r : Row) (h : opcodeTable[k]? = some r) {mask bits : BitVec 32}
    (hm : encode i &&& mask = bits) (e1 : r.mask = mask) (e2 : r.bits = bits) (hb : r.build (encode i) = i) : InTable.Statement i :=
  fun _ => ⟨r, List.mem_of_getElem? h, by simp [Row.hits, e1, e2, hm], hb⟩

/-- A shift amount that is not 0 (43_computation.md R546). -/
theorem nonzero {sa : BitVec 2} (h : (sa != 0#2) = true) : sa = 1#2 ∨ sa = 2#2 ∨ sa = 3#2 := by
  revert sa; decide

theorem InTable.ldbLong (b : BitVec 5) (t : BitVec 5) (sr : BitVec 2) (im14 : BitVec 14) : InTable.Statement (.ldbLong b t sr im14) :=
  of_index 0 _ rfl (unmasked im14 (unmasked sr (unmasked t (unmasked b (rfl : 0x10#6 &&& 0x3F#6 = 0x10#6))))) rfl rfl (congr (congr (congr (congrArg Instr.ldbLong (high 21 7 _ im14 (high 7 5 _ sr (high 5 0 _ t (low (0x10#6) b) rfl) rfl) rfl)) (high 16 2 _ im14 (high 2 0 _ sr (low (0x10#6 ++ b) t) rfl) rfl)) (high 14 0 _ im14 (low (0x10#6 ++ b ++ t) sr) rfl)) (low (0x10#6 ++ b ++ t ++ sr) im14))

theorem InTable.ldhLong (b : BitVec 5) (t : BitVec 5) (sr : BitVec 2) (im14 : BitVec 14) : InTable.Statement (.ldhLong b t sr im14) :=
  of_index 1 _ rfl (unmasked im14 (unmasked sr (unmasked t (unmasked b (rfl : 0x11#6 &&& 0x3F#6 = 0x11#6))))) rfl rfl (congr (congr (congr (congrArg Instr.ldhLong (high 21 7 _ im14 (high 7 5 _ sr (high 5 0 _ t (low (0x11#6) b) rfl) rfl) rfl)) (high 16 2 _ im14 (high 2 0 _ sr (low (0x11#6 ++ b) t) rfl) rfl)) (high 14 0 _ im14 (low (0x11#6 ++ b ++ t) sr) rfl)) (low (0x11#6 ++ b ++ t ++ sr) im14))

theorem InTable.ldwLong (b : BitVec 5) (t : BitVec 5) (sr : BitVec 2) (im14 : BitVec 14) : InTable.Statement (.ldwLong b t sr im14) :=
  of_index 2 _ rfl (unmasked im14 (unmasked sr (unmasked t (unmasked b (rfl : 0x12#6 &&& 0x3F#6 = 0x12#6))))) rfl rfl (congr (congr (congr (congrArg Instr.ldwLong (high 21 7 _ im14 (high 7 5 _ sr (high 5 0 _ t (low (0x12#6) b) rfl) rfl) rfl)) (high 16 2 _ im14 (high 2 0 _ sr (low (0x12#6 ++ b) t) rfl) rfl)) (high 14 0 _ im14 (low (0x12#6 ++ b ++ t) sr) rfl)) (low (0x12#6 ++ b ++ t ++ sr) im14))

theorem InTable.ldwLongMod (b : BitVec 5) (t : BitVec 5) (sr : BitVec 2) (im14 : BitVec 14) : InTable.Statement (.ldwLongMod b t sr im14) :=
  of_index 3 _ rfl (unmasked im14 (unmasked sr (unmasked t (unmasked b (rfl : 0x13#6 &&& 0x3F#6 = 0x13#6))))) rfl rfl (congr (congr (congr (congrArg Instr.ldwLongMod (high 21 7 _ im14 (high 7 5 _ sr (high 5 0 _ t (low (0x13#6) b) rfl) rfl) rfl)) (high 16 2 _ im14 (high 2 0 _ sr (low (0x13#6 ++ b) t) rfl) rfl)) (high 14 0 _ im14 (low (0x13#6 ++ b ++ t) sr) rfl)) (low (0x13#6 ++ b ++ t ++ sr) im14))

theorem InTable.stbLong (b : BitVec 5) (r : BitVec 5) (sr : BitVec 2) (im14 : BitVec 14) : InTable.Statement (.stbLong b r sr im14) :=
  of_index 4 _ rfl (unmasked im14 (unmasked sr (unmasked r (unmasked b (rfl : 0x18#6 &&& 0x3F#6 = 0x18#6))))) rfl rfl (congr (congr (congr (congrArg Instr.stbLong (high 21 7 _ im14 (high 7 5 _ sr (high 5 0 _ r (low (0x18#6) b) rfl) rfl) rfl)) (high 16 2 _ im14 (high 2 0 _ sr (low (0x18#6 ++ b) r) rfl) rfl)) (high 14 0 _ im14 (low (0x18#6 ++ b ++ r) sr) rfl)) (low (0x18#6 ++ b ++ r ++ sr) im14))

theorem InTable.sthLong (b : BitVec 5) (r : BitVec 5) (sr : BitVec 2) (im14 : BitVec 14) : InTable.Statement (.sthLong b r sr im14) :=
  of_index 5 _ rfl (unmasked im14 (unmasked sr (unmasked r (unmasked b (rfl : 0x19#6 &&& 0x3F#6 = 0x19#6))))) rfl rfl (congr (congr (congr (congrArg Instr.sthLong (high 21 7 _ im14 (high 7 5 _ sr (high 5 0 _ r (low (0x19#6) b) rfl) rfl) rfl)) (high 16 2 _ im14 (high 2 0 _ sr (low (0x19#6 ++ b) r) rfl) rfl)) (high 14 0 _ im14 (low (0x19#6 ++ b ++ r) sr) rfl)) (low (0x19#6 ++ b ++ r ++ sr) im14))

theorem InTable.stwLong (b : BitVec 5) (r : BitVec 5) (sr : BitVec 2) (im14 : BitVec 14) : InTable.Statement (.stwLong b r sr im14) :=
  of_index 6 _ rfl (unmasked im14 (unmasked sr (unmasked r (unmasked b (rfl : 0x1A#6 &&& 0x3F#6 = 0x1A#6))))) rfl rfl (congr (congr (congr (congrArg Instr.stwLong (high 21 7 _ im14 (high 7 5 _ sr (high 5 0 _ r (low (0x1A#6) b) rfl) rfl) rfl)) (high 16 2 _ im14 (high 2 0 _ sr (low (0x1A#6 ++ b) r) rfl) rfl)) (high 14 0 _ im14 (low (0x1A#6 ++ b ++ r) sr) rfl)) (low (0x1A#6 ++ b ++ r ++ sr) im14))

theorem InTable.stwLongMod (b : BitVec 5) (r : BitVec 5) (sr : BitVec 2) (im14 : BitVec 14) : InTable.Statement (.stwLongMod b r sr im14) :=
  of_index 7 _ rfl (unmasked im14 (unmasked sr (unmasked r (unmasked b (rfl : 0x1B#6 &&& 0x3F#6 = 0x1B#6))))) rfl rfl (congr (congr (congr (congrArg Instr.stwLongMod (high 21 7 _ im14 (high 7 5 _ sr (high 5 0 _ r (low (0x1B#6) b) rfl) rfl) rfl)) (high 16 2 _ im14 (high 2 0 _ sr (low (0x1B#6 ++ b) r) rfl) rfl)) (high 14 0 _ im14 (low (0x1B#6 ++ b ++ r) sr) rfl)) (low (0x1B#6 ++ b ++ r ++ sr) im14))

theorem InTable.ldwLong11 (b : BitVec 5) (t : BitVec 5) (sr : BitVec 2) (im11a : BitVec 11) (iv : BitVec 1) : InTable.Statement (.ldwLong11 b t sr im11a iv) :=
  of_index 8 _ rfl (unmasked iv (masked (unmasked im11a (unmasked sr (unmasked t (unmasked b (rfl : 0x17#6 &&& 0x3F#6 = 0x17#6))))) (rfl : 0x2#2 &&& 0x3#2 = 0x2#2))) rfl rfl (congr (congr (congr (congr (congrArg Instr.ldwLong11 (high 21 20 _ iv (high 20 18 _ (0x2#2) (high 18 7 _ im11a (high 7 5 _ sr (high 5 0 _ t (low (0x17#6) b) rfl) rfl) rfl) rfl) rfl)) (high 16 15 _ iv (high 15 13 _ (0x2#2) (high 13 2 _ im11a (high 2 0 _ sr (low (0x17#6 ++ b) t) rfl) rfl) rfl) rfl)) (high 14 13 _ iv (high 13 11 _ (0x2#2) (high 11 0 _ im11a (low (0x17#6 ++ b ++ t) sr) rfl) rfl) rfl)) (high 3 2 _ iv (high 2 0 _ (0x2#2) (low (0x17#6 ++ b ++ t ++ sr) im11a) rfl) rfl)) (low (0x17#6 ++ b ++ t ++ sr ++ im11a ++ 0x2#2) iv))

theorem InTable.stwLong11 (b : BitVec 5) (r : BitVec 5) (sr : BitVec 2) (im11a : BitVec 11) (iv : BitVec 1) : InTable.Statement (.stwLong11 b r sr im11a iv) :=
  of_index 9 _ rfl (unmasked iv (masked (unmasked im11a (unmasked sr (unmasked r (unmasked b (rfl : 0x1F#6 &&& 0x3F#6 = 0x1F#6))))) (rfl : 0x2#2 &&& 0x3#2 = 0x2#2))) rfl rfl (congr (congr (congr (congr (congrArg Instr.stwLong11 (high 21 20 _ iv (high 20 18 _ (0x2#2) (high 18 7 _ im11a (high 7 5 _ sr (high 5 0 _ r (low (0x1F#6) b) rfl) rfl) rfl) rfl) rfl)) (high 16 15 _ iv (high 15 13 _ (0x2#2) (high 13 2 _ im11a (high 2 0 _ sr (low (0x1F#6 ++ b) r) rfl) rfl) rfl) rfl)) (high 14 13 _ iv (high 13 11 _ (0x2#2) (high 11 0 _ im11a (low (0x1F#6 ++ b ++ r) sr) rfl) rfl) rfl)) (high 3 2 _ iv (high 2 0 _ (0x2#2) (low (0x1F#6 ++ b ++ r ++ sr) im11a) rfl) rfl)) (low (0x1F#6 ++ b ++ r ++ sr ++ im11a ++ 0x2#2) iv))

theorem InTable.lddLong (b : BitVec 5) (t : BitVec 5) (sr : BitVec 2) (im10a : BitVec 10) (m : BitVec 1) (a : BitVec 1) (iv : BitVec 1) : InTable.Statement (.lddLong b t sr im10a m a iv) :=
  of_index 10 _ rfl (unmasked iv (masked (unmasked a (unmasked m (unmasked im10a (unmasked sr (unmasked t (unmasked b (rfl : 0x14#6 &&& 0x3F#6 = 0x14#6))))))) (rfl : 0x0#1 &&& 0x1#1 = 0x0#1))) rfl rfl (congr (congr (congr (congr (congr (congr (congrArg Instr.lddLong (high 21 20 _ iv (high 20 19 _ (0x0#1) (high 19 18 _ a (high 18 17 _ m (high 17 7 _ im10a (high 7 5 _ sr (high 5 0 _ t (low (0x14#6) b) rfl) rfl) rfl) rfl) rfl) rfl) rfl)) (high 16 15 _ iv (high 15 14 _ (0x0#1) (high 14 13 _ a (high 13 12 _ m (high 12 2 _ im10a (high 2 0 _ sr (low (0x14#6 ++ b) t) rfl) rfl) rfl) rfl) rfl) rfl)) (high 14 13 _ iv (high 13 12 _ (0x0#1) (high 12 11 _ a (high 11 10 _ m (high 10 0 _ im10a (low (0x14#6 ++ b ++ t) sr) rfl) rfl) rfl) rfl) rfl)) (high 4 3 _ iv (high 3 2 _ (0x0#1) (high 2 1 _ a (high 1 0 _ m (low (0x14#6 ++ b ++ t ++ sr) im10a) rfl) rfl) rfl) rfl)) (high 3 2 _ iv (high 2 1 _ (0x0#1) (high 1 0 _ a (low (0x14#6 ++ b ++ t ++ sr ++ im10a) m) rfl) rfl) rfl)) (high 2 1 _ iv (high 1 0 _ (0x0#1) (low (0x14#6 ++ b ++ t ++ sr ++ im10a ++ m) a) rfl) rfl)) (low (0x14#6 ++ b ++ t ++ sr ++ im10a ++ m ++ a ++ 0x0#1) iv))

theorem InTable.stdLong (b : BitVec 5) (r : BitVec 5) (sr : BitVec 2) (im10a : BitVec 10) (m : BitVec 1) (a : BitVec 1) (iv : BitVec 1) : InTable.Statement (.stdLong b r sr im10a m a iv) :=
  of_index 11 _ rfl (unmasked iv (masked (unmasked a (unmasked m (unmasked im10a (unmasked sr (unmasked r (unmasked b (rfl : 0x1C#6 &&& 0x3F#6 = 0x1C#6))))))) (rfl : 0x0#1 &&& 0x1#1 = 0x0#1))) rfl rfl (congr (congr (congr (congr (congr (congr (congrArg Instr.stdLong (high 21 20 _ iv (high 20 19 _ (0x0#1) (high 19 18 _ a (high 18 17 _ m (high 17 7 _ im10a (high 7 5 _ sr (high 5 0 _ r (low (0x1C#6) b) rfl) rfl) rfl) rfl) rfl) rfl) rfl)) (high 16 15 _ iv (high 15 14 _ (0x0#1) (high 14 13 _ a (high 13 12 _ m (high 12 2 _ im10a (high 2 0 _ sr (low (0x1C#6 ++ b) r) rfl) rfl) rfl) rfl) rfl) rfl)) (high 14 13 _ iv (high 13 12 _ (0x0#1) (high 12 11 _ a (high 11 10 _ m (high 10 0 _ im10a (low (0x1C#6 ++ b ++ r) sr) rfl) rfl) rfl) rfl) rfl)) (high 4 3 _ iv (high 3 2 _ (0x0#1) (high 2 1 _ a (high 1 0 _ m (low (0x1C#6 ++ b ++ r ++ sr) im10a) rfl) rfl) rfl) rfl)) (high 3 2 _ iv (high 2 1 _ (0x0#1) (high 1 0 _ a (low (0x1C#6 ++ b ++ r ++ sr ++ im10a) m) rfl) rfl) rfl)) (high 2 1 _ iv (high 1 0 _ (0x0#1) (low (0x1C#6 ++ b ++ r ++ sr ++ im10a ++ m) a) rfl) rfl)) (low (0x1C#6 ++ b ++ r ++ sr ++ im10a ++ m ++ a ++ 0x0#1) iv))

theorem InTable.ldbShort (b : BitVec 5) (im5 : BitVec 5) (sr : BitVec 2) (a : BitVec 1) (cc : BitVec 2) (m : BitVec 1) (t : BitVec 5) : InTable.Statement (.ldbShort b im5 sr a cc m t) :=
  of_index 12 _ rfl (unmasked t (unmasked m (masked (unmasked cc (masked (unmasked a (unmasked sr (unmasked im5 (unmasked b (rfl : 0x3#6 &&& 0x3F#6 = 0x3#6))))) (rfl : 0x1#1 &&& 0x1#1 = 0x1#1))) (rfl : 0x0#4 &&& 0xF#4 = 0x0#4)))) rfl rfl (congr (congr (congr (congr (congr (congr (congrArg Instr.ldbShort (high 21 16 _ t (high 16 15 _ m (high 15 11 _ (0x0#4) (high 11 9 _ cc (high 9 8 _ (0x1#1) (high 8 7 _ a (high 7 5 _ sr (high 5 0 _ im5 (low (0x3#6) b) rfl) rfl) rfl) rfl) rfl) rfl) rfl) rfl)) (high 16 11 _ t (high 11 10 _ m (high 10 6 _ (0x0#4) (high 6 4 _ cc (high 4 3 _ (0x1#1) (high 3 2 _ a (high 2 0 _ sr (low (0x3#6 ++ b) im5) rfl) rfl) rfl) rfl) rfl) rfl) rfl)) (high 14 9 _ t (high 9 8 _ m (high 8 4 _ (0x0#4) (high 4 2 _ cc (high 2 1 _ (0x1#1) (high 1 0 _ a (low (0x3#6 ++ b ++ im5) sr) rfl) rfl) rfl) rfl) rfl) rfl)) (high 13 8 _ t (high 8 7 _ m (high 7 3 _ (0x0#4) (high 3 1 _ cc (high 1 0 _ (0x1#1) (low (0x3#6 ++ b ++ im5 ++ sr) a) rfl) rfl) rfl) rfl) rfl)) (high 10 5 _ t (high 5 4 _ m (high 4 0 _ (0x0#4) (low (0x3#6 ++ b ++ im5 ++ sr ++ a ++ 0x1#1) cc) rfl) rfl) rfl)) (high 5 0 _ t (low (0x3#6 ++ b ++ im5 ++ sr ++ a ++ 0x1#1 ++ cc ++ 0x0#4) m) rfl)) (low (0x3#6 ++ b ++ im5 ++ sr ++ a ++ 0x1#1 ++ cc ++ 0x0#4 ++ m) t))

theorem InTable.ldbIndexed (b : BitVec 5) (x : BitVec 5) (sr : BitVec 2) (u : BitVec 1) (cc : BitVec 2) (m : BitVec 1) (t : BitVec 5) : InTable.Statement (.ldbIndexed b x sr u cc m t) :=
  of_index 13 _ rfl (unmasked t (unmasked m (masked (unmasked cc (masked (unmasked u (unmasked sr (unmasked x (unmasked b (rfl : 0x3#6 &&& 0x3F#6 = 0x3#6))))) (rfl : 0x0#1 &&& 0x1#1 = 0x0#1))) (rfl : 0x0#4 &&& 0xF#4 = 0x0#4)))) rfl rfl (congr (congr (congr (congr (congr (congr (congrArg Instr.ldbIndexed (high 21 16 _ t (high 16 15 _ m (high 15 11 _ (0x0#4) (high 11 9 _ cc (high 9 8 _ (0x0#1) (high 8 7 _ u (high 7 5 _ sr (high 5 0 _ x (low (0x3#6) b) rfl) rfl) rfl) rfl) rfl) rfl) rfl) rfl)) (high 16 11 _ t (high 11 10 _ m (high 10 6 _ (0x0#4) (high 6 4 _ cc (high 4 3 _ (0x0#1) (high 3 2 _ u (high 2 0 _ sr (low (0x3#6 ++ b) x) rfl) rfl) rfl) rfl) rfl) rfl) rfl)) (high 14 9 _ t (high 9 8 _ m (high 8 4 _ (0x0#4) (high 4 2 _ cc (high 2 1 _ (0x0#1) (high 1 0 _ u (low (0x3#6 ++ b ++ x) sr) rfl) rfl) rfl) rfl) rfl) rfl)) (high 13 8 _ t (high 8 7 _ m (high 7 3 _ (0x0#4) (high 3 1 _ cc (high 1 0 _ (0x0#1) (low (0x3#6 ++ b ++ x ++ sr) u) rfl) rfl) rfl) rfl) rfl)) (high 10 5 _ t (high 5 4 _ m (high 4 0 _ (0x0#4) (low (0x3#6 ++ b ++ x ++ sr ++ u ++ 0x0#1) cc) rfl) rfl) rfl)) (high 5 0 _ t (low (0x3#6 ++ b ++ x ++ sr ++ u ++ 0x0#1 ++ cc ++ 0x0#4) m) rfl)) (low (0x3#6 ++ b ++ x ++ sr ++ u ++ 0x0#1 ++ cc ++ 0x0#4 ++ m) t))

theorem InTable.ldhShort (b : BitVec 5) (im5 : BitVec 5) (sr : BitVec 2) (a : BitVec 1) (cc : BitVec 2) (m : BitVec 1) (t : BitVec 5) : InTable.Statement (.ldhShort b im5 sr a cc m t) :=
  of_index 14 _ rfl (unmasked t (unmasked m (masked (unmasked cc (masked (unmasked a (unmasked sr (unmasked im5 (unmasked b (rfl : 0x3#6 &&& 0x3F#6 = 0x3#6))))) (rfl : 0x1#1 &&& 0x1#1 = 0x1#1))) (rfl : 0x1#4 &&& 0xF#4 = 0x1#4)))) rfl rfl (congr (congr (congr (congr (congr (congr (congrArg Instr.ldhShort (high 21 16 _ t (high 16 15 _ m (high 15 11 _ (0x1#4) (high 11 9 _ cc (high 9 8 _ (0x1#1) (high 8 7 _ a (high 7 5 _ sr (high 5 0 _ im5 (low (0x3#6) b) rfl) rfl) rfl) rfl) rfl) rfl) rfl) rfl)) (high 16 11 _ t (high 11 10 _ m (high 10 6 _ (0x1#4) (high 6 4 _ cc (high 4 3 _ (0x1#1) (high 3 2 _ a (high 2 0 _ sr (low (0x3#6 ++ b) im5) rfl) rfl) rfl) rfl) rfl) rfl) rfl)) (high 14 9 _ t (high 9 8 _ m (high 8 4 _ (0x1#4) (high 4 2 _ cc (high 2 1 _ (0x1#1) (high 1 0 _ a (low (0x3#6 ++ b ++ im5) sr) rfl) rfl) rfl) rfl) rfl) rfl)) (high 13 8 _ t (high 8 7 _ m (high 7 3 _ (0x1#4) (high 3 1 _ cc (high 1 0 _ (0x1#1) (low (0x3#6 ++ b ++ im5 ++ sr) a) rfl) rfl) rfl) rfl) rfl)) (high 10 5 _ t (high 5 4 _ m (high 4 0 _ (0x1#4) (low (0x3#6 ++ b ++ im5 ++ sr ++ a ++ 0x1#1) cc) rfl) rfl) rfl)) (high 5 0 _ t (low (0x3#6 ++ b ++ im5 ++ sr ++ a ++ 0x1#1 ++ cc ++ 0x1#4) m) rfl)) (low (0x3#6 ++ b ++ im5 ++ sr ++ a ++ 0x1#1 ++ cc ++ 0x1#4 ++ m) t))

theorem InTable.ldhIndexed (b : BitVec 5) (x : BitVec 5) (sr : BitVec 2) (u : BitVec 1) (cc : BitVec 2) (m : BitVec 1) (t : BitVec 5) : InTable.Statement (.ldhIndexed b x sr u cc m t) :=
  of_index 15 _ rfl (unmasked t (unmasked m (masked (unmasked cc (masked (unmasked u (unmasked sr (unmasked x (unmasked b (rfl : 0x3#6 &&& 0x3F#6 = 0x3#6))))) (rfl : 0x0#1 &&& 0x1#1 = 0x0#1))) (rfl : 0x1#4 &&& 0xF#4 = 0x1#4)))) rfl rfl (congr (congr (congr (congr (congr (congr (congrArg Instr.ldhIndexed (high 21 16 _ t (high 16 15 _ m (high 15 11 _ (0x1#4) (high 11 9 _ cc (high 9 8 _ (0x0#1) (high 8 7 _ u (high 7 5 _ sr (high 5 0 _ x (low (0x3#6) b) rfl) rfl) rfl) rfl) rfl) rfl) rfl) rfl)) (high 16 11 _ t (high 11 10 _ m (high 10 6 _ (0x1#4) (high 6 4 _ cc (high 4 3 _ (0x0#1) (high 3 2 _ u (high 2 0 _ sr (low (0x3#6 ++ b) x) rfl) rfl) rfl) rfl) rfl) rfl) rfl)) (high 14 9 _ t (high 9 8 _ m (high 8 4 _ (0x1#4) (high 4 2 _ cc (high 2 1 _ (0x0#1) (high 1 0 _ u (low (0x3#6 ++ b ++ x) sr) rfl) rfl) rfl) rfl) rfl) rfl)) (high 13 8 _ t (high 8 7 _ m (high 7 3 _ (0x1#4) (high 3 1 _ cc (high 1 0 _ (0x0#1) (low (0x3#6 ++ b ++ x ++ sr) u) rfl) rfl) rfl) rfl) rfl)) (high 10 5 _ t (high 5 4 _ m (high 4 0 _ (0x1#4) (low (0x3#6 ++ b ++ x ++ sr ++ u ++ 0x0#1) cc) rfl) rfl) rfl)) (high 5 0 _ t (low (0x3#6 ++ b ++ x ++ sr ++ u ++ 0x0#1 ++ cc ++ 0x1#4) m) rfl)) (low (0x3#6 ++ b ++ x ++ sr ++ u ++ 0x0#1 ++ cc ++ 0x1#4 ++ m) t))

theorem InTable.ldwShort (b : BitVec 5) (im5 : BitVec 5) (sr : BitVec 2) (a : BitVec 1) (cc : BitVec 2) (m : BitVec 1) (t : BitVec 5) : InTable.Statement (.ldwShort b im5 sr a cc m t) :=
  of_index 16 _ rfl (unmasked t (unmasked m (masked (unmasked cc (masked (unmasked a (unmasked sr (unmasked im5 (unmasked b (rfl : 0x3#6 &&& 0x3F#6 = 0x3#6))))) (rfl : 0x1#1 &&& 0x1#1 = 0x1#1))) (rfl : 0x2#4 &&& 0xF#4 = 0x2#4)))) rfl rfl (congr (congr (congr (congr (congr (congr (congrArg Instr.ldwShort (high 21 16 _ t (high 16 15 _ m (high 15 11 _ (0x2#4) (high 11 9 _ cc (high 9 8 _ (0x1#1) (high 8 7 _ a (high 7 5 _ sr (high 5 0 _ im5 (low (0x3#6) b) rfl) rfl) rfl) rfl) rfl) rfl) rfl) rfl)) (high 16 11 _ t (high 11 10 _ m (high 10 6 _ (0x2#4) (high 6 4 _ cc (high 4 3 _ (0x1#1) (high 3 2 _ a (high 2 0 _ sr (low (0x3#6 ++ b) im5) rfl) rfl) rfl) rfl) rfl) rfl) rfl)) (high 14 9 _ t (high 9 8 _ m (high 8 4 _ (0x2#4) (high 4 2 _ cc (high 2 1 _ (0x1#1) (high 1 0 _ a (low (0x3#6 ++ b ++ im5) sr) rfl) rfl) rfl) rfl) rfl) rfl)) (high 13 8 _ t (high 8 7 _ m (high 7 3 _ (0x2#4) (high 3 1 _ cc (high 1 0 _ (0x1#1) (low (0x3#6 ++ b ++ im5 ++ sr) a) rfl) rfl) rfl) rfl) rfl)) (high 10 5 _ t (high 5 4 _ m (high 4 0 _ (0x2#4) (low (0x3#6 ++ b ++ im5 ++ sr ++ a ++ 0x1#1) cc) rfl) rfl) rfl)) (high 5 0 _ t (low (0x3#6 ++ b ++ im5 ++ sr ++ a ++ 0x1#1 ++ cc ++ 0x2#4) m) rfl)) (low (0x3#6 ++ b ++ im5 ++ sr ++ a ++ 0x1#1 ++ cc ++ 0x2#4 ++ m) t))

theorem InTable.ldwIndexed (b : BitVec 5) (x : BitVec 5) (sr : BitVec 2) (u : BitVec 1) (cc : BitVec 2) (m : BitVec 1) (t : BitVec 5) : InTable.Statement (.ldwIndexed b x sr u cc m t) :=
  of_index 17 _ rfl (unmasked t (unmasked m (masked (unmasked cc (masked (unmasked u (unmasked sr (unmasked x (unmasked b (rfl : 0x3#6 &&& 0x3F#6 = 0x3#6))))) (rfl : 0x0#1 &&& 0x1#1 = 0x0#1))) (rfl : 0x2#4 &&& 0xF#4 = 0x2#4)))) rfl rfl (congr (congr (congr (congr (congr (congr (congrArg Instr.ldwIndexed (high 21 16 _ t (high 16 15 _ m (high 15 11 _ (0x2#4) (high 11 9 _ cc (high 9 8 _ (0x0#1) (high 8 7 _ u (high 7 5 _ sr (high 5 0 _ x (low (0x3#6) b) rfl) rfl) rfl) rfl) rfl) rfl) rfl) rfl)) (high 16 11 _ t (high 11 10 _ m (high 10 6 _ (0x2#4) (high 6 4 _ cc (high 4 3 _ (0x0#1) (high 3 2 _ u (high 2 0 _ sr (low (0x3#6 ++ b) x) rfl) rfl) rfl) rfl) rfl) rfl) rfl)) (high 14 9 _ t (high 9 8 _ m (high 8 4 _ (0x2#4) (high 4 2 _ cc (high 2 1 _ (0x0#1) (high 1 0 _ u (low (0x3#6 ++ b ++ x) sr) rfl) rfl) rfl) rfl) rfl) rfl)) (high 13 8 _ t (high 8 7 _ m (high 7 3 _ (0x2#4) (high 3 1 _ cc (high 1 0 _ (0x0#1) (low (0x3#6 ++ b ++ x ++ sr) u) rfl) rfl) rfl) rfl) rfl)) (high 10 5 _ t (high 5 4 _ m (high 4 0 _ (0x2#4) (low (0x3#6 ++ b ++ x ++ sr ++ u ++ 0x0#1) cc) rfl) rfl) rfl)) (high 5 0 _ t (low (0x3#6 ++ b ++ x ++ sr ++ u ++ 0x0#1 ++ cc ++ 0x2#4) m) rfl)) (low (0x3#6 ++ b ++ x ++ sr ++ u ++ 0x0#1 ++ cc ++ 0x2#4 ++ m) t))

theorem InTable.lddShort (b : BitVec 5) (im5 : BitVec 5) (sr : BitVec 2) (a : BitVec 1) (cc : BitVec 2) (m : BitVec 1) (t : BitVec 5) : InTable.Statement (.lddShort b im5 sr a cc m t) :=
  of_index 18 _ rfl (unmasked t (unmasked m (masked (unmasked cc (masked (unmasked a (unmasked sr (unmasked im5 (unmasked b (rfl : 0x3#6 &&& 0x3F#6 = 0x3#6))))) (rfl : 0x1#1 &&& 0x1#1 = 0x1#1))) (rfl : 0x3#4 &&& 0xF#4 = 0x3#4)))) rfl rfl (congr (congr (congr (congr (congr (congr (congrArg Instr.lddShort (high 21 16 _ t (high 16 15 _ m (high 15 11 _ (0x3#4) (high 11 9 _ cc (high 9 8 _ (0x1#1) (high 8 7 _ a (high 7 5 _ sr (high 5 0 _ im5 (low (0x3#6) b) rfl) rfl) rfl) rfl) rfl) rfl) rfl) rfl)) (high 16 11 _ t (high 11 10 _ m (high 10 6 _ (0x3#4) (high 6 4 _ cc (high 4 3 _ (0x1#1) (high 3 2 _ a (high 2 0 _ sr (low (0x3#6 ++ b) im5) rfl) rfl) rfl) rfl) rfl) rfl) rfl)) (high 14 9 _ t (high 9 8 _ m (high 8 4 _ (0x3#4) (high 4 2 _ cc (high 2 1 _ (0x1#1) (high 1 0 _ a (low (0x3#6 ++ b ++ im5) sr) rfl) rfl) rfl) rfl) rfl) rfl)) (high 13 8 _ t (high 8 7 _ m (high 7 3 _ (0x3#4) (high 3 1 _ cc (high 1 0 _ (0x1#1) (low (0x3#6 ++ b ++ im5 ++ sr) a) rfl) rfl) rfl) rfl) rfl)) (high 10 5 _ t (high 5 4 _ m (high 4 0 _ (0x3#4) (low (0x3#6 ++ b ++ im5 ++ sr ++ a ++ 0x1#1) cc) rfl) rfl) rfl)) (high 5 0 _ t (low (0x3#6 ++ b ++ im5 ++ sr ++ a ++ 0x1#1 ++ cc ++ 0x3#4) m) rfl)) (low (0x3#6 ++ b ++ im5 ++ sr ++ a ++ 0x1#1 ++ cc ++ 0x3#4 ++ m) t))

theorem InTable.lddIndexed (b : BitVec 5) (x : BitVec 5) (sr : BitVec 2) (u : BitVec 1) (cc : BitVec 2) (m : BitVec 1) (t : BitVec 5) : InTable.Statement (.lddIndexed b x sr u cc m t) :=
  of_index 19 _ rfl (unmasked t (unmasked m (masked (unmasked cc (masked (unmasked u (unmasked sr (unmasked x (unmasked b (rfl : 0x3#6 &&& 0x3F#6 = 0x3#6))))) (rfl : 0x0#1 &&& 0x1#1 = 0x0#1))) (rfl : 0x3#4 &&& 0xF#4 = 0x3#4)))) rfl rfl (congr (congr (congr (congr (congr (congr (congrArg Instr.lddIndexed (high 21 16 _ t (high 16 15 _ m (high 15 11 _ (0x3#4) (high 11 9 _ cc (high 9 8 _ (0x0#1) (high 8 7 _ u (high 7 5 _ sr (high 5 0 _ x (low (0x3#6) b) rfl) rfl) rfl) rfl) rfl) rfl) rfl) rfl)) (high 16 11 _ t (high 11 10 _ m (high 10 6 _ (0x3#4) (high 6 4 _ cc (high 4 3 _ (0x0#1) (high 3 2 _ u (high 2 0 _ sr (low (0x3#6 ++ b) x) rfl) rfl) rfl) rfl) rfl) rfl) rfl)) (high 14 9 _ t (high 9 8 _ m (high 8 4 _ (0x3#4) (high 4 2 _ cc (high 2 1 _ (0x0#1) (high 1 0 _ u (low (0x3#6 ++ b ++ x) sr) rfl) rfl) rfl) rfl) rfl) rfl)) (high 13 8 _ t (high 8 7 _ m (high 7 3 _ (0x3#4) (high 3 1 _ cc (high 1 0 _ (0x0#1) (low (0x3#6 ++ b ++ x ++ sr) u) rfl) rfl) rfl) rfl) rfl)) (high 10 5 _ t (high 5 4 _ m (high 4 0 _ (0x3#4) (low (0x3#6 ++ b ++ x ++ sr ++ u ++ 0x0#1) cc) rfl) rfl) rfl)) (high 5 0 _ t (low (0x3#6 ++ b ++ x ++ sr ++ u ++ 0x0#1 ++ cc ++ 0x3#4) m) rfl)) (low (0x3#6 ++ b ++ x ++ sr ++ u ++ 0x0#1 ++ cc ++ 0x3#4 ++ m) t))

theorem InTable.lddaShort (b : BitVec 5) (im5 : BitVec 5) (a : BitVec 1) (cc : BitVec 2) (m : BitVec 1) (t : BitVec 5) : InTable.Statement (.lddaShort b im5 a cc m t) :=
  of_index 20 _ rfl (unmasked t (unmasked m (masked (unmasked cc (masked (unmasked a (masked (unmasked im5 (unmasked b (rfl : 0x3#6 &&& 0x3F#6 = 0x3#6))) (rfl : 0x0#2 &&& 0x3#2 = 0x0#2))) (rfl : 0x1#1 &&& 0x1#1 = 0x1#1))) (rfl : 0x4#4 &&& 0xF#4 = 0x4#4)))) rfl rfl (congr (congr (congr (congr (congr (congrArg Instr.lddaShort (high 21 16 _ t (high 16 15 _ m (high 15 11 _ (0x4#4) (high 11 9 _ cc (high 9 8 _ (0x1#1) (high 8 7 _ a (high 7 5 _ (0x0#2) (high 5 0 _ im5 (low (0x3#6) b) rfl) rfl) rfl) rfl) rfl) rfl) rfl) rfl)) (high 16 11 _ t (high 11 10 _ m (high 10 6 _ (0x4#4) (high 6 4 _ cc (high 4 3 _ (0x1#1) (high 3 2 _ a (high 2 0 _ (0x0#2) (low (0x3#6 ++ b) im5) rfl) rfl) rfl) rfl) rfl) rfl) rfl)) (high 13 8 _ t (high 8 7 _ m (high 7 3 _ (0x4#4) (high 3 1 _ cc (high 1 0 _ (0x1#1) (low (0x3#6 ++ b ++ im5 ++ 0x0#2) a) rfl) rfl) rfl) rfl) rfl)) (high 10 5 _ t (high 5 4 _ m (high 4 0 _ (0x4#4) (low (0x3#6 ++ b ++ im5 ++ 0x0#2 ++ a ++ 0x1#1) cc) rfl) rfl) rfl)) (high 5 0 _ t (low (0x3#6 ++ b ++ im5 ++ 0x0#2 ++ a ++ 0x1#1 ++ cc ++ 0x4#4) m) rfl)) (low (0x3#6 ++ b ++ im5 ++ 0x0#2 ++ a ++ 0x1#1 ++ cc ++ 0x4#4 ++ m) t))

theorem InTable.lddaIndexed (b : BitVec 5) (x : BitVec 5) (u : BitVec 1) (cc : BitVec 2) (m : BitVec 1) (t : BitVec 5) : InTable.Statement (.lddaIndexed b x u cc m t) :=
  of_index 21 _ rfl (unmasked t (unmasked m (masked (unmasked cc (masked (unmasked u (masked (unmasked x (unmasked b (rfl : 0x3#6 &&& 0x3F#6 = 0x3#6))) (rfl : 0x0#2 &&& 0x3#2 = 0x0#2))) (rfl : 0x0#1 &&& 0x1#1 = 0x0#1))) (rfl : 0x4#4 &&& 0xF#4 = 0x4#4)))) rfl rfl (congr (congr (congr (congr (congr (congrArg Instr.lddaIndexed (high 21 16 _ t (high 16 15 _ m (high 15 11 _ (0x4#4) (high 11 9 _ cc (high 9 8 _ (0x0#1) (high 8 7 _ u (high 7 5 _ (0x0#2) (high 5 0 _ x (low (0x3#6) b) rfl) rfl) rfl) rfl) rfl) rfl) rfl) rfl)) (high 16 11 _ t (high 11 10 _ m (high 10 6 _ (0x4#4) (high 6 4 _ cc (high 4 3 _ (0x0#1) (high 3 2 _ u (high 2 0 _ (0x0#2) (low (0x3#6 ++ b) x) rfl) rfl) rfl) rfl) rfl) rfl) rfl)) (high 13 8 _ t (high 8 7 _ m (high 7 3 _ (0x4#4) (high 3 1 _ cc (high 1 0 _ (0x0#1) (low (0x3#6 ++ b ++ x ++ 0x0#2) u) rfl) rfl) rfl) rfl) rfl)) (high 10 5 _ t (high 5 4 _ m (high 4 0 _ (0x4#4) (low (0x3#6 ++ b ++ x ++ 0x0#2 ++ u ++ 0x0#1) cc) rfl) rfl) rfl)) (high 5 0 _ t (low (0x3#6 ++ b ++ x ++ 0x0#2 ++ u ++ 0x0#1 ++ cc ++ 0x4#4) m) rfl)) (low (0x3#6 ++ b ++ x ++ 0x0#2 ++ u ++ 0x0#1 ++ cc ++ 0x4#4 ++ m) t))

theorem InTable.ldcdShort (b : BitVec 5) (im5 : BitVec 5) (sr : BitVec 2) (a : BitVec 1) (cc : BitVec 2) (m : BitVec 1) (t : BitVec 5) : InTable.Statement (.ldcdShort b im5 sr a cc m t) :=
  of_index 22 _ rfl (unmasked t (unmasked m (masked (unmasked cc (masked (unmasked a (unmasked sr (unmasked im5 (unmasked b (rfl : 0x3#6 &&& 0x3F#6 = 0x3#6))))) (rfl : 0x1#1 &&& 0x1#1 = 0x1#1))) (rfl : 0x5#4 &&& 0xF#4 = 0x5#4)))) rfl rfl (congr (congr (congr (congr (congr (congr (congrArg Instr.ldcdShort (high 21 16 _ t (high 16 15 _ m (high 15 11 _ (0x5#4) (high 11 9 _ cc (high 9 8 _ (0x1#1) (high 8 7 _ a (high 7 5 _ sr (high 5 0 _ im5 (low (0x3#6) b) rfl) rfl) rfl) rfl) rfl) rfl) rfl) rfl)) (high 16 11 _ t (high 11 10 _ m (high 10 6 _ (0x5#4) (high 6 4 _ cc (high 4 3 _ (0x1#1) (high 3 2 _ a (high 2 0 _ sr (low (0x3#6 ++ b) im5) rfl) rfl) rfl) rfl) rfl) rfl) rfl)) (high 14 9 _ t (high 9 8 _ m (high 8 4 _ (0x5#4) (high 4 2 _ cc (high 2 1 _ (0x1#1) (high 1 0 _ a (low (0x3#6 ++ b ++ im5) sr) rfl) rfl) rfl) rfl) rfl) rfl)) (high 13 8 _ t (high 8 7 _ m (high 7 3 _ (0x5#4) (high 3 1 _ cc (high 1 0 _ (0x1#1) (low (0x3#6 ++ b ++ im5 ++ sr) a) rfl) rfl) rfl) rfl) rfl)) (high 10 5 _ t (high 5 4 _ m (high 4 0 _ (0x5#4) (low (0x3#6 ++ b ++ im5 ++ sr ++ a ++ 0x1#1) cc) rfl) rfl) rfl)) (high 5 0 _ t (low (0x3#6 ++ b ++ im5 ++ sr ++ a ++ 0x1#1 ++ cc ++ 0x5#4) m) rfl)) (low (0x3#6 ++ b ++ im5 ++ sr ++ a ++ 0x1#1 ++ cc ++ 0x5#4 ++ m) t))

theorem InTable.ldcdIndexed (b : BitVec 5) (x : BitVec 5) (sr : BitVec 2) (u : BitVec 1) (cc : BitVec 2) (m : BitVec 1) (t : BitVec 5) : InTable.Statement (.ldcdIndexed b x sr u cc m t) :=
  of_index 23 _ rfl (unmasked t (unmasked m (masked (unmasked cc (masked (unmasked u (unmasked sr (unmasked x (unmasked b (rfl : 0x3#6 &&& 0x3F#6 = 0x3#6))))) (rfl : 0x0#1 &&& 0x1#1 = 0x0#1))) (rfl : 0x5#4 &&& 0xF#4 = 0x5#4)))) rfl rfl (congr (congr (congr (congr (congr (congr (congrArg Instr.ldcdIndexed (high 21 16 _ t (high 16 15 _ m (high 15 11 _ (0x5#4) (high 11 9 _ cc (high 9 8 _ (0x0#1) (high 8 7 _ u (high 7 5 _ sr (high 5 0 _ x (low (0x3#6) b) rfl) rfl) rfl) rfl) rfl) rfl) rfl) rfl)) (high 16 11 _ t (high 11 10 _ m (high 10 6 _ (0x5#4) (high 6 4 _ cc (high 4 3 _ (0x0#1) (high 3 2 _ u (high 2 0 _ sr (low (0x3#6 ++ b) x) rfl) rfl) rfl) rfl) rfl) rfl) rfl)) (high 14 9 _ t (high 9 8 _ m (high 8 4 _ (0x5#4) (high 4 2 _ cc (high 2 1 _ (0x0#1) (high 1 0 _ u (low (0x3#6 ++ b ++ x) sr) rfl) rfl) rfl) rfl) rfl) rfl)) (high 13 8 _ t (high 8 7 _ m (high 7 3 _ (0x5#4) (high 3 1 _ cc (high 1 0 _ (0x0#1) (low (0x3#6 ++ b ++ x ++ sr) u) rfl) rfl) rfl) rfl) rfl)) (high 10 5 _ t (high 5 4 _ m (high 4 0 _ (0x5#4) (low (0x3#6 ++ b ++ x ++ sr ++ u ++ 0x0#1) cc) rfl) rfl) rfl)) (high 5 0 _ t (low (0x3#6 ++ b ++ x ++ sr ++ u ++ 0x0#1 ++ cc ++ 0x5#4) m) rfl)) (low (0x3#6 ++ b ++ x ++ sr ++ u ++ 0x0#1 ++ cc ++ 0x5#4 ++ m) t))

theorem InTable.ldwaShort (b : BitVec 5) (im5 : BitVec 5) (a : BitVec 1) (cc : BitVec 2) (m : BitVec 1) (t : BitVec 5) : InTable.Statement (.ldwaShort b im5 a cc m t) :=
  of_index 24 _ rfl (unmasked t (unmasked m (masked (unmasked cc (masked (unmasked a (masked (unmasked im5 (unmasked b (rfl : 0x3#6 &&& 0x3F#6 = 0x3#6))) (rfl : 0x0#2 &&& 0x3#2 = 0x0#2))) (rfl : 0x1#1 &&& 0x1#1 = 0x1#1))) (rfl : 0x6#4 &&& 0xF#4 = 0x6#4)))) rfl rfl (congr (congr (congr (congr (congr (congrArg Instr.ldwaShort (high 21 16 _ t (high 16 15 _ m (high 15 11 _ (0x6#4) (high 11 9 _ cc (high 9 8 _ (0x1#1) (high 8 7 _ a (high 7 5 _ (0x0#2) (high 5 0 _ im5 (low (0x3#6) b) rfl) rfl) rfl) rfl) rfl) rfl) rfl) rfl)) (high 16 11 _ t (high 11 10 _ m (high 10 6 _ (0x6#4) (high 6 4 _ cc (high 4 3 _ (0x1#1) (high 3 2 _ a (high 2 0 _ (0x0#2) (low (0x3#6 ++ b) im5) rfl) rfl) rfl) rfl) rfl) rfl) rfl)) (high 13 8 _ t (high 8 7 _ m (high 7 3 _ (0x6#4) (high 3 1 _ cc (high 1 0 _ (0x1#1) (low (0x3#6 ++ b ++ im5 ++ 0x0#2) a) rfl) rfl) rfl) rfl) rfl)) (high 10 5 _ t (high 5 4 _ m (high 4 0 _ (0x6#4) (low (0x3#6 ++ b ++ im5 ++ 0x0#2 ++ a ++ 0x1#1) cc) rfl) rfl) rfl)) (high 5 0 _ t (low (0x3#6 ++ b ++ im5 ++ 0x0#2 ++ a ++ 0x1#1 ++ cc ++ 0x6#4) m) rfl)) (low (0x3#6 ++ b ++ im5 ++ 0x0#2 ++ a ++ 0x1#1 ++ cc ++ 0x6#4 ++ m) t))

theorem InTable.ldwaIndexed (b : BitVec 5) (x : BitVec 5) (u : BitVec 1) (cc : BitVec 2) (m : BitVec 1) (t : BitVec 5) : InTable.Statement (.ldwaIndexed b x u cc m t) :=
  of_index 25 _ rfl (unmasked t (unmasked m (masked (unmasked cc (masked (unmasked u (masked (unmasked x (unmasked b (rfl : 0x3#6 &&& 0x3F#6 = 0x3#6))) (rfl : 0x0#2 &&& 0x3#2 = 0x0#2))) (rfl : 0x0#1 &&& 0x1#1 = 0x0#1))) (rfl : 0x6#4 &&& 0xF#4 = 0x6#4)))) rfl rfl (congr (congr (congr (congr (congr (congrArg Instr.ldwaIndexed (high 21 16 _ t (high 16 15 _ m (high 15 11 _ (0x6#4) (high 11 9 _ cc (high 9 8 _ (0x0#1) (high 8 7 _ u (high 7 5 _ (0x0#2) (high 5 0 _ x (low (0x3#6) b) rfl) rfl) rfl) rfl) rfl) rfl) rfl) rfl)) (high 16 11 _ t (high 11 10 _ m (high 10 6 _ (0x6#4) (high 6 4 _ cc (high 4 3 _ (0x0#1) (high 3 2 _ u (high 2 0 _ (0x0#2) (low (0x3#6 ++ b) x) rfl) rfl) rfl) rfl) rfl) rfl) rfl)) (high 13 8 _ t (high 8 7 _ m (high 7 3 _ (0x6#4) (high 3 1 _ cc (high 1 0 _ (0x0#1) (low (0x3#6 ++ b ++ x ++ 0x0#2) u) rfl) rfl) rfl) rfl) rfl)) (high 10 5 _ t (high 5 4 _ m (high 4 0 _ (0x6#4) (low (0x3#6 ++ b ++ x ++ 0x0#2 ++ u ++ 0x0#1) cc) rfl) rfl) rfl)) (high 5 0 _ t (low (0x3#6 ++ b ++ x ++ 0x0#2 ++ u ++ 0x0#1 ++ cc ++ 0x6#4) m) rfl)) (low (0x3#6 ++ b ++ x ++ 0x0#2 ++ u ++ 0x0#1 ++ cc ++ 0x6#4 ++ m) t))

theorem InTable.ldcwShort (b : BitVec 5) (im5 : BitVec 5) (sr : BitVec 2) (a : BitVec 1) (cc : BitVec 2) (m : BitVec 1) (t : BitVec 5) : InTable.Statement (.ldcwShort b im5 sr a cc m t) :=
  of_index 26 _ rfl (unmasked t (unmasked m (masked (unmasked cc (masked (unmasked a (unmasked sr (unmasked im5 (unmasked b (rfl : 0x3#6 &&& 0x3F#6 = 0x3#6))))) (rfl : 0x1#1 &&& 0x1#1 = 0x1#1))) (rfl : 0x7#4 &&& 0xF#4 = 0x7#4)))) rfl rfl (congr (congr (congr (congr (congr (congr (congrArg Instr.ldcwShort (high 21 16 _ t (high 16 15 _ m (high 15 11 _ (0x7#4) (high 11 9 _ cc (high 9 8 _ (0x1#1) (high 8 7 _ a (high 7 5 _ sr (high 5 0 _ im5 (low (0x3#6) b) rfl) rfl) rfl) rfl) rfl) rfl) rfl) rfl)) (high 16 11 _ t (high 11 10 _ m (high 10 6 _ (0x7#4) (high 6 4 _ cc (high 4 3 _ (0x1#1) (high 3 2 _ a (high 2 0 _ sr (low (0x3#6 ++ b) im5) rfl) rfl) rfl) rfl) rfl) rfl) rfl)) (high 14 9 _ t (high 9 8 _ m (high 8 4 _ (0x7#4) (high 4 2 _ cc (high 2 1 _ (0x1#1) (high 1 0 _ a (low (0x3#6 ++ b ++ im5) sr) rfl) rfl) rfl) rfl) rfl) rfl)) (high 13 8 _ t (high 8 7 _ m (high 7 3 _ (0x7#4) (high 3 1 _ cc (high 1 0 _ (0x1#1) (low (0x3#6 ++ b ++ im5 ++ sr) a) rfl) rfl) rfl) rfl) rfl)) (high 10 5 _ t (high 5 4 _ m (high 4 0 _ (0x7#4) (low (0x3#6 ++ b ++ im5 ++ sr ++ a ++ 0x1#1) cc) rfl) rfl) rfl)) (high 5 0 _ t (low (0x3#6 ++ b ++ im5 ++ sr ++ a ++ 0x1#1 ++ cc ++ 0x7#4) m) rfl)) (low (0x3#6 ++ b ++ im5 ++ sr ++ a ++ 0x1#1 ++ cc ++ 0x7#4 ++ m) t))

theorem InTable.ldcwIndexed (b : BitVec 5) (x : BitVec 5) (sr : BitVec 2) (u : BitVec 1) (cc : BitVec 2) (m : BitVec 1) (t : BitVec 5) : InTable.Statement (.ldcwIndexed b x sr u cc m t) :=
  of_index 27 _ rfl (unmasked t (unmasked m (masked (unmasked cc (masked (unmasked u (unmasked sr (unmasked x (unmasked b (rfl : 0x3#6 &&& 0x3F#6 = 0x3#6))))) (rfl : 0x0#1 &&& 0x1#1 = 0x0#1))) (rfl : 0x7#4 &&& 0xF#4 = 0x7#4)))) rfl rfl (congr (congr (congr (congr (congr (congr (congrArg Instr.ldcwIndexed (high 21 16 _ t (high 16 15 _ m (high 15 11 _ (0x7#4) (high 11 9 _ cc (high 9 8 _ (0x0#1) (high 8 7 _ u (high 7 5 _ sr (high 5 0 _ x (low (0x3#6) b) rfl) rfl) rfl) rfl) rfl) rfl) rfl) rfl)) (high 16 11 _ t (high 11 10 _ m (high 10 6 _ (0x7#4) (high 6 4 _ cc (high 4 3 _ (0x0#1) (high 3 2 _ u (high 2 0 _ sr (low (0x3#6 ++ b) x) rfl) rfl) rfl) rfl) rfl) rfl) rfl)) (high 14 9 _ t (high 9 8 _ m (high 8 4 _ (0x7#4) (high 4 2 _ cc (high 2 1 _ (0x0#1) (high 1 0 _ u (low (0x3#6 ++ b ++ x) sr) rfl) rfl) rfl) rfl) rfl) rfl)) (high 13 8 _ t (high 8 7 _ m (high 7 3 _ (0x7#4) (high 3 1 _ cc (high 1 0 _ (0x0#1) (low (0x3#6 ++ b ++ x ++ sr) u) rfl) rfl) rfl) rfl) rfl)) (high 10 5 _ t (high 5 4 _ m (high 4 0 _ (0x7#4) (low (0x3#6 ++ b ++ x ++ sr ++ u ++ 0x0#1) cc) rfl) rfl) rfl)) (high 5 0 _ t (low (0x3#6 ++ b ++ x ++ sr ++ u ++ 0x0#1 ++ cc ++ 0x7#4) m) rfl)) (low (0x3#6 ++ b ++ x ++ sr ++ u ++ 0x0#1 ++ cc ++ 0x7#4 ++ m) t))

theorem InTable.stbShort (b : BitVec 5) (r : BitVec 5) (sr : BitVec 2) (a : BitVec 1) (cc : BitVec 2) (m : BitVec 1) (im5 : BitVec 5) : InTable.Statement (.stbShort b r sr a cc m im5) :=
  of_index 28 _ rfl (unmasked im5 (unmasked m (masked (unmasked cc (masked (unmasked a (unmasked sr (unmasked r (unmasked b (rfl : 0x3#6 &&& 0x3F#6 = 0x3#6))))) (rfl : 0x1#1 &&& 0x1#1 = 0x1#1))) (rfl : 0x8#4 &&& 0xF#4 = 0x8#4)))) rfl rfl (congr (congr (congr (congr (congr (congr (congrArg Instr.stbShort (high 21 16 _ im5 (high 16 15 _ m (high 15 11 _ (0x8#4) (high 11 9 _ cc (high 9 8 _ (0x1#1) (high 8 7 _ a (high 7 5 _ sr (high 5 0 _ r (low (0x3#6) b) rfl) rfl) rfl) rfl) rfl) rfl) rfl) rfl)) (high 16 11 _ im5 (high 11 10 _ m (high 10 6 _ (0x8#4) (high 6 4 _ cc (high 4 3 _ (0x1#1) (high 3 2 _ a (high 2 0 _ sr (low (0x3#6 ++ b) r) rfl) rfl) rfl) rfl) rfl) rfl) rfl)) (high 14 9 _ im5 (high 9 8 _ m (high 8 4 _ (0x8#4) (high 4 2 _ cc (high 2 1 _ (0x1#1) (high 1 0 _ a (low (0x3#6 ++ b ++ r) sr) rfl) rfl) rfl) rfl) rfl) rfl)) (high 13 8 _ im5 (high 8 7 _ m (high 7 3 _ (0x8#4) (high 3 1 _ cc (high 1 0 _ (0x1#1) (low (0x3#6 ++ b ++ r ++ sr) a) rfl) rfl) rfl) rfl) rfl)) (high 10 5 _ im5 (high 5 4 _ m (high 4 0 _ (0x8#4) (low (0x3#6 ++ b ++ r ++ sr ++ a ++ 0x1#1) cc) rfl) rfl) rfl)) (high 5 0 _ im5 (low (0x3#6 ++ b ++ r ++ sr ++ a ++ 0x1#1 ++ cc ++ 0x8#4) m) rfl)) (low (0x3#6 ++ b ++ r ++ sr ++ a ++ 0x1#1 ++ cc ++ 0x8#4 ++ m) im5))

theorem InTable.sthShort (b : BitVec 5) (r : BitVec 5) (sr : BitVec 2) (a : BitVec 1) (cc : BitVec 2) (m : BitVec 1) (im5 : BitVec 5) : InTable.Statement (.sthShort b r sr a cc m im5) :=
  of_index 29 _ rfl (unmasked im5 (unmasked m (masked (unmasked cc (masked (unmasked a (unmasked sr (unmasked r (unmasked b (rfl : 0x3#6 &&& 0x3F#6 = 0x3#6))))) (rfl : 0x1#1 &&& 0x1#1 = 0x1#1))) (rfl : 0x9#4 &&& 0xF#4 = 0x9#4)))) rfl rfl (congr (congr (congr (congr (congr (congr (congrArg Instr.sthShort (high 21 16 _ im5 (high 16 15 _ m (high 15 11 _ (0x9#4) (high 11 9 _ cc (high 9 8 _ (0x1#1) (high 8 7 _ a (high 7 5 _ sr (high 5 0 _ r (low (0x3#6) b) rfl) rfl) rfl) rfl) rfl) rfl) rfl) rfl)) (high 16 11 _ im5 (high 11 10 _ m (high 10 6 _ (0x9#4) (high 6 4 _ cc (high 4 3 _ (0x1#1) (high 3 2 _ a (high 2 0 _ sr (low (0x3#6 ++ b) r) rfl) rfl) rfl) rfl) rfl) rfl) rfl)) (high 14 9 _ im5 (high 9 8 _ m (high 8 4 _ (0x9#4) (high 4 2 _ cc (high 2 1 _ (0x1#1) (high 1 0 _ a (low (0x3#6 ++ b ++ r) sr) rfl) rfl) rfl) rfl) rfl) rfl)) (high 13 8 _ im5 (high 8 7 _ m (high 7 3 _ (0x9#4) (high 3 1 _ cc (high 1 0 _ (0x1#1) (low (0x3#6 ++ b ++ r ++ sr) a) rfl) rfl) rfl) rfl) rfl)) (high 10 5 _ im5 (high 5 4 _ m (high 4 0 _ (0x9#4) (low (0x3#6 ++ b ++ r ++ sr ++ a ++ 0x1#1) cc) rfl) rfl) rfl)) (high 5 0 _ im5 (low (0x3#6 ++ b ++ r ++ sr ++ a ++ 0x1#1 ++ cc ++ 0x9#4) m) rfl)) (low (0x3#6 ++ b ++ r ++ sr ++ a ++ 0x1#1 ++ cc ++ 0x9#4 ++ m) im5))

theorem InTable.stwShort (b : BitVec 5) (r : BitVec 5) (sr : BitVec 2) (a : BitVec 1) (cc : BitVec 2) (m : BitVec 1) (im5 : BitVec 5) : InTable.Statement (.stwShort b r sr a cc m im5) :=
  of_index 30 _ rfl (unmasked im5 (unmasked m (masked (unmasked cc (masked (unmasked a (unmasked sr (unmasked r (unmasked b (rfl : 0x3#6 &&& 0x3F#6 = 0x3#6))))) (rfl : 0x1#1 &&& 0x1#1 = 0x1#1))) (rfl : 0xA#4 &&& 0xF#4 = 0xA#4)))) rfl rfl (congr (congr (congr (congr (congr (congr (congrArg Instr.stwShort (high 21 16 _ im5 (high 16 15 _ m (high 15 11 _ (0xA#4) (high 11 9 _ cc (high 9 8 _ (0x1#1) (high 8 7 _ a (high 7 5 _ sr (high 5 0 _ r (low (0x3#6) b) rfl) rfl) rfl) rfl) rfl) rfl) rfl) rfl)) (high 16 11 _ im5 (high 11 10 _ m (high 10 6 _ (0xA#4) (high 6 4 _ cc (high 4 3 _ (0x1#1) (high 3 2 _ a (high 2 0 _ sr (low (0x3#6 ++ b) r) rfl) rfl) rfl) rfl) rfl) rfl) rfl)) (high 14 9 _ im5 (high 9 8 _ m (high 8 4 _ (0xA#4) (high 4 2 _ cc (high 2 1 _ (0x1#1) (high 1 0 _ a (low (0x3#6 ++ b ++ r) sr) rfl) rfl) rfl) rfl) rfl) rfl)) (high 13 8 _ im5 (high 8 7 _ m (high 7 3 _ (0xA#4) (high 3 1 _ cc (high 1 0 _ (0x1#1) (low (0x3#6 ++ b ++ r ++ sr) a) rfl) rfl) rfl) rfl) rfl)) (high 10 5 _ im5 (high 5 4 _ m (high 4 0 _ (0xA#4) (low (0x3#6 ++ b ++ r ++ sr ++ a ++ 0x1#1) cc) rfl) rfl) rfl)) (high 5 0 _ im5 (low (0x3#6 ++ b ++ r ++ sr ++ a ++ 0x1#1 ++ cc ++ 0xA#4) m) rfl)) (low (0x3#6 ++ b ++ r ++ sr ++ a ++ 0x1#1 ++ cc ++ 0xA#4 ++ m) im5))

theorem InTable.stdShort (b : BitVec 5) (r : BitVec 5) (sr : BitVec 2) (a : BitVec 1) (cc : BitVec 2) (m : BitVec 1) (im5 : BitVec 5) : InTable.Statement (.stdShort b r sr a cc m im5) :=
  of_index 31 _ rfl (unmasked im5 (unmasked m (masked (unmasked cc (masked (unmasked a (unmasked sr (unmasked r (unmasked b (rfl : 0x3#6 &&& 0x3F#6 = 0x3#6))))) (rfl : 0x1#1 &&& 0x1#1 = 0x1#1))) (rfl : 0xB#4 &&& 0xF#4 = 0xB#4)))) rfl rfl (congr (congr (congr (congr (congr (congr (congrArg Instr.stdShort (high 21 16 _ im5 (high 16 15 _ m (high 15 11 _ (0xB#4) (high 11 9 _ cc (high 9 8 _ (0x1#1) (high 8 7 _ a (high 7 5 _ sr (high 5 0 _ r (low (0x3#6) b) rfl) rfl) rfl) rfl) rfl) rfl) rfl) rfl)) (high 16 11 _ im5 (high 11 10 _ m (high 10 6 _ (0xB#4) (high 6 4 _ cc (high 4 3 _ (0x1#1) (high 3 2 _ a (high 2 0 _ sr (low (0x3#6 ++ b) r) rfl) rfl) rfl) rfl) rfl) rfl) rfl)) (high 14 9 _ im5 (high 9 8 _ m (high 8 4 _ (0xB#4) (high 4 2 _ cc (high 2 1 _ (0x1#1) (high 1 0 _ a (low (0x3#6 ++ b ++ r) sr) rfl) rfl) rfl) rfl) rfl) rfl)) (high 13 8 _ im5 (high 8 7 _ m (high 7 3 _ (0xB#4) (high 3 1 _ cc (high 1 0 _ (0x1#1) (low (0x3#6 ++ b ++ r ++ sr) a) rfl) rfl) rfl) rfl) rfl)) (high 10 5 _ im5 (high 5 4 _ m (high 4 0 _ (0xB#4) (low (0x3#6 ++ b ++ r ++ sr ++ a ++ 0x1#1) cc) rfl) rfl) rfl)) (high 5 0 _ im5 (low (0x3#6 ++ b ++ r ++ sr ++ a ++ 0x1#1 ++ cc ++ 0xB#4) m) rfl)) (low (0x3#6 ++ b ++ r ++ sr ++ a ++ 0x1#1 ++ cc ++ 0xB#4 ++ m) im5))

theorem InTable.stby (b : BitVec 5) (r : BitVec 5) (sr : BitVec 2) (a : BitVec 1) (cc : BitVec 2) (m : BitVec 1) (im5 : BitVec 5) : InTable.Statement (.stby b r sr a cc m im5) :=
  of_index 32 _ rfl (unmasked im5 (unmasked m (masked (unmasked cc (masked (unmasked a (unmasked sr (unmasked r (unmasked b (rfl : 0x3#6 &&& 0x3F#6 = 0x3#6))))) (rfl : 0x1#1 &&& 0x1#1 = 0x1#1))) (rfl : 0xC#4 &&& 0xF#4 = 0xC#4)))) rfl rfl (congr (congr (congr (congr (congr (congr (congrArg Instr.stby (high 21 16 _ im5 (high 16 15 _ m (high 15 11 _ (0xC#4) (high 11 9 _ cc (high 9 8 _ (0x1#1) (high 8 7 _ a (high 7 5 _ sr (high 5 0 _ r (low (0x3#6) b) rfl) rfl) rfl) rfl) rfl) rfl) rfl) rfl)) (high 16 11 _ im5 (high 11 10 _ m (high 10 6 _ (0xC#4) (high 6 4 _ cc (high 4 3 _ (0x1#1) (high 3 2 _ a (high 2 0 _ sr (low (0x3#6 ++ b) r) rfl) rfl) rfl) rfl) rfl) rfl) rfl)) (high 14 9 _ im5 (high 9 8 _ m (high 8 4 _ (0xC#4) (high 4 2 _ cc (high 2 1 _ (0x1#1) (high 1 0 _ a (low (0x3#6 ++ b ++ r) sr) rfl) rfl) rfl) rfl) rfl) rfl)) (high 13 8 _ im5 (high 8 7 _ m (high 7 3 _ (0xC#4) (high 3 1 _ cc (high 1 0 _ (0x1#1) (low (0x3#6 ++ b ++ r ++ sr) a) rfl) rfl) rfl) rfl) rfl)) (high 10 5 _ im5 (high 5 4 _ m (high 4 0 _ (0xC#4) (low (0x3#6 ++ b ++ r ++ sr ++ a ++ 0x1#1) cc) rfl) rfl) rfl)) (high 5 0 _ im5 (low (0x3#6 ++ b ++ r ++ sr ++ a ++ 0x1#1 ++ cc ++ 0xC#4) m) rfl)) (low (0x3#6 ++ b ++ r ++ sr ++ a ++ 0x1#1 ++ cc ++ 0xC#4 ++ m) im5))

theorem InTable.stdby (b : BitVec 5) (r : BitVec 5) (sr : BitVec 2) (a : BitVec 1) (cc : BitVec 2) (m : BitVec 1) (im5 : BitVec 5) : InTable.Statement (.stdby b r sr a cc m im5) :=
  of_index 33 _ rfl (unmasked im5 (unmasked m (masked (unmasked cc (masked (unmasked a (unmasked sr (unmasked r (unmasked b (rfl : 0x3#6 &&& 0x3F#6 = 0x3#6))))) (rfl : 0x1#1 &&& 0x1#1 = 0x1#1))) (rfl : 0xD#4 &&& 0xF#4 = 0xD#4)))) rfl rfl (congr (congr (congr (congr (congr (congr (congrArg Instr.stdby (high 21 16 _ im5 (high 16 15 _ m (high 15 11 _ (0xD#4) (high 11 9 _ cc (high 9 8 _ (0x1#1) (high 8 7 _ a (high 7 5 _ sr (high 5 0 _ r (low (0x3#6) b) rfl) rfl) rfl) rfl) rfl) rfl) rfl) rfl)) (high 16 11 _ im5 (high 11 10 _ m (high 10 6 _ (0xD#4) (high 6 4 _ cc (high 4 3 _ (0x1#1) (high 3 2 _ a (high 2 0 _ sr (low (0x3#6 ++ b) r) rfl) rfl) rfl) rfl) rfl) rfl) rfl)) (high 14 9 _ im5 (high 9 8 _ m (high 8 4 _ (0xD#4) (high 4 2 _ cc (high 2 1 _ (0x1#1) (high 1 0 _ a (low (0x3#6 ++ b ++ r) sr) rfl) rfl) rfl) rfl) rfl) rfl)) (high 13 8 _ im5 (high 8 7 _ m (high 7 3 _ (0xD#4) (high 3 1 _ cc (high 1 0 _ (0x1#1) (low (0x3#6 ++ b ++ r ++ sr) a) rfl) rfl) rfl) rfl) rfl)) (high 10 5 _ im5 (high 5 4 _ m (high 4 0 _ (0xD#4) (low (0x3#6 ++ b ++ r ++ sr ++ a ++ 0x1#1) cc) rfl) rfl) rfl)) (high 5 0 _ im5 (low (0x3#6 ++ b ++ r ++ sr ++ a ++ 0x1#1 ++ cc ++ 0xD#4) m) rfl)) (low (0x3#6 ++ b ++ r ++ sr ++ a ++ 0x1#1 ++ cc ++ 0xD#4 ++ m) im5))

theorem InTable.stwa (b : BitVec 5) (r : BitVec 5) (a : BitVec 1) (cc : BitVec 2) (m : BitVec 1) (im5 : BitVec 5) : InTable.Statement (.stwa b r a cc m im5) :=
  of_index 34 _ rfl (unmasked im5 (unmasked m (masked (unmasked cc (masked (unmasked a (masked (unmasked r (unmasked b (rfl : 0x3#6 &&& 0x3F#6 = 0x3#6))) (rfl : 0x0#2 &&& 0x3#2 = 0x0#2))) (rfl : 0x1#1 &&& 0x1#1 = 0x1#1))) (rfl : 0xE#4 &&& 0xF#4 = 0xE#4)))) rfl rfl (congr (congr (congr (congr (congr (congrArg Instr.stwa (high 21 16 _ im5 (high 16 15 _ m (high 15 11 _ (0xE#4) (high 11 9 _ cc (high 9 8 _ (0x1#1) (high 8 7 _ a (high 7 5 _ (0x0#2) (high 5 0 _ r (low (0x3#6) b) rfl) rfl) rfl) rfl) rfl) rfl) rfl) rfl)) (high 16 11 _ im5 (high 11 10 _ m (high 10 6 _ (0xE#4) (high 6 4 _ cc (high 4 3 _ (0x1#1) (high 3 2 _ a (high 2 0 _ (0x0#2) (low (0x3#6 ++ b) r) rfl) rfl) rfl) rfl) rfl) rfl) rfl)) (high 13 8 _ im5 (high 8 7 _ m (high 7 3 _ (0xE#4) (high 3 1 _ cc (high 1 0 _ (0x1#1) (low (0x3#6 ++ b ++ r ++ 0x0#2) a) rfl) rfl) rfl) rfl) rfl)) (high 10 5 _ im5 (high 5 4 _ m (high 4 0 _ (0xE#4) (low (0x3#6 ++ b ++ r ++ 0x0#2 ++ a ++ 0x1#1) cc) rfl) rfl) rfl)) (high 5 0 _ im5 (low (0x3#6 ++ b ++ r ++ 0x0#2 ++ a ++ 0x1#1 ++ cc ++ 0xE#4) m) rfl)) (low (0x3#6 ++ b ++ r ++ 0x0#2 ++ a ++ 0x1#1 ++ cc ++ 0xE#4 ++ m) im5))

theorem InTable.stda (b : BitVec 5) (r : BitVec 5) (a : BitVec 1) (cc : BitVec 2) (m : BitVec 1) (im5 : BitVec 5) : InTable.Statement (.stda b r a cc m im5) :=
  of_index 35 _ rfl (unmasked im5 (unmasked m (masked (unmasked cc (masked (unmasked a (masked (unmasked r (unmasked b (rfl : 0x3#6 &&& 0x3F#6 = 0x3#6))) (rfl : 0x0#2 &&& 0x3#2 = 0x0#2))) (rfl : 0x1#1 &&& 0x1#1 = 0x1#1))) (rfl : 0xF#4 &&& 0xF#4 = 0xF#4)))) rfl rfl (congr (congr (congr (congr (congr (congrArg Instr.stda (high 21 16 _ im5 (high 16 15 _ m (high 15 11 _ (0xF#4) (high 11 9 _ cc (high 9 8 _ (0x1#1) (high 8 7 _ a (high 7 5 _ (0x0#2) (high 5 0 _ r (low (0x3#6) b) rfl) rfl) rfl) rfl) rfl) rfl) rfl) rfl)) (high 16 11 _ im5 (high 11 10 _ m (high 10 6 _ (0xF#4) (high 6 4 _ cc (high 4 3 _ (0x1#1) (high 3 2 _ a (high 2 0 _ (0x0#2) (low (0x3#6 ++ b) r) rfl) rfl) rfl) rfl) rfl) rfl) rfl)) (high 13 8 _ im5 (high 8 7 _ m (high 7 3 _ (0xF#4) (high 3 1 _ cc (high 1 0 _ (0x1#1) (low (0x3#6 ++ b ++ r ++ 0x0#2) a) rfl) rfl) rfl) rfl) rfl)) (high 10 5 _ im5 (high 5 4 _ m (high 4 0 _ (0xF#4) (low (0x3#6 ++ b ++ r ++ 0x0#2 ++ a ++ 0x1#1) cc) rfl) rfl) rfl)) (high 5 0 _ im5 (low (0x3#6 ++ b ++ r ++ 0x0#2 ++ a ++ 0x1#1 ++ cc ++ 0xF#4) m) rfl)) (low (0x3#6 ++ b ++ r ++ 0x0#2 ++ a ++ 0x1#1 ++ cc ++ 0xF#4 ++ m) im5))

theorem InTable.ldo (b : BitVec 5) (t : BitVec 5) (iv : BitVec 2) (im14 : BitVec 14) : InTable.Statement (.ldo b t iv im14) :=
  of_index 36 _ rfl (unmasked im14 (unmasked iv (unmasked t (unmasked b (rfl : 0xD#6 &&& 0x3F#6 = 0xD#6))))) rfl rfl (congr (congr (congr (congrArg Instr.ldo (high 21 7 _ im14 (high 7 5 _ iv (high 5 0 _ t (low (0xD#6) b) rfl) rfl) rfl)) (high 16 2 _ im14 (high 2 0 _ iv (low (0xD#6 ++ b) t) rfl) rfl)) (high 14 0 _ im14 (low (0xD#6 ++ b ++ t) iv) rfl)) (low (0xD#6 ++ b ++ t ++ iv) im14))

theorem InTable.ldil (t : BitVec 5) (im21 : BitVec 21) : InTable.Statement (.ldil t im21) :=
  of_index 37 _ rfl (unmasked im21 (unmasked t (rfl : 0x8#6 &&& 0x3F#6 = 0x8#6))) rfl rfl (congr (congrArg Instr.ldil (high 21 0 _ im21 (low (0x8#6) t) rfl)) (low (0x8#6 ++ t) im21))

theorem InTable.addil (r : BitVec 5) (im21 : BitVec 21) : InTable.Statement (.addil r im21) :=
  of_index 38 _ rfl (unmasked im21 (unmasked r (rfl : 0xA#6 &&& 0x3F#6 = 0xA#6))) rfl rfl (congr (congrArg Instr.addil (high 21 0 _ im21 (low (0xA#6) r) rfl)) (low (0xA#6 ++ r) im21))

theorem InTable.bl17 (t : BitVec 5) (w1 : BitVec 5) (w2 : BitVec 11) (n : BitVec 1) (w : BitVec 1) : InTable.Statement (.bl17 t w1 w2 n w) :=
  of_index 39 _ rfl (unmasked w (unmasked n (unmasked w2 (masked (unmasked w1 (unmasked t (rfl : 0x3A#6 &&& 0x3F#6 = 0x3A#6))) (rfl : 0x0#3 &&& 0x7#3 = 0x0#3))))) rfl rfl (congr (congr (congr (congr (congrArg Instr.bl17 (high 21 20 _ w (high 20 19 _ n (high 19 8 _ w2 (high 8 5 _ (0x0#3) (high 5 0 _ w1 (low (0x3A#6) t) rfl) rfl) rfl) rfl) rfl)) (high 16 15 _ w (high 15 14 _ n (high 14 3 _ w2 (high 3 0 _ (0x0#3) (low (0x3A#6 ++ t) w1) rfl) rfl) rfl) rfl)) (high 2 1 _ w (high 1 0 _ n (low (0x3A#6 ++ t ++ w1 ++ 0x0#3) w2) rfl) rfl)) (high 1 0 _ w (low (0x3A#6 ++ t ++ w1 ++ 0x0#3 ++ w2) n) rfl)) (low (0x3A#6 ++ t ++ w1 ++ 0x0#3 ++ w2 ++ n) w))

theorem InTable.bGate (t : BitVec 5) (w1 : BitVec 5) (w2 : BitVec 11) (n : BitVec 1) (w : BitVec 1) : InTable.Statement (.bGate t w1 w2 n w) :=
  of_index 40 _ rfl (unmasked w (unmasked n (unmasked w2 (masked (unmasked w1 (unmasked t (rfl : 0x3A#6 &&& 0x3F#6 = 0x3A#6))) (rfl : 0x1#3 &&& 0x7#3 = 0x1#3))))) rfl rfl (congr (congr (congr (congr (congrArg Instr.bGate (high 21 20 _ w (high 20 19 _ n (high 19 8 _ w2 (high 8 5 _ (0x1#3) (high 5 0 _ w1 (low (0x3A#6) t) rfl) rfl) rfl) rfl) rfl)) (high 16 15 _ w (high 15 14 _ n (high 14 3 _ w2 (high 3 0 _ (0x1#3) (low (0x3A#6 ++ t) w1) rfl) rfl) rfl) rfl)) (high 2 1 _ w (high 1 0 _ n (low (0x3A#6 ++ t ++ w1 ++ 0x1#3) w2) rfl) rfl)) (high 1 0 _ w (low (0x3A#6 ++ t ++ w1 ++ 0x1#3 ++ w2) n) rfl)) (low (0x3A#6 ++ t ++ w1 ++ 0x1#3 ++ w2 ++ n) w))

theorem InTable.blPush (w3 : BitVec 5) (w1 : BitVec 5) (w2 : BitVec 11) (n : BitVec 1) (w : BitVec 1) : InTable.Statement (.blPush w3 w1 w2 n w) :=
  of_index 41 _ rfl (unmasked w (unmasked n (unmasked w2 (masked (unmasked w1 (unmasked w3 (rfl : 0x3A#6 &&& 0x3F#6 = 0x3A#6))) (rfl : 0x4#3 &&& 0x7#3 = 0x4#3))))) rfl rfl (congr (congr (congr (congr (congrArg Instr.blPush (high 21 20 _ w (high 20 19 _ n (high 19 8 _ w2 (high 8 5 _ (0x4#3) (high 5 0 _ w1 (low (0x3A#6) w3) rfl) rfl) rfl) rfl) rfl)) (high 16 15 _ w (high 15 14 _ n (high 14 3 _ w2 (high 3 0 _ (0x4#3) (low (0x3A#6 ++ w3) w1) rfl) rfl) rfl) rfl)) (high 2 1 _ w (high 1 0 _ n (low (0x3A#6 ++ w3 ++ w1 ++ 0x4#3) w2) rfl) rfl)) (high 1 0 _ w (low (0x3A#6 ++ w3 ++ w1 ++ 0x4#3 ++ w2) n) rfl)) (low (0x3A#6 ++ w3 ++ w1 ++ 0x4#3 ++ w2 ++ n) w))

theorem InTable.bl22 (w3 : BitVec 5) (w1 : BitVec 5) (w2 : BitVec 11) (n : BitVec 1) (w : BitVec 1) : InTable.Statement (.bl22 w3 w1 w2 n w) :=
  of_index 42 _ rfl (unmasked w (unmasked n (unmasked w2 (masked (unmasked w1 (unmasked w3 (rfl : 0x3A#6 &&& 0x3F#6 = 0x3A#6))) (rfl : 0x5#3 &&& 0x7#3 = 0x5#3))))) rfl rfl (congr (congr (congr (congr (congrArg Instr.bl22 (high 21 20 _ w (high 20 19 _ n (high 19 8 _ w2 (high 8 5 _ (0x5#3) (high 5 0 _ w1 (low (0x3A#6) w3) rfl) rfl) rfl) rfl) rfl)) (high 16 15 _ w (high 15 14 _ n (high 14 3 _ w2 (high 3 0 _ (0x5#3) (low (0x3A#6 ++ w3) w1) rfl) rfl) rfl) rfl)) (high 2 1 _ w (high 1 0 _ n (low (0x3A#6 ++ w3 ++ w1 ++ 0x5#3) w2) rfl) rfl)) (high 1 0 _ w (low (0x3A#6 ++ w3 ++ w1 ++ 0x5#3 ++ w2) n) rfl)) (low (0x3A#6 ++ w3 ++ w1 ++ 0x5#3 ++ w2 ++ n) w))

theorem InTable.pushbts (r : BitVec 5) : InTable.Statement (.pushbts r) :=
  of_index 44 _ rfl (masked (unmasked r (rfl : 0x740#11 &&& 0x7FF#11 = 0x740#11)) (rfl : 0x4001#16 &&& 0xFFFF#16 = 0x4001#16)) rfl rfl (congrArg Instr.pushbts (high 16 0 _ (0x4001#16) (low (0x740#11) r) rfl))

theorem InTable.popbts (iv : BitVec 9) : InTable.Statement (.popbts iv) :=
  of_index 46 _ rfl (masked (unmasked iv (rfl : 0xE8004#20 &&& 0xFFFFF#20 = 0xE8004#20)) (rfl : 0x5#3 &&& 0x7#3 = 0x5#3)) rfl rfl (congrArg Instr.popbts (high 3 0 _ (0x5#3) (low (0xE8004#20) iv) rfl))

theorem InTable.blr (t : BitVec 5) (x : BitVec 5) (n : BitVec 1) : InTable.Statement (.blr t x n) :=
  of_index 47 _ rfl (masked (unmasked n (masked (unmasked x (unmasked t (rfl : 0x3A#6 &&& 0x3F#6 = 0x3A#6))) (rfl : 0x1000#14 &&& 0x3C00#14 = 0x1000#14))) (rfl : 0x0#1 &&& 0x1#1 = 0x0#1)) rfl rfl (congr (congr (congrArg Instr.blr (high 21 20 _ (0x0#1) (high 20 19 _ n (high 19 5 _ (0x1000#14) (high 5 0 _ x (low (0x3A#6) t) rfl) rfl) rfl) rfl)) (high 16 15 _ (0x0#1) (high 15 14 _ n (high 14 0 _ (0x1000#14) (low (0x3A#6 ++ t) x) rfl) rfl) rfl)) (high 1 0 _ (0x0#1) (low (0x3A#6 ++ t ++ x ++ 0x1000#14) n) rfl))

theorem InTable.bv (b : BitVec 5) (x : BitVec 5) (n : BitVec 1) : InTable.Statement (.bv b x n) :=
  of_index 48 _ rfl (masked (unmasked n (masked (unmasked x (unmasked b (rfl : 0x3A#6 &&& 0x3F#6 = 0x3A#6))) (rfl : 0x3000#14 &&& 0x3C00#14 = 0x3000#14))) (rfl : 0x0#1 &&& 0x1#1 = 0x0#1)) rfl rfl (congr (congr (congrArg Instr.bv (high 21 20 _ (0x0#1) (high 20 19 _ n (high 19 5 _ (0x3000#14) (high 5 0 _ x (low (0x3A#6) b) rfl) rfl) rfl) rfl)) (high 16 15 _ (0x0#1) (high 15 14 _ n (high 14 0 _ (0x3000#14) (low (0x3A#6 ++ b) x) rfl) rfl) rfl)) (high 1 0 _ (0x0#1) (low (0x3A#6 ++ b ++ x ++ 0x3000#14) n) rfl))

theorem InTable.bve (b : BitVec 5) (n : BitVec 1) (p : BitVec 1) : InTable.Statement (.bve b n p) :=
  of_index 49 _ rfl (unmasked p (unmasked n (masked (unmasked b (rfl : 0x3A#6 &&& 0x3F#6 = 0x3A#6)) (rfl : 0x3400#19 &&& 0x7FC00#19 = 0x3400#19)))) rfl rfl (congr (congr (congrArg Instr.bve (high 21 20 _ p (high 20 19 _ n (high 19 0 _ (0x3400#19) (low (0x3A#6) b) rfl) rfl) rfl)) (high 1 0 _ p (low (0x3A#6 ++ b ++ 0x3400#19) n) rfl)) (low (0x3A#6 ++ b ++ 0x3400#19 ++ n) p))

theorem InTable.bveL (b : BitVec 5) (n : BitVec 1) (p : BitVec 1) : InTable.Statement (.bveL b n p) :=
  of_index 50 _ rfl (unmasked p (unmasked n (masked (unmasked b (rfl : 0x3A#6 &&& 0x3F#6 = 0x3A#6)) (rfl : 0x3C00#19 &&& 0x7FC00#19 = 0x3C00#19)))) rfl rfl (congr (congr (congrArg Instr.bveL (high 21 20 _ p (high 20 19 _ n (high 19 0 _ (0x3C00#19) (low (0x3A#6) b) rfl) rfl) rfl)) (high 1 0 _ p (low (0x3A#6 ++ b ++ 0x3C00#19) n) rfl)) (low (0x3A#6 ++ b ++ 0x3C00#19 ++ n) p))

theorem InTable.be (b : BitVec 5) (w1 : BitVec 5) (sr : BitVec 3) (w2 : BitVec 11) (n : BitVec 1) (w : BitVec 1) : InTable.Statement (.be b w1 sr w2 n w) :=
  of_index 51 _ rfl (unmasked w (unmasked n (unmasked w2 (unmasked sr (unmasked w1 (unmasked b (rfl : 0x38#6 &&& 0x3F#6 = 0x38#6))))))) rfl rfl (congr (congr (congr (congr (congr (congrArg Instr.be (high 21 20 _ w (high 20 19 _ n (high 19 8 _ w2 (high 8 5 _ sr (high 5 0 _ w1 (low (0x38#6) b) rfl) rfl) rfl) rfl) rfl)) (high 16 15 _ w (high 15 14 _ n (high 14 3 _ w2 (high 3 0 _ sr (low (0x38#6 ++ b) w1) rfl) rfl) rfl) rfl)) (high 13 12 _ w (high 12 11 _ n (high 11 0 _ w2 (low (0x38#6 ++ b ++ w1) sr) rfl) rfl) rfl)) (high 2 1 _ w (high 1 0 _ n (low (0x38#6 ++ b ++ w1 ++ sr) w2) rfl) rfl)) (high 1 0 _ w (low (0x38#6 ++ b ++ w1 ++ sr ++ w2) n) rfl)) (low (0x38#6 ++ b ++ w1 ++ sr ++ w2 ++ n) w))

theorem InTable.beL (b : BitVec 5) (w1 : BitVec 5) (sr : BitVec 3) (w2 : BitVec 11) (n : BitVec 1) (w : BitVec 1) : InTable.Statement (.beL b w1 sr w2 n w) :=
  of_index 52 _ rfl (unmasked w (unmasked n (unmasked w2 (unmasked sr (unmasked w1 (unmasked b (rfl : 0x39#6 &&& 0x3F#6 = 0x39#6))))))) rfl rfl (congr (congr (congr (congr (congr (congrArg Instr.beL (high 21 20 _ w (high 20 19 _ n (high 19 8 _ w2 (high 8 5 _ sr (high 5 0 _ w1 (low (0x39#6) b) rfl) rfl) rfl) rfl) rfl)) (high 16 15 _ w (high 15 14 _ n (high 14 3 _ w2 (high 3 0 _ sr (low (0x39#6 ++ b) w1) rfl) rfl) rfl) rfl)) (high 13 12 _ w (high 12 11 _ n (high 11 0 _ w2 (low (0x39#6 ++ b ++ w1) sr) rfl) rfl) rfl)) (high 2 1 _ w (high 1 0 _ n (low (0x39#6 ++ b ++ w1 ++ sr) w2) rfl) rfl)) (high 1 0 _ w (low (0x39#6 ++ b ++ w1 ++ sr ++ w2) n) rfl)) (low (0x39#6 ++ b ++ w1 ++ sr ++ w2 ++ n) w))

theorem InTable.addbT (r2 : BitVec 5) (r1 : BitVec 5) (c : BitVec 3) (w1 : BitVec 11) (n : BitVec 1) (w : BitVec 1) : InTable.Statement (.addbT r2 r1 c w1 n w) :=
  of_index 53 _ rfl (unmasked w (unmasked n (unmasked w1 (unmasked c (unmasked r1 (unmasked r2 (rfl : 0x28#6 &&& 0x3F#6 = 0x28#6))))))) rfl rfl (congr (congr (congr (congr (congr (congrArg Instr.addbT (high 21 20 _ w (high 20 19 _ n (high 19 8 _ w1 (high 8 5 _ c (high 5 0 _ r1 (low (0x28#6) r2) rfl) rfl) rfl) rfl) rfl)) (high 16 15 _ w (high 15 14 _ n (high 14 3 _ w1 (high 3 0 _ c (low (0x28#6 ++ r2) r1) rfl) rfl) rfl) rfl)) (high 13 12 _ w (high 12 11 _ n (high 11 0 _ w1 (low (0x28#6 ++ r2 ++ r1) c) rfl) rfl) rfl)) (high 2 1 _ w (high 1 0 _ n (low (0x28#6 ++ r2 ++ r1 ++ c) w1) rfl) rfl)) (high 1 0 _ w (low (0x28#6 ++ r2 ++ r1 ++ c ++ w1) n) rfl)) (low (0x28#6 ++ r2 ++ r1 ++ c ++ w1 ++ n) w))

theorem InTable.addbF (r2 : BitVec 5) (r1 : BitVec 5) (c : BitVec 3) (w1 : BitVec 11) (n : BitVec 1) (w : BitVec 1) : InTable.Statement (.addbF r2 r1 c w1 n w) :=
  of_index 54 _ rfl (unmasked w (unmasked n (unmasked w1 (unmasked c (unmasked r1 (unmasked r2 (rfl : 0x2A#6 &&& 0x3F#6 = 0x2A#6))))))) rfl rfl (congr (congr (congr (congr (congr (congrArg Instr.addbF (high 21 20 _ w (high 20 19 _ n (high 19 8 _ w1 (high 8 5 _ c (high 5 0 _ r1 (low (0x2A#6) r2) rfl) rfl) rfl) rfl) rfl)) (high 16 15 _ w (high 15 14 _ n (high 14 3 _ w1 (high 3 0 _ c (low (0x2A#6 ++ r2) r1) rfl) rfl) rfl) rfl)) (high 13 12 _ w (high 12 11 _ n (high 11 0 _ w1 (low (0x2A#6 ++ r2 ++ r1) c) rfl) rfl) rfl)) (high 2 1 _ w (high 1 0 _ n (low (0x2A#6 ++ r2 ++ r1 ++ c) w1) rfl) rfl)) (high 1 0 _ w (low (0x2A#6 ++ r2 ++ r1 ++ c ++ w1) n) rfl)) (low (0x2A#6 ++ r2 ++ r1 ++ c ++ w1 ++ n) w))

theorem InTable.addibT (r : BitVec 5) (im5 : BitVec 5) (c : BitVec 3) (w1 : BitVec 11) (n : BitVec 1) (w : BitVec 1) : InTable.Statement (.addibT r im5 c w1 n w) :=
  of_index 55 _ rfl (unmasked w (unmasked n (unmasked w1 (unmasked c (unmasked im5 (unmasked r (rfl : 0x29#6 &&& 0x3F#6 = 0x29#6))))))) rfl rfl (congr (congr (congr (congr (congr (congrArg Instr.addibT (high 21 20 _ w (high 20 19 _ n (high 19 8 _ w1 (high 8 5 _ c (high 5 0 _ im5 (low (0x29#6) r) rfl) rfl) rfl) rfl) rfl)) (high 16 15 _ w (high 15 14 _ n (high 14 3 _ w1 (high 3 0 _ c (low (0x29#6 ++ r) im5) rfl) rfl) rfl) rfl)) (high 13 12 _ w (high 12 11 _ n (high 11 0 _ w1 (low (0x29#6 ++ r ++ im5) c) rfl) rfl) rfl)) (high 2 1 _ w (high 1 0 _ n (low (0x29#6 ++ r ++ im5 ++ c) w1) rfl) rfl)) (high 1 0 _ w (low (0x29#6 ++ r ++ im5 ++ c ++ w1) n) rfl)) (low (0x29#6 ++ r ++ im5 ++ c ++ w1 ++ n) w))

theorem InTable.addibF (r : BitVec 5) (im5 : BitVec 5) (c : BitVec 3) (w1 : BitVec 11) (n : BitVec 1) (w : BitVec 1) : InTable.Statement (.addibF r im5 c w1 n w) :=
  of_index 56 _ rfl (unmasked w (unmasked n (unmasked w1 (unmasked c (unmasked im5 (unmasked r (rfl : 0x2B#6 &&& 0x3F#6 = 0x2B#6))))))) rfl rfl (congr (congr (congr (congr (congr (congrArg Instr.addibF (high 21 20 _ w (high 20 19 _ n (high 19 8 _ w1 (high 8 5 _ c (high 5 0 _ im5 (low (0x2B#6) r) rfl) rfl) rfl) rfl) rfl)) (high 16 15 _ w (high 15 14 _ n (high 14 3 _ w1 (high 3 0 _ c (low (0x2B#6 ++ r) im5) rfl) rfl) rfl) rfl)) (high 13 12 _ w (high 12 11 _ n (high 11 0 _ w1 (low (0x2B#6 ++ r ++ im5) c) rfl) rfl) rfl)) (high 2 1 _ w (high 1 0 _ n (low (0x2B#6 ++ r ++ im5 ++ c) w1) rfl) rfl)) (high 1 0 _ w (low (0x2B#6 ++ r ++ im5 ++ c ++ w1) n) rfl)) (low (0x2B#6 ++ r ++ im5 ++ c ++ w1 ++ n) w))

theorem InTable.cmpbT (r2 : BitVec 5) (r1 : BitVec 5) (c : BitVec 3) (w1 : BitVec 11) (n : BitVec 1) (w : BitVec 1) : InTable.Statement (.cmpbT r2 r1 c w1 n w) :=
  of_index 57 _ rfl (unmasked w (unmasked n (unmasked w1 (unmasked c (unmasked r1 (unmasked r2 (rfl : 0x20#6 &&& 0x3F#6 = 0x20#6))))))) rfl rfl (congr (congr (congr (congr (congr (congrArg Instr.cmpbT (high 21 20 _ w (high 20 19 _ n (high 19 8 _ w1 (high 8 5 _ c (high 5 0 _ r1 (low (0x20#6) r2) rfl) rfl) rfl) rfl) rfl)) (high 16 15 _ w (high 15 14 _ n (high 14 3 _ w1 (high 3 0 _ c (low (0x20#6 ++ r2) r1) rfl) rfl) rfl) rfl)) (high 13 12 _ w (high 12 11 _ n (high 11 0 _ w1 (low (0x20#6 ++ r2 ++ r1) c) rfl) rfl) rfl)) (high 2 1 _ w (high 1 0 _ n (low (0x20#6 ++ r2 ++ r1 ++ c) w1) rfl) rfl)) (high 1 0 _ w (low (0x20#6 ++ r2 ++ r1 ++ c ++ w1) n) rfl)) (low (0x20#6 ++ r2 ++ r1 ++ c ++ w1 ++ n) w))

theorem InTable.cmpbF (r2 : BitVec 5) (r1 : BitVec 5) (c : BitVec 3) (w1 : BitVec 11) (n : BitVec 1) (w : BitVec 1) : InTable.Statement (.cmpbF r2 r1 c w1 n w) :=
  of_index 58 _ rfl (unmasked w (unmasked n (unmasked w1 (unmasked c (unmasked r1 (unmasked r2 (rfl : 0x22#6 &&& 0x3F#6 = 0x22#6))))))) rfl rfl (congr (congr (congr (congr (congr (congrArg Instr.cmpbF (high 21 20 _ w (high 20 19 _ n (high 19 8 _ w1 (high 8 5 _ c (high 5 0 _ r1 (low (0x22#6) r2) rfl) rfl) rfl) rfl) rfl)) (high 16 15 _ w (high 15 14 _ n (high 14 3 _ w1 (high 3 0 _ c (low (0x22#6 ++ r2) r1) rfl) rfl) rfl) rfl)) (high 13 12 _ w (high 12 11 _ n (high 11 0 _ w1 (low (0x22#6 ++ r2 ++ r1) c) rfl) rfl) rfl)) (high 2 1 _ w (high 1 0 _ n (low (0x22#6 ++ r2 ++ r1 ++ c) w1) rfl) rfl)) (high 1 0 _ w (low (0x22#6 ++ r2 ++ r1 ++ c ++ w1) n) rfl)) (low (0x22#6 ++ r2 ++ r1 ++ c ++ w1 ++ n) w))

theorem InTable.cmpbDT (r2 : BitVec 5) (r1 : BitVec 5) (c : BitVec 3) (w1 : BitVec 11) (n : BitVec 1) (w : BitVec 1) : InTable.Statement (.cmpbDT r2 r1 c w1 n w) :=
  of_index 59 _ rfl (unmasked w (unmasked n (unmasked w1 (unmasked c (unmasked r1 (unmasked r2 (rfl : 0x27#6 &&& 0x3F#6 = 0x27#6))))))) rfl rfl (congr (congr (congr (congr (congr (congrArg Instr.cmpbDT (high 21 20 _ w (high 20 19 _ n (high 19 8 _ w1 (high 8 5 _ c (high 5 0 _ r1 (low (0x27#6) r2) rfl) rfl) rfl) rfl) rfl)) (high 16 15 _ w (high 15 14 _ n (high 14 3 _ w1 (high 3 0 _ c (low (0x27#6 ++ r2) r1) rfl) rfl) rfl) rfl)) (high 13 12 _ w (high 12 11 _ n (high 11 0 _ w1 (low (0x27#6 ++ r2 ++ r1) c) rfl) rfl) rfl)) (high 2 1 _ w (high 1 0 _ n (low (0x27#6 ++ r2 ++ r1 ++ c) w1) rfl) rfl)) (high 1 0 _ w (low (0x27#6 ++ r2 ++ r1 ++ c ++ w1) n) rfl)) (low (0x27#6 ++ r2 ++ r1 ++ c ++ w1 ++ n) w))

theorem InTable.cmpbDF (r2 : BitVec 5) (r1 : BitVec 5) (c : BitVec 3) (w1 : BitVec 11) (n : BitVec 1) (w : BitVec 1) : InTable.Statement (.cmpbDF r2 r1 c w1 n w) :=
  of_index 60 _ rfl (unmasked w (unmasked n (unmasked w1 (unmasked c (unmasked r1 (unmasked r2 (rfl : 0x2F#6 &&& 0x3F#6 = 0x2F#6))))))) rfl rfl (congr (congr (congr (congr (congr (congrArg Instr.cmpbDF (high 21 20 _ w (high 20 19 _ n (high 19 8 _ w1 (high 8 5 _ c (high 5 0 _ r1 (low (0x2F#6) r2) rfl) rfl) rfl) rfl) rfl)) (high 16 15 _ w (high 15 14 _ n (high 14 3 _ w1 (high 3 0 _ c (low (0x2F#6 ++ r2) r1) rfl) rfl) rfl) rfl)) (high 13 12 _ w (high 12 11 _ n (high 11 0 _ w1 (low (0x2F#6 ++ r2 ++ r1) c) rfl) rfl) rfl)) (high 2 1 _ w (high 1 0 _ n (low (0x2F#6 ++ r2 ++ r1 ++ c) w1) rfl) rfl)) (high 1 0 _ w (low (0x2F#6 ++ r2 ++ r1 ++ c ++ w1) n) rfl)) (low (0x2F#6 ++ r2 ++ r1 ++ c ++ w1 ++ n) w))

theorem InTable.cmpibT (r : BitVec 5) (im5 : BitVec 5) (c : BitVec 3) (w1 : BitVec 11) (n : BitVec 1) (w : BitVec 1) : InTable.Statement (.cmpibT r im5 c w1 n w) :=
  of_index 61 _ rfl (unmasked w (unmasked n (unmasked w1 (unmasked c (unmasked im5 (unmasked r (rfl : 0x21#6 &&& 0x3F#6 = 0x21#6))))))) rfl rfl (congr (congr (congr (congr (congr (congrArg Instr.cmpibT (high 21 20 _ w (high 20 19 _ n (high 19 8 _ w1 (high 8 5 _ c (high 5 0 _ im5 (low (0x21#6) r) rfl) rfl) rfl) rfl) rfl)) (high 16 15 _ w (high 15 14 _ n (high 14 3 _ w1 (high 3 0 _ c (low (0x21#6 ++ r) im5) rfl) rfl) rfl) rfl)) (high 13 12 _ w (high 12 11 _ n (high 11 0 _ w1 (low (0x21#6 ++ r ++ im5) c) rfl) rfl) rfl)) (high 2 1 _ w (high 1 0 _ n (low (0x21#6 ++ r ++ im5 ++ c) w1) rfl) rfl)) (high 1 0 _ w (low (0x21#6 ++ r ++ im5 ++ c ++ w1) n) rfl)) (low (0x21#6 ++ r ++ im5 ++ c ++ w1 ++ n) w))

theorem InTable.cmpibF (r : BitVec 5) (im5 : BitVec 5) (c : BitVec 3) (w1 : BitVec 11) (n : BitVec 1) (w : BitVec 1) : InTable.Statement (.cmpibF r im5 c w1 n w) :=
  of_index 62 _ rfl (unmasked w (unmasked n (unmasked w1 (unmasked c (unmasked im5 (unmasked r (rfl : 0x23#6 &&& 0x3F#6 = 0x23#6))))))) rfl rfl (congr (congr (congr (congr (congr (congrArg Instr.cmpibF (high 21 20 _ w (high 20 19 _ n (high 19 8 _ w1 (high 8 5 _ c (high 5 0 _ im5 (low (0x23#6) r) rfl) rfl) rfl) rfl) rfl)) (high 16 15 _ w (high 15 14 _ n (high 14 3 _ w1 (high 3 0 _ c (low (0x23#6 ++ r) im5) rfl) rfl) rfl) rfl)) (high 13 12 _ w (high 12 11 _ n (high 11 0 _ w1 (low (0x23#6 ++ r ++ im5) c) rfl) rfl) rfl)) (high 2 1 _ w (high 1 0 _ n (low (0x23#6 ++ r ++ im5 ++ c) w1) rfl) rfl)) (high 1 0 _ w (low (0x23#6 ++ r ++ im5 ++ c ++ w1) n) rfl)) (low (0x23#6 ++ r ++ im5 ++ c ++ w1 ++ n) w))

theorem InTable.cmpibD (r : BitVec 5) (im5 : BitVec 5) (c : BitVec 3) (w1 : BitVec 11) (n : BitVec 1) (w : BitVec 1) : InTable.Statement (.cmpibD r im5 c w1 n w) :=
  of_index 63 _ rfl (unmasked w (unmasked n (unmasked w1 (unmasked c (unmasked im5 (unmasked r (rfl : 0x3B#6 &&& 0x3F#6 = 0x3B#6))))))) rfl rfl (congr (congr (congr (congr (congr (congrArg Instr.cmpibD (high 21 20 _ w (high 20 19 _ n (high 19 8 _ w1 (high 8 5 _ c (high 5 0 _ im5 (low (0x3B#6) r) rfl) rfl) rfl) rfl) rfl)) (high 16 15 _ w (high 15 14 _ n (high 14 3 _ w1 (high 3 0 _ c (low (0x3B#6 ++ r) im5) rfl) rfl) rfl) rfl)) (high 13 12 _ w (high 12 11 _ n (high 11 0 _ w1 (low (0x3B#6 ++ r ++ im5) c) rfl) rfl) rfl)) (high 2 1 _ w (high 1 0 _ n (low (0x3B#6 ++ r ++ im5 ++ c) w1) rfl) rfl)) (high 1 0 _ w (low (0x3B#6 ++ r ++ im5 ++ c ++ w1) n) rfl)) (low (0x3B#6 ++ r ++ im5 ++ c ++ w1 ++ n) w))

theorem InTable.movb (r2 : BitVec 5) (r1 : BitVec 5) (c : BitVec 3) (w1 : BitVec 11) (n : BitVec 1) (w : BitVec 1) : InTable.Statement (.movb r2 r1 c w1 n w) :=
  of_index 64 _ rfl (unmasked w (unmasked n (unmasked w1 (unmasked c (unmasked r1 (unmasked r2 (rfl : 0x32#6 &&& 0x3F#6 = 0x32#6))))))) rfl rfl (congr (congr (congr (congr (congr (congrArg Instr.movb (high 21 20 _ w (high 20 19 _ n (high 19 8 _ w1 (high 8 5 _ c (high 5 0 _ r1 (low (0x32#6) r2) rfl) rfl) rfl) rfl) rfl)) (high 16 15 _ w (high 15 14 _ n (high 14 3 _ w1 (high 3 0 _ c (low (0x32#6 ++ r2) r1) rfl) rfl) rfl) rfl)) (high 13 12 _ w (high 12 11 _ n (high 11 0 _ w1 (low (0x32#6 ++ r2 ++ r1) c) rfl) rfl) rfl)) (high 2 1 _ w (high 1 0 _ n (low (0x32#6 ++ r2 ++ r1 ++ c) w1) rfl) rfl)) (high 1 0 _ w (low (0x32#6 ++ r2 ++ r1 ++ c ++ w1) n) rfl)) (low (0x32#6 ++ r2 ++ r1 ++ c ++ w1 ++ n) w))

theorem InTable.movib (r : BitVec 5) (im5 : BitVec 5) (c : BitVec 3) (w1 : BitVec 11) (n : BitVec 1) (w : BitVec 1) : InTable.Statement (.movib r im5 c w1 n w) :=
  of_index 65 _ rfl (unmasked w (unmasked n (unmasked w1 (unmasked c (unmasked im5 (unmasked r (rfl : 0x33#6 &&& 0x3F#6 = 0x33#6))))))) rfl rfl (congr (congr (congr (congr (congr (congrArg Instr.movib (high 21 20 _ w (high 20 19 _ n (high 19 8 _ w1 (high 8 5 _ c (high 5 0 _ im5 (low (0x33#6) r) rfl) rfl) rfl) rfl) rfl)) (high 16 15 _ w (high 15 14 _ n (high 14 3 _ w1 (high 3 0 _ c (low (0x33#6 ++ r) im5) rfl) rfl) rfl) rfl)) (high 13 12 _ w (high 12 11 _ n (high 11 0 _ w1 (low (0x33#6 ++ r ++ im5) c) rfl) rfl) rfl)) (high 2 1 _ w (high 1 0 _ n (low (0x33#6 ++ r ++ im5 ++ c) w1) rfl) rfl)) (high 1 0 _ w (low (0x33#6 ++ r ++ im5 ++ c ++ w1) n) rfl)) (low (0x33#6 ++ r ++ im5 ++ c ++ w1 ++ n) w))

theorem InTable.bbFixed (p : BitVec 5) (r : BitVec 5) (c : BitVec 1) (d : BitVec 1) (w1 : BitVec 11) (n : BitVec 1) (w : BitVec 1) : InTable.Statement (.bbFixed p r c d w1 n w) :=
  of_index 66 _ rfl (unmasked w (unmasked n (unmasked w1 (unmasked d (masked (unmasked c (unmasked r (unmasked p (rfl : 0x31#6 &&& 0x3F#6 = 0x31#6)))) (rfl : 0x1#1 &&& 0x1#1 = 0x1#1)))))) rfl rfl (congr (congr (congr (congr (congr (congr (congrArg Instr.bbFixed (high 21 20 _ w (high 20 19 _ n (high 19 8 _ w1 (high 8 7 _ d (high 7 6 _ (0x1#1) (high 6 5 _ c (high 5 0 _ r (low (0x31#6) p) rfl) rfl) rfl) rfl) rfl) rfl) rfl)) (high 16 15 _ w (high 15 14 _ n (high 14 3 _ w1 (high 3 2 _ d (high 2 1 _ (0x1#1) (high 1 0 _ c (low (0x31#6 ++ p) r) rfl) rfl) rfl) rfl) rfl) rfl)) (high 15 14 _ w (high 14 13 _ n (high 13 2 _ w1 (high 2 1 _ d (high 1 0 _ (0x1#1) (low (0x31#6 ++ p ++ r) c) rfl) rfl) rfl) rfl) rfl)) (high 13 12 _ w (high 12 11 _ n (high 11 0 _ w1 (low (0x31#6 ++ p ++ r ++ c ++ 0x1#1) d) rfl) rfl) rfl)) (high 2 1 _ w (high 1 0 _ n (low (0x31#6 ++ p ++ r ++ c ++ 0x1#1 ++ d) w1) rfl) rfl)) (high 1 0 _ w (low (0x31#6 ++ p ++ r ++ c ++ 0x1#1 ++ d ++ w1) n) rfl)) (low (0x31#6 ++ p ++ r ++ c ++ 0x1#1 ++ d ++ w1 ++ n) w))

theorem InTable.bbSar (r : BitVec 5) (c : BitVec 1) (d : BitVec 1) (w1 : BitVec 11) (n : BitVec 1) (w : BitVec 1) : InTable.Statement (.bbSar r c d w1 n w) :=
  of_index 67 _ rfl (unmasked w (unmasked n (unmasked w1 (unmasked d (masked (unmasked c (unmasked r (rfl : 0x600#11 &&& 0x7FF#11 = 0x600#11))) (rfl : 0x1#1 &&& 0x1#1 = 0x1#1)))))) rfl rfl (congr (congr (congr (congr (congr (congrArg Instr.bbSar (high 16 15 _ w (high 15 14 _ n (high 14 3 _ w1 (high 3 2 _ d (high 2 1 _ (0x1#1) (high 1 0 _ c (low (0x600#11) r) rfl) rfl) rfl) rfl) rfl) rfl)) (high 15 14 _ w (high 14 13 _ n (high 13 2 _ w1 (high 2 1 _ d (high 1 0 _ (0x1#1) (low (0x600#11 ++ r) c) rfl) rfl) rfl) rfl) rfl)) (high 13 12 _ w (high 12 11 _ n (high 11 0 _ w1 (low (0x600#11 ++ r ++ c ++ 0x1#1) d) rfl) rfl) rfl)) (high 2 1 _ w (high 1 0 _ n (low (0x600#11 ++ r ++ c ++ 0x1#1 ++ d) w1) rfl) rfl)) (high 1 0 _ w (low (0x600#11 ++ r ++ c ++ 0x1#1 ++ d ++ w1) n) rfl)) (low (0x600#11 ++ r ++ c ++ 0x1#1 ++ d ++ w1 ++ n) w))

theorem InTable.add (r2 : BitVec 5) (r1 : BitVec 5) (c : BitVec 3) (f : BitVec 1) (d : BitVec 1) (t : BitVec 5) : InTable.Statement (.add r2 r1 c f d t) :=
  of_index 68 _ rfl (unmasked t (unmasked d (masked (unmasked f (unmasked c (unmasked r1 (unmasked r2 (rfl : 0x2#6 &&& 0x3F#6 = 0x2#6))))) (rfl : 0x18#6 &&& 0x3F#6 = 0x18#6)))) rfl rfl (congr (congr (congr (congr (congr (congrArg Instr.add (high 21 16 _ t (high 16 15 _ d (high 15 9 _ (0x18#6) (high 9 8 _ f (high 8 5 _ c (high 5 0 _ r1 (low (0x2#6) r2) rfl) rfl) rfl) rfl) rfl) rfl)) (high 16 11 _ t (high 11 10 _ d (high 10 4 _ (0x18#6) (high 4 3 _ f (high 3 0 _ c (low (0x2#6 ++ r2) r1) rfl) rfl) rfl) rfl) rfl)) (high 13 8 _ t (high 8 7 _ d (high 7 1 _ (0x18#6) (high 1 0 _ f (low (0x2#6 ++ r2 ++ r1) c) rfl) rfl) rfl) rfl)) (high 12 7 _ t (high 7 6 _ d (high 6 0 _ (0x18#6) (low (0x2#6 ++ r2 ++ r1 ++ c) f) rfl) rfl) rfl)) (high 5 0 _ t (low (0x2#6 ++ r2 ++ r1 ++ c ++ f ++ 0x18#6) d) rfl)) (low (0x2#6 ++ r2 ++ r1 ++ c ++ f ++ 0x18#6 ++ d) t))

theorem InTable.addC (r2 : BitVec 5) (r1 : BitVec 5) (c : BitVec 3) (f : BitVec 1) (d : BitVec 1) (t : BitVec 5) : InTable.Statement (.addC r2 r1 c f d t) :=
  of_index 69 _ rfl (unmasked t (unmasked d (masked (unmasked f (unmasked c (unmasked r1 (unmasked r2 (rfl : 0x2#6 &&& 0x3F#6 = 0x2#6))))) (rfl : 0x1C#6 &&& 0x3F#6 = 0x1C#6)))) rfl rfl (congr (congr (congr (congr (congr (congrArg Instr.addC (high 21 16 _ t (high 16 15 _ d (high 15 9 _ (0x1C#6) (high 9 8 _ f (high 8 5 _ c (high 5 0 _ r1 (low (0x2#6) r2) rfl) rfl) rfl) rfl) rfl) rfl)) (high 16 11 _ t (high 11 10 _ d (high 10 4 _ (0x1C#6) (high 4 3 _ f (high 3 0 _ c (low (0x2#6 ++ r2) r1) rfl) rfl) rfl) rfl) rfl)) (high 13 8 _ t (high 8 7 _ d (high 7 1 _ (0x1C#6) (high 1 0 _ f (low (0x2#6 ++ r2 ++ r1) c) rfl) rfl) rfl) rfl)) (high 12 7 _ t (high 7 6 _ d (high 6 0 _ (0x1C#6) (low (0x2#6 ++ r2 ++ r1 ++ c) f) rfl) rfl) rfl)) (high 5 0 _ t (low (0x2#6 ++ r2 ++ r1 ++ c ++ f ++ 0x1C#6) d) rfl)) (low (0x2#6 ++ r2 ++ r1 ++ c ++ f ++ 0x1C#6 ++ d) t))

theorem InTable.addL (r2 : BitVec 5) (r1 : BitVec 5) (c : BitVec 3) (f : BitVec 1) (d : BitVec 1) (t : BitVec 5) : InTable.Statement (.addL r2 r1 c f d t) :=
  of_index 70 _ rfl (unmasked t (unmasked d (masked (unmasked f (unmasked c (unmasked r1 (unmasked r2 (rfl : 0x2#6 &&& 0x3F#6 = 0x2#6))))) (rfl : 0x28#6 &&& 0x3F#6 = 0x28#6)))) rfl rfl (congr (congr (congr (congr (congr (congrArg Instr.addL (high 21 16 _ t (high 16 15 _ d (high 15 9 _ (0x28#6) (high 9 8 _ f (high 8 5 _ c (high 5 0 _ r1 (low (0x2#6) r2) rfl) rfl) rfl) rfl) rfl) rfl)) (high 16 11 _ t (high 11 10 _ d (high 10 4 _ (0x28#6) (high 4 3 _ f (high 3 0 _ c (low (0x2#6 ++ r2) r1) rfl) rfl) rfl) rfl) rfl)) (high 13 8 _ t (high 8 7 _ d (high 7 1 _ (0x28#6) (high 1 0 _ f (low (0x2#6 ++ r2 ++ r1) c) rfl) rfl) rfl) rfl)) (high 12 7 _ t (high 7 6 _ d (high 6 0 _ (0x28#6) (low (0x2#6 ++ r2 ++ r1 ++ c) f) rfl) rfl) rfl)) (high 5 0 _ t (low (0x2#6 ++ r2 ++ r1 ++ c ++ f ++ 0x28#6) d) rfl)) (low (0x2#6 ++ r2 ++ r1 ++ c ++ f ++ 0x28#6 ++ d) t))

theorem InTable.addTsv (r2 : BitVec 5) (r1 : BitVec 5) (c : BitVec 3) (f : BitVec 1) (d : BitVec 1) (t : BitVec 5) : InTable.Statement (.addTsv r2 r1 c f d t) :=
  of_index 71 _ rfl (unmasked t (unmasked d (masked (unmasked f (unmasked c (unmasked r1 (unmasked r2 (rfl : 0x2#6 &&& 0x3F#6 = 0x2#6))))) (rfl : 0x38#6 &&& 0x3F#6 = 0x38#6)))) rfl rfl (congr (congr (congr (congr (congr (congrArg Instr.addTsv (high 21 16 _ t (high 16 15 _ d (high 15 9 _ (0x38#6) (high 9 8 _ f (high 8 5 _ c (high 5 0 _ r1 (low (0x2#6) r2) rfl) rfl) rfl) rfl) rfl) rfl)) (high 16 11 _ t (high 11 10 _ d (high 10 4 _ (0x38#6) (high 4 3 _ f (high 3 0 _ c (low (0x2#6 ++ r2) r1) rfl) rfl) rfl) rfl) rfl)) (high 13 8 _ t (high 8 7 _ d (high 7 1 _ (0x38#6) (high 1 0 _ f (low (0x2#6 ++ r2 ++ r1) c) rfl) rfl) rfl) rfl)) (high 12 7 _ t (high 7 6 _ d (high 6 0 _ (0x38#6) (low (0x2#6 ++ r2 ++ r1 ++ c) f) rfl) rfl) rfl)) (high 5 0 _ t (low (0x2#6 ++ r2 ++ r1 ++ c ++ f ++ 0x38#6) d) rfl)) (low (0x2#6 ++ r2 ++ r1 ++ c ++ f ++ 0x38#6 ++ d) t))

theorem InTable.addCTsv (r2 : BitVec 5) (r1 : BitVec 5) (c : BitVec 3) (f : BitVec 1) (d : BitVec 1) (t : BitVec 5) : InTable.Statement (.addCTsv r2 r1 c f d t) :=
  of_index 72 _ rfl (unmasked t (unmasked d (masked (unmasked f (unmasked c (unmasked r1 (unmasked r2 (rfl : 0x2#6 &&& 0x3F#6 = 0x2#6))))) (rfl : 0x3C#6 &&& 0x3F#6 = 0x3C#6)))) rfl rfl (congr (congr (congr (congr (congr (congrArg Instr.addCTsv (high 21 16 _ t (high 16 15 _ d (high 15 9 _ (0x3C#6) (high 9 8 _ f (high 8 5 _ c (high 5 0 _ r1 (low (0x2#6) r2) rfl) rfl) rfl) rfl) rfl) rfl)) (high 16 11 _ t (high 11 10 _ d (high 10 4 _ (0x3C#6) (high 4 3 _ f (high 3 0 _ c (low (0x2#6 ++ r2) r1) rfl) rfl) rfl) rfl) rfl)) (high 13 8 _ t (high 8 7 _ d (high 7 1 _ (0x3C#6) (high 1 0 _ f (low (0x2#6 ++ r2 ++ r1) c) rfl) rfl) rfl) rfl)) (high 12 7 _ t (high 7 6 _ d (high 6 0 _ (0x3C#6) (low (0x2#6 ++ r2 ++ r1 ++ c) f) rfl) rfl) rfl)) (high 5 0 _ t (low (0x2#6 ++ r2 ++ r1 ++ c ++ f ++ 0x3C#6) d) rfl)) (low (0x2#6 ++ r2 ++ r1 ++ c ++ f ++ 0x3C#6 ++ d) t))

theorem InTable.sub (r2 : BitVec 5) (r1 : BitVec 5) (c : BitVec 3) (f : BitVec 1) (d : BitVec 1) (t : BitVec 5) : InTable.Statement (.sub r2 r1 c f d t) :=
  of_index 73 _ rfl (unmasked t (unmasked d (masked (unmasked f (unmasked c (unmasked r1 (unmasked r2 (rfl : 0x2#6 &&& 0x3F#6 = 0x2#6))))) (rfl : 0x10#6 &&& 0x3F#6 = 0x10#6)))) rfl rfl (congr (congr (congr (congr (congr (congrArg Instr.sub (high 21 16 _ t (high 16 15 _ d (high 15 9 _ (0x10#6) (high 9 8 _ f (high 8 5 _ c (high 5 0 _ r1 (low (0x2#6) r2) rfl) rfl) rfl) rfl) rfl) rfl)) (high 16 11 _ t (high 11 10 _ d (high 10 4 _ (0x10#6) (high 4 3 _ f (high 3 0 _ c (low (0x2#6 ++ r2) r1) rfl) rfl) rfl) rfl) rfl)) (high 13 8 _ t (high 8 7 _ d (high 7 1 _ (0x10#6) (high 1 0 _ f (low (0x2#6 ++ r2 ++ r1) c) rfl) rfl) rfl) rfl)) (high 12 7 _ t (high 7 6 _ d (high 6 0 _ (0x10#6) (low (0x2#6 ++ r2 ++ r1 ++ c) f) rfl) rfl) rfl)) (high 5 0 _ t (low (0x2#6 ++ r2 ++ r1 ++ c ++ f ++ 0x10#6) d) rfl)) (low (0x2#6 ++ r2 ++ r1 ++ c ++ f ++ 0x10#6 ++ d) t))

theorem InTable.subTc (r2 : BitVec 5) (r1 : BitVec 5) (c : BitVec 3) (f : BitVec 1) (d : BitVec 1) (t : BitVec 5) : InTable.Statement (.subTc r2 r1 c f d t) :=
  of_index 74 _ rfl (unmasked t (unmasked d (masked (unmasked f (unmasked c (unmasked r1 (unmasked r2 (rfl : 0x2#6 &&& 0x3F#6 = 0x2#6))))) (rfl : 0x13#6 &&& 0x3F#6 = 0x13#6)))) rfl rfl (congr (congr (congr (congr (congr (congrArg Instr.subTc (high 21 16 _ t (high 16 15 _ d (high 15 9 _ (0x13#6) (high 9 8 _ f (high 8 5 _ c (high 5 0 _ r1 (low (0x2#6) r2) rfl) rfl) rfl) rfl) rfl) rfl)) (high 16 11 _ t (high 11 10 _ d (high 10 4 _ (0x13#6) (high 4 3 _ f (high 3 0 _ c (low (0x2#6 ++ r2) r1) rfl) rfl) rfl) rfl) rfl)) (high 13 8 _ t (high 8 7 _ d (high 7 1 _ (0x13#6) (high 1 0 _ f (low (0x2#6 ++ r2 ++ r1) c) rfl) rfl) rfl) rfl)) (high 12 7 _ t (high 7 6 _ d (high 6 0 _ (0x13#6) (low (0x2#6 ++ r2 ++ r1 ++ c) f) rfl) rfl) rfl)) (high 5 0 _ t (low (0x2#6 ++ r2 ++ r1 ++ c ++ f ++ 0x13#6) d) rfl)) (low (0x2#6 ++ r2 ++ r1 ++ c ++ f ++ 0x13#6 ++ d) t))

theorem InTable.subB (r2 : BitVec 5) (r1 : BitVec 5) (c : BitVec 3) (f : BitVec 1) (d : BitVec 1) (t : BitVec 5) : InTable.Statement (.subB r2 r1 c f d t) :=
  of_index 75 _ rfl (unmasked t (unmasked d (masked (unmasked f (unmasked c (unmasked r1 (unmasked r2 (rfl : 0x2#6 &&& 0x3F#6 = 0x2#6))))) (rfl : 0x14#6 &&& 0x3F#6 = 0x14#6)))) rfl rfl (congr (congr (congr (congr (congr (congrArg Instr.subB (high 21 16 _ t (high 16 15 _ d (high 15 9 _ (0x14#6) (high 9 8 _ f (high 8 5 _ c (high 5 0 _ r1 (low (0x2#6) r2) rfl) rfl) rfl) rfl) rfl) rfl)) (high 16 11 _ t (high 11 10 _ d (high 10 4 _ (0x14#6) (high 4 3 _ f (high 3 0 _ c (low (0x2#6 ++ r2) r1) rfl) rfl) rfl) rfl) rfl)) (high 13 8 _ t (high 8 7 _ d (high 7 1 _ (0x14#6) (high 1 0 _ f (low (0x2#6 ++ r2 ++ r1) c) rfl) rfl) rfl) rfl)) (high 12 7 _ t (high 7 6 _ d (high 6 0 _ (0x14#6) (low (0x2#6 ++ r2 ++ r1 ++ c) f) rfl) rfl) rfl)) (high 5 0 _ t (low (0x2#6 ++ r2 ++ r1 ++ c ++ f ++ 0x14#6) d) rfl)) (low (0x2#6 ++ r2 ++ r1 ++ c ++ f ++ 0x14#6 ++ d) t))

theorem InTable.subTsv (r2 : BitVec 5) (r1 : BitVec 5) (c : BitVec 3) (f : BitVec 1) (d : BitVec 1) (t : BitVec 5) : InTable.Statement (.subTsv r2 r1 c f d t) :=
  of_index 76 _ rfl (unmasked t (unmasked d (masked (unmasked f (unmasked c (unmasked r1 (unmasked r2 (rfl : 0x2#6 &&& 0x3F#6 = 0x2#6))))) (rfl : 0x30#6 &&& 0x3F#6 = 0x30#6)))) rfl rfl (congr (congr (congr (congr (congr (congrArg Instr.subTsv (high 21 16 _ t (high 16 15 _ d (high 15 9 _ (0x30#6) (high 9 8 _ f (high 8 5 _ c (high 5 0 _ r1 (low (0x2#6) r2) rfl) rfl) rfl) rfl) rfl) rfl)) (high 16 11 _ t (high 11 10 _ d (high 10 4 _ (0x30#6) (high 4 3 _ f (high 3 0 _ c (low (0x2#6 ++ r2) r1) rfl) rfl) rfl) rfl) rfl)) (high 13 8 _ t (high 8 7 _ d (high 7 1 _ (0x30#6) (high 1 0 _ f (low (0x2#6 ++ r2 ++ r1) c) rfl) rfl) rfl) rfl)) (high 12 7 _ t (high 7 6 _ d (high 6 0 _ (0x30#6) (low (0x2#6 ++ r2 ++ r1 ++ c) f) rfl) rfl) rfl)) (high 5 0 _ t (low (0x2#6 ++ r2 ++ r1 ++ c ++ f ++ 0x30#6) d) rfl)) (low (0x2#6 ++ r2 ++ r1 ++ c ++ f ++ 0x30#6 ++ d) t))

theorem InTable.subTsvTc (r2 : BitVec 5) (r1 : BitVec 5) (c : BitVec 3) (f : BitVec 1) (d : BitVec 1) (t : BitVec 5) : InTable.Statement (.subTsvTc r2 r1 c f d t) :=
  of_index 77 _ rfl (unmasked t (unmasked d (masked (unmasked f (unmasked c (unmasked r1 (unmasked r2 (rfl : 0x2#6 &&& 0x3F#6 = 0x2#6))))) (rfl : 0x33#6 &&& 0x3F#6 = 0x33#6)))) rfl rfl (congr (congr (congr (congr (congr (congrArg Instr.subTsvTc (high 21 16 _ t (high 16 15 _ d (high 15 9 _ (0x33#6) (high 9 8 _ f (high 8 5 _ c (high 5 0 _ r1 (low (0x2#6) r2) rfl) rfl) rfl) rfl) rfl) rfl)) (high 16 11 _ t (high 11 10 _ d (high 10 4 _ (0x33#6) (high 4 3 _ f (high 3 0 _ c (low (0x2#6 ++ r2) r1) rfl) rfl) rfl) rfl) rfl)) (high 13 8 _ t (high 8 7 _ d (high 7 1 _ (0x33#6) (high 1 0 _ f (low (0x2#6 ++ r2 ++ r1) c) rfl) rfl) rfl) rfl)) (high 12 7 _ t (high 7 6 _ d (high 6 0 _ (0x33#6) (low (0x2#6 ++ r2 ++ r1 ++ c) f) rfl) rfl) rfl)) (high 5 0 _ t (low (0x2#6 ++ r2 ++ r1 ++ c ++ f ++ 0x33#6) d) rfl)) (low (0x2#6 ++ r2 ++ r1 ++ c ++ f ++ 0x33#6 ++ d) t))

theorem InTable.subBTsv (r2 : BitVec 5) (r1 : BitVec 5) (c : BitVec 3) (f : BitVec 1) (d : BitVec 1) (t : BitVec 5) : InTable.Statement (.subBTsv r2 r1 c f d t) :=
  of_index 78 _ rfl (unmasked t (unmasked d (masked (unmasked f (unmasked c (unmasked r1 (unmasked r2 (rfl : 0x2#6 &&& 0x3F#6 = 0x2#6))))) (rfl : 0x34#6 &&& 0x3F#6 = 0x34#6)))) rfl rfl (congr (congr (congr (congr (congr (congrArg Instr.subBTsv (high 21 16 _ t (high 16 15 _ d (high 15 9 _ (0x34#6) (high 9 8 _ f (high 8 5 _ c (high 5 0 _ r1 (low (0x2#6) r2) rfl) rfl) rfl) rfl) rfl) rfl)) (high 16 11 _ t (high 11 10 _ d (high 10 4 _ (0x34#6) (high 4 3 _ f (high 3 0 _ c (low (0x2#6 ++ r2) r1) rfl) rfl) rfl) rfl) rfl)) (high 13 8 _ t (high 8 7 _ d (high 7 1 _ (0x34#6) (high 1 0 _ f (low (0x2#6 ++ r2 ++ r1) c) rfl) rfl) rfl) rfl)) (high 12 7 _ t (high 7 6 _ d (high 6 0 _ (0x34#6) (low (0x2#6 ++ r2 ++ r1 ++ c) f) rfl) rfl) rfl)) (high 5 0 _ t (low (0x2#6 ++ r2 ++ r1 ++ c ++ f ++ 0x34#6) d) rfl)) (low (0x2#6 ++ r2 ++ r1 ++ c ++ f ++ 0x34#6 ++ d) t))

theorem InTable.and (r2 : BitVec 5) (r1 : BitVec 5) (c : BitVec 3) (f : BitVec 1) (d : BitVec 1) (t : BitVec 5) : InTable.Statement (.and r2 r1 c f d t) :=
  of_index 79 _ rfl (unmasked t (unmasked d (masked (unmasked f (unmasked c (unmasked r1 (unmasked r2 (rfl : 0x2#6 &&& 0x3F#6 = 0x2#6))))) (rfl : 0x8#6 &&& 0x3F#6 = 0x8#6)))) rfl rfl (congr (congr (congr (congr (congr (congrArg Instr.and (high 21 16 _ t (high 16 15 _ d (high 15 9 _ (0x8#6) (high 9 8 _ f (high 8 5 _ c (high 5 0 _ r1 (low (0x2#6) r2) rfl) rfl) rfl) rfl) rfl) rfl)) (high 16 11 _ t (high 11 10 _ d (high 10 4 _ (0x8#6) (high 4 3 _ f (high 3 0 _ c (low (0x2#6 ++ r2) r1) rfl) rfl) rfl) rfl) rfl)) (high 13 8 _ t (high 8 7 _ d (high 7 1 _ (0x8#6) (high 1 0 _ f (low (0x2#6 ++ r2 ++ r1) c) rfl) rfl) rfl) rfl)) (high 12 7 _ t (high 7 6 _ d (high 6 0 _ (0x8#6) (low (0x2#6 ++ r2 ++ r1 ++ c) f) rfl) rfl) rfl)) (high 5 0 _ t (low (0x2#6 ++ r2 ++ r1 ++ c ++ f ++ 0x8#6) d) rfl)) (low (0x2#6 ++ r2 ++ r1 ++ c ++ f ++ 0x8#6 ++ d) t))

theorem InTable.andcm (r2 : BitVec 5) (r1 : BitVec 5) (c : BitVec 3) (f : BitVec 1) (d : BitVec 1) (t : BitVec 5) : InTable.Statement (.andcm r2 r1 c f d t) :=
  of_index 80 _ rfl (unmasked t (unmasked d (masked (unmasked f (unmasked c (unmasked r1 (unmasked r2 (rfl : 0x2#6 &&& 0x3F#6 = 0x2#6))))) (rfl : 0x0#6 &&& 0x3F#6 = 0x0#6)))) rfl rfl (congr (congr (congr (congr (congr (congrArg Instr.andcm (high 21 16 _ t (high 16 15 _ d (high 15 9 _ (0x0#6) (high 9 8 _ f (high 8 5 _ c (high 5 0 _ r1 (low (0x2#6) r2) rfl) rfl) rfl) rfl) rfl) rfl)) (high 16 11 _ t (high 11 10 _ d (high 10 4 _ (0x0#6) (high 4 3 _ f (high 3 0 _ c (low (0x2#6 ++ r2) r1) rfl) rfl) rfl) rfl) rfl)) (high 13 8 _ t (high 8 7 _ d (high 7 1 _ (0x0#6) (high 1 0 _ f (low (0x2#6 ++ r2 ++ r1) c) rfl) rfl) rfl) rfl)) (high 12 7 _ t (high 7 6 _ d (high 6 0 _ (0x0#6) (low (0x2#6 ++ r2 ++ r1 ++ c) f) rfl) rfl) rfl)) (high 5 0 _ t (low (0x2#6 ++ r2 ++ r1 ++ c ++ f ++ 0x0#6) d) rfl)) (low (0x2#6 ++ r2 ++ r1 ++ c ++ f ++ 0x0#6 ++ d) t))

theorem InTable.or (r2 : BitVec 5) (r1 : BitVec 5) (c : BitVec 3) (f : BitVec 1) (d : BitVec 1) (t : BitVec 5) : InTable.Statement (.or r2 r1 c f d t) :=
  of_index 81 _ rfl (unmasked t (unmasked d (masked (unmasked f (unmasked c (unmasked r1 (unmasked r2 (rfl : 0x2#6 &&& 0x3F#6 = 0x2#6))))) (rfl : 0x9#6 &&& 0x3F#6 = 0x9#6)))) rfl rfl (congr (congr (congr (congr (congr (congrArg Instr.or (high 21 16 _ t (high 16 15 _ d (high 15 9 _ (0x9#6) (high 9 8 _ f (high 8 5 _ c (high 5 0 _ r1 (low (0x2#6) r2) rfl) rfl) rfl) rfl) rfl) rfl)) (high 16 11 _ t (high 11 10 _ d (high 10 4 _ (0x9#6) (high 4 3 _ f (high 3 0 _ c (low (0x2#6 ++ r2) r1) rfl) rfl) rfl) rfl) rfl)) (high 13 8 _ t (high 8 7 _ d (high 7 1 _ (0x9#6) (high 1 0 _ f (low (0x2#6 ++ r2 ++ r1) c) rfl) rfl) rfl) rfl)) (high 12 7 _ t (high 7 6 _ d (high 6 0 _ (0x9#6) (low (0x2#6 ++ r2 ++ r1 ++ c) f) rfl) rfl) rfl)) (high 5 0 _ t (low (0x2#6 ++ r2 ++ r1 ++ c ++ f ++ 0x9#6) d) rfl)) (low (0x2#6 ++ r2 ++ r1 ++ c ++ f ++ 0x9#6 ++ d) t))

theorem InTable.xor (r2 : BitVec 5) (r1 : BitVec 5) (c : BitVec 3) (f : BitVec 1) (d : BitVec 1) (t : BitVec 5) : InTable.Statement (.xor r2 r1 c f d t) :=
  of_index 82 _ rfl (unmasked t (unmasked d (masked (unmasked f (unmasked c (unmasked r1 (unmasked r2 (rfl : 0x2#6 &&& 0x3F#6 = 0x2#6))))) (rfl : 0xA#6 &&& 0x3F#6 = 0xA#6)))) rfl rfl (congr (congr (congr (congr (congr (congrArg Instr.xor (high 21 16 _ t (high 16 15 _ d (high 15 9 _ (0xA#6) (high 9 8 _ f (high 8 5 _ c (high 5 0 _ r1 (low (0x2#6) r2) rfl) rfl) rfl) rfl) rfl) rfl)) (high 16 11 _ t (high 11 10 _ d (high 10 4 _ (0xA#6) (high 4 3 _ f (high 3 0 _ c (low (0x2#6 ++ r2) r1) rfl) rfl) rfl) rfl) rfl)) (high 13 8 _ t (high 8 7 _ d (high 7 1 _ (0xA#6) (high 1 0 _ f (low (0x2#6 ++ r2 ++ r1) c) rfl) rfl) rfl) rfl)) (high 12 7 _ t (high 7 6 _ d (high 6 0 _ (0xA#6) (low (0x2#6 ++ r2 ++ r1 ++ c) f) rfl) rfl) rfl)) (high 5 0 _ t (low (0x2#6 ++ r2 ++ r1 ++ c ++ f ++ 0xA#6) d) rfl)) (low (0x2#6 ++ r2 ++ r1 ++ c ++ f ++ 0xA#6 ++ d) t))

theorem InTable.cmpclr (r2 : BitVec 5) (r1 : BitVec 5) (c : BitVec 3) (f : BitVec 1) (d : BitVec 1) (t : BitVec 5) : InTable.Statement (.cmpclr r2 r1 c f d t) :=
  of_index 83 _ rfl (unmasked t (unmasked d (masked (unmasked f (unmasked c (unmasked r1 (unmasked r2 (rfl : 0x2#6 &&& 0x3F#6 = 0x2#6))))) (rfl : 0x22#6 &&& 0x3F#6 = 0x22#6)))) rfl rfl (congr (congr (congr (congr (congr (congrArg Instr.cmpclr (high 21 16 _ t (high 16 15 _ d (high 15 9 _ (0x22#6) (high 9 8 _ f (high 8 5 _ c (high 5 0 _ r1 (low (0x2#6) r2) rfl) rfl) rfl) rfl) rfl) rfl)) (high 16 11 _ t (high 11 10 _ d (high 10 4 _ (0x22#6) (high 4 3 _ f (high 3 0 _ c (low (0x2#6 ++ r2) r1) rfl) rfl) rfl) rfl) rfl)) (high 13 8 _ t (high 8 7 _ d (high 7 1 _ (0x22#6) (high 1 0 _ f (low (0x2#6 ++ r2 ++ r1) c) rfl) rfl) rfl) rfl)) (high 12 7 _ t (high 7 6 _ d (high 6 0 _ (0x22#6) (low (0x2#6 ++ r2 ++ r1 ++ c) f) rfl) rfl) rfl)) (high 5 0 _ t (low (0x2#6 ++ r2 ++ r1 ++ c ++ f ++ 0x22#6) d) rfl)) (low (0x2#6 ++ r2 ++ r1 ++ c ++ f ++ 0x22#6 ++ d) t))

theorem InTable.uxor (r2 : BitVec 5) (r1 : BitVec 5) (c : BitVec 3) (f : BitVec 1) (d : BitVec 1) (t : BitVec 5) : InTable.Statement (.uxor r2 r1 c f d t) :=
  of_index 84 _ rfl (unmasked t (unmasked d (masked (unmasked f (unmasked c (unmasked r1 (unmasked r2 (rfl : 0x2#6 &&& 0x3F#6 = 0x2#6))))) (rfl : 0xE#6 &&& 0x3F#6 = 0xE#6)))) rfl rfl (congr (congr (congr (congr (congr (congrArg Instr.uxor (high 21 16 _ t (high 16 15 _ d (high 15 9 _ (0xE#6) (high 9 8 _ f (high 8 5 _ c (high 5 0 _ r1 (low (0x2#6) r2) rfl) rfl) rfl) rfl) rfl) rfl)) (high 16 11 _ t (high 11 10 _ d (high 10 4 _ (0xE#6) (high 4 3 _ f (high 3 0 _ c (low (0x2#6 ++ r2) r1) rfl) rfl) rfl) rfl) rfl)) (high 13 8 _ t (high 8 7 _ d (high 7 1 _ (0xE#6) (high 1 0 _ f (low (0x2#6 ++ r2 ++ r1) c) rfl) rfl) rfl) rfl)) (high 12 7 _ t (high 7 6 _ d (high 6 0 _ (0xE#6) (low (0x2#6 ++ r2 ++ r1 ++ c) f) rfl) rfl) rfl)) (high 5 0 _ t (low (0x2#6 ++ r2 ++ r1 ++ c ++ f ++ 0xE#6) d) rfl)) (low (0x2#6 ++ r2 ++ r1 ++ c ++ f ++ 0xE#6 ++ d) t))

theorem InTable.uaddcm (r2 : BitVec 5) (r1 : BitVec 5) (c : BitVec 3) (f : BitVec 1) (d : BitVec 1) (t : BitVec 5) : InTable.Statement (.uaddcm r2 r1 c f d t) :=
  of_index 85 _ rfl (unmasked t (unmasked d (masked (unmasked f (unmasked c (unmasked r1 (unmasked r2 (rfl : 0x2#6 &&& 0x3F#6 = 0x2#6))))) (rfl : 0x26#6 &&& 0x3F#6 = 0x26#6)))) rfl rfl (congr (congr (congr (congr (congr (congrArg Instr.uaddcm (high 21 16 _ t (high 16 15 _ d (high 15 9 _ (0x26#6) (high 9 8 _ f (high 8 5 _ c (high 5 0 _ r1 (low (0x2#6) r2) rfl) rfl) rfl) rfl) rfl) rfl)) (high 16 11 _ t (high 11 10 _ d (high 10 4 _ (0x26#6) (high 4 3 _ f (high 3 0 _ c (low (0x2#6 ++ r2) r1) rfl) rfl) rfl) rfl) rfl)) (high 13 8 _ t (high 8 7 _ d (high 7 1 _ (0x26#6) (high 1 0 _ f (low (0x2#6 ++ r2 ++ r1) c) rfl) rfl) rfl) rfl)) (high 12 7 _ t (high 7 6 _ d (high 6 0 _ (0x26#6) (low (0x2#6 ++ r2 ++ r1 ++ c) f) rfl) rfl) rfl)) (high 5 0 _ t (low (0x2#6 ++ r2 ++ r1 ++ c ++ f ++ 0x26#6) d) rfl)) (low (0x2#6 ++ r2 ++ r1 ++ c ++ f ++ 0x26#6 ++ d) t))

theorem InTable.uaddcmTc (r2 : BitVec 5) (r1 : BitVec 5) (c : BitVec 3) (f : BitVec 1) (d : BitVec 1) (t : BitVec 5) : InTable.Statement (.uaddcmTc r2 r1 c f d t) :=
  of_index 86 _ rfl (unmasked t (unmasked d (masked (unmasked f (unmasked c (unmasked r1 (unmasked r2 (rfl : 0x2#6 &&& 0x3F#6 = 0x2#6))))) (rfl : 0x27#6 &&& 0x3F#6 = 0x27#6)))) rfl rfl (congr (congr (congr (congr (congr (congrArg Instr.uaddcmTc (high 21 16 _ t (high 16 15 _ d (high 15 9 _ (0x27#6) (high 9 8 _ f (high 8 5 _ c (high 5 0 _ r1 (low (0x2#6) r2) rfl) rfl) rfl) rfl) rfl) rfl)) (high 16 11 _ t (high 11 10 _ d (high 10 4 _ (0x27#6) (high 4 3 _ f (high 3 0 _ c (low (0x2#6 ++ r2) r1) rfl) rfl) rfl) rfl) rfl)) (high 13 8 _ t (high 8 7 _ d (high 7 1 _ (0x27#6) (high 1 0 _ f (low (0x2#6 ++ r2 ++ r1) c) rfl) rfl) rfl) rfl)) (high 12 7 _ t (high 7 6 _ d (high 6 0 _ (0x27#6) (low (0x2#6 ++ r2 ++ r1 ++ c) f) rfl) rfl) rfl)) (high 5 0 _ t (low (0x2#6 ++ r2 ++ r1 ++ c ++ f ++ 0x27#6) d) rfl)) (low (0x2#6 ++ r2 ++ r1 ++ c ++ f ++ 0x27#6 ++ d) t))

theorem InTable.shladd (r2 : BitVec 5) (r1 : BitVec 5) (c : BitVec 3) (f : BitVec 1) (sa : BitVec 2) (d : BitVec 1) (t : BitVec 5) : InTable.Statement (.shladd r2 r1 c f sa d t) := by
  intro h
  obtain rfl | rfl | rfl : sa = 1#2 ∨ sa = 2#2 ∨ sa = 3#2 := nonzero h
  · exact of_index 87 _ rfl (unmasked t (unmasked d (masked (masked (unmasked f (unmasked c (unmasked r1 (unmasked r2 (rfl : 0x2#6 &&& 0x3F#6 = 0x2#6))))) (rfl : 0x6#4 &&& 0xF#4 = 0x6#4)) (rfl : 0x1#2 &&& 0x3#2 = 0x1#2)))) rfl rfl (congr (congr (congr (congr (congr (congr (congrArg Instr.shladd (high 21 16 _ t (high 16 15 _ d (high 15 13 _ (0x1#2) (high 13 9 _ (0x6#4) (high 9 8 _ f (high 8 5 _ c (high 5 0 _ r1 (low (0x2#6) r2) rfl) rfl) rfl) rfl) rfl) rfl) rfl)) (high 16 11 _ t (high 11 10 _ d (high 10 8 _ (0x1#2) (high 8 4 _ (0x6#4) (high 4 3 _ f (high 3 0 _ c (low (0x2#6 ++ r2) r1) rfl) rfl) rfl) rfl) rfl) rfl)) (high 13 8 _ t (high 8 7 _ d (high 7 5 _ (0x1#2) (high 5 1 _ (0x6#4) (high 1 0 _ f (low (0x2#6 ++ r2 ++ r1) c) rfl) rfl) rfl) rfl) rfl)) (high 12 7 _ t (high 7 6 _ d (high 6 4 _ (0x1#2) (high 4 0 _ (0x6#4) (low (0x2#6 ++ r2 ++ r1 ++ c) f) rfl) rfl) rfl) rfl)) (high 6 1 _ t (high 1 0 _ d (low (0x2#6 ++ r2 ++ r1 ++ c ++ f ++ 0x6#4) 1#2) rfl) rfl)) (high 5 0 _ t (low (0x2#6 ++ r2 ++ r1 ++ c ++ f ++ 0x6#4 ++ 0x1#2) d) rfl)) (low (0x2#6 ++ r2 ++ r1 ++ c ++ f ++ 0x6#4 ++ 0x1#2 ++ d) t)) h
  · exact of_index 88 _ rfl (unmasked t (unmasked d (masked (masked (unmasked f (unmasked c (unmasked r1 (unmasked r2 (rfl : 0x2#6 &&& 0x3F#6 = 0x2#6))))) (rfl : 0x6#4 &&& 0xF#4 = 0x6#4)) (rfl : 0x2#2 &&& 0x3#2 = 0x2#2)))) rfl rfl (congr (congr (congr (congr (congr (congr (congrArg Instr.shladd (high 21 16 _ t (high 16 15 _ d (high 15 13 _ (0x2#2) (high 13 9 _ (0x6#4) (high 9 8 _ f (high 8 5 _ c (high 5 0 _ r1 (low (0x2#6) r2) rfl) rfl) rfl) rfl) rfl) rfl) rfl)) (high 16 11 _ t (high 11 10 _ d (high 10 8 _ (0x2#2) (high 8 4 _ (0x6#4) (high 4 3 _ f (high 3 0 _ c (low (0x2#6 ++ r2) r1) rfl) rfl) rfl) rfl) rfl) rfl)) (high 13 8 _ t (high 8 7 _ d (high 7 5 _ (0x2#2) (high 5 1 _ (0x6#4) (high 1 0 _ f (low (0x2#6 ++ r2 ++ r1) c) rfl) rfl) rfl) rfl) rfl)) (high 12 7 _ t (high 7 6 _ d (high 6 4 _ (0x2#2) (high 4 0 _ (0x6#4) (low (0x2#6 ++ r2 ++ r1 ++ c) f) rfl) rfl) rfl) rfl)) (high 6 1 _ t (high 1 0 _ d (low (0x2#6 ++ r2 ++ r1 ++ c ++ f ++ 0x6#4) 2#2) rfl) rfl)) (high 5 0 _ t (low (0x2#6 ++ r2 ++ r1 ++ c ++ f ++ 0x6#4 ++ 0x2#2) d) rfl)) (low (0x2#6 ++ r2 ++ r1 ++ c ++ f ++ 0x6#4 ++ 0x2#2 ++ d) t)) h
  · exact of_index 89 _ rfl (unmasked t (unmasked d (masked (masked (unmasked f (unmasked c (unmasked r1 (unmasked r2 (rfl : 0x2#6 &&& 0x3F#6 = 0x2#6))))) (rfl : 0x6#4 &&& 0xF#4 = 0x6#4)) (rfl : 0x3#2 &&& 0x3#2 = 0x3#2)))) rfl rfl (congr (congr (congr (congr (congr (congr (congrArg Instr.shladd (high 21 16 _ t (high 16 15 _ d (high 15 13 _ (0x3#2) (high 13 9 _ (0x6#4) (high 9 8 _ f (high 8 5 _ c (high 5 0 _ r1 (low (0x2#6) r2) rfl) rfl) rfl) rfl) rfl) rfl) rfl)) (high 16 11 _ t (high 11 10 _ d (high 10 8 _ (0x3#2) (high 8 4 _ (0x6#4) (high 4 3 _ f (high 3 0 _ c (low (0x2#6 ++ r2) r1) rfl) rfl) rfl) rfl) rfl) rfl)) (high 13 8 _ t (high 8 7 _ d (high 7 5 _ (0x3#2) (high 5 1 _ (0x6#4) (high 1 0 _ f (low (0x2#6 ++ r2 ++ r1) c) rfl) rfl) rfl) rfl) rfl)) (high 12 7 _ t (high 7 6 _ d (high 6 4 _ (0x3#2) (high 4 0 _ (0x6#4) (low (0x2#6 ++ r2 ++ r1 ++ c) f) rfl) rfl) rfl) rfl)) (high 6 1 _ t (high 1 0 _ d (low (0x2#6 ++ r2 ++ r1 ++ c ++ f ++ 0x6#4) 3#2) rfl) rfl)) (high 5 0 _ t (low (0x2#6 ++ r2 ++ r1 ++ c ++ f ++ 0x6#4 ++ 0x3#2) d) rfl)) (low (0x2#6 ++ r2 ++ r1 ++ c ++ f ++ 0x6#4 ++ 0x3#2 ++ d) t)) h

theorem InTable.shladdL (r2 : BitVec 5) (r1 : BitVec 5) (c : BitVec 3) (f : BitVec 1) (sa : BitVec 2) (d : BitVec 1) (t : BitVec 5) : InTable.Statement (.shladdL r2 r1 c f sa d t) := by
  intro h
  obtain rfl | rfl | rfl : sa = 1#2 ∨ sa = 2#2 ∨ sa = 3#2 := nonzero h
  · exact of_index 90 _ rfl (unmasked t (unmasked d (masked (masked (unmasked f (unmasked c (unmasked r1 (unmasked r2 (rfl : 0x2#6 &&& 0x3F#6 = 0x2#6))))) (rfl : 0xA#4 &&& 0xF#4 = 0xA#4)) (rfl : 0x1#2 &&& 0x3#2 = 0x1#2)))) rfl rfl (congr (congr (congr (congr (congr (congr (congrArg Instr.shladdL (high 21 16 _ t (high 16 15 _ d (high 15 13 _ (0x1#2) (high 13 9 _ (0xA#4) (high 9 8 _ f (high 8 5 _ c (high 5 0 _ r1 (low (0x2#6) r2) rfl) rfl) rfl) rfl) rfl) rfl) rfl)) (high 16 11 _ t (high 11 10 _ d (high 10 8 _ (0x1#2) (high 8 4 _ (0xA#4) (high 4 3 _ f (high 3 0 _ c (low (0x2#6 ++ r2) r1) rfl) rfl) rfl) rfl) rfl) rfl)) (high 13 8 _ t (high 8 7 _ d (high 7 5 _ (0x1#2) (high 5 1 _ (0xA#4) (high 1 0 _ f (low (0x2#6 ++ r2 ++ r1) c) rfl) rfl) rfl) rfl) rfl)) (high 12 7 _ t (high 7 6 _ d (high 6 4 _ (0x1#2) (high 4 0 _ (0xA#4) (low (0x2#6 ++ r2 ++ r1 ++ c) f) rfl) rfl) rfl) rfl)) (high 6 1 _ t (high 1 0 _ d (low (0x2#6 ++ r2 ++ r1 ++ c ++ f ++ 0xA#4) 1#2) rfl) rfl)) (high 5 0 _ t (low (0x2#6 ++ r2 ++ r1 ++ c ++ f ++ 0xA#4 ++ 0x1#2) d) rfl)) (low (0x2#6 ++ r2 ++ r1 ++ c ++ f ++ 0xA#4 ++ 0x1#2 ++ d) t)) h
  · exact of_index 91 _ rfl (unmasked t (unmasked d (masked (masked (unmasked f (unmasked c (unmasked r1 (unmasked r2 (rfl : 0x2#6 &&& 0x3F#6 = 0x2#6))))) (rfl : 0xA#4 &&& 0xF#4 = 0xA#4)) (rfl : 0x2#2 &&& 0x3#2 = 0x2#2)))) rfl rfl (congr (congr (congr (congr (congr (congr (congrArg Instr.shladdL (high 21 16 _ t (high 16 15 _ d (high 15 13 _ (0x2#2) (high 13 9 _ (0xA#4) (high 9 8 _ f (high 8 5 _ c (high 5 0 _ r1 (low (0x2#6) r2) rfl) rfl) rfl) rfl) rfl) rfl) rfl)) (high 16 11 _ t (high 11 10 _ d (high 10 8 _ (0x2#2) (high 8 4 _ (0xA#4) (high 4 3 _ f (high 3 0 _ c (low (0x2#6 ++ r2) r1) rfl) rfl) rfl) rfl) rfl) rfl)) (high 13 8 _ t (high 8 7 _ d (high 7 5 _ (0x2#2) (high 5 1 _ (0xA#4) (high 1 0 _ f (low (0x2#6 ++ r2 ++ r1) c) rfl) rfl) rfl) rfl) rfl)) (high 12 7 _ t (high 7 6 _ d (high 6 4 _ (0x2#2) (high 4 0 _ (0xA#4) (low (0x2#6 ++ r2 ++ r1 ++ c) f) rfl) rfl) rfl) rfl)) (high 6 1 _ t (high 1 0 _ d (low (0x2#6 ++ r2 ++ r1 ++ c ++ f ++ 0xA#4) 2#2) rfl) rfl)) (high 5 0 _ t (low (0x2#6 ++ r2 ++ r1 ++ c ++ f ++ 0xA#4 ++ 0x2#2) d) rfl)) (low (0x2#6 ++ r2 ++ r1 ++ c ++ f ++ 0xA#4 ++ 0x2#2 ++ d) t)) h
  · exact of_index 92 _ rfl (unmasked t (unmasked d (masked (masked (unmasked f (unmasked c (unmasked r1 (unmasked r2 (rfl : 0x2#6 &&& 0x3F#6 = 0x2#6))))) (rfl : 0xA#4 &&& 0xF#4 = 0xA#4)) (rfl : 0x3#2 &&& 0x3#2 = 0x3#2)))) rfl rfl (congr (congr (congr (congr (congr (congr (congrArg Instr.shladdL (high 21 16 _ t (high 16 15 _ d (high 15 13 _ (0x3#2) (high 13 9 _ (0xA#4) (high 9 8 _ f (high 8 5 _ c (high 5 0 _ r1 (low (0x2#6) r2) rfl) rfl) rfl) rfl) rfl) rfl) rfl)) (high 16 11 _ t (high 11 10 _ d (high 10 8 _ (0x3#2) (high 8 4 _ (0xA#4) (high 4 3 _ f (high 3 0 _ c (low (0x2#6 ++ r2) r1) rfl) rfl) rfl) rfl) rfl) rfl)) (high 13 8 _ t (high 8 7 _ d (high 7 5 _ (0x3#2) (high 5 1 _ (0xA#4) (high 1 0 _ f (low (0x2#6 ++ r2 ++ r1) c) rfl) rfl) rfl) rfl) rfl)) (high 12 7 _ t (high 7 6 _ d (high 6 4 _ (0x3#2) (high 4 0 _ (0xA#4) (low (0x2#6 ++ r2 ++ r1 ++ c) f) rfl) rfl) rfl) rfl)) (high 6 1 _ t (high 1 0 _ d (low (0x2#6 ++ r2 ++ r1 ++ c ++ f ++ 0xA#4) 3#2) rfl) rfl)) (high 5 0 _ t (low (0x2#6 ++ r2 ++ r1 ++ c ++ f ++ 0xA#4 ++ 0x3#2) d) rfl)) (low (0x2#6 ++ r2 ++ r1 ++ c ++ f ++ 0xA#4 ++ 0x3#2 ++ d) t)) h

theorem InTable.shladdTsv (r2 : BitVec 5) (r1 : BitVec 5) (c : BitVec 3) (f : BitVec 1) (sa : BitVec 2) (d : BitVec 1) (t : BitVec 5) : InTable.Statement (.shladdTsv r2 r1 c f sa d t) := by
  intro h
  obtain rfl | rfl | rfl : sa = 1#2 ∨ sa = 2#2 ∨ sa = 3#2 := nonzero h
  · exact of_index 93 _ rfl (unmasked t (unmasked d (masked (masked (unmasked f (unmasked c (unmasked r1 (unmasked r2 (rfl : 0x2#6 &&& 0x3F#6 = 0x2#6))))) (rfl : 0xE#4 &&& 0xF#4 = 0xE#4)) (rfl : 0x1#2 &&& 0x3#2 = 0x1#2)))) rfl rfl (congr (congr (congr (congr (congr (congr (congrArg Instr.shladdTsv (high 21 16 _ t (high 16 15 _ d (high 15 13 _ (0x1#2) (high 13 9 _ (0xE#4) (high 9 8 _ f (high 8 5 _ c (high 5 0 _ r1 (low (0x2#6) r2) rfl) rfl) rfl) rfl) rfl) rfl) rfl)) (high 16 11 _ t (high 11 10 _ d (high 10 8 _ (0x1#2) (high 8 4 _ (0xE#4) (high 4 3 _ f (high 3 0 _ c (low (0x2#6 ++ r2) r1) rfl) rfl) rfl) rfl) rfl) rfl)) (high 13 8 _ t (high 8 7 _ d (high 7 5 _ (0x1#2) (high 5 1 _ (0xE#4) (high 1 0 _ f (low (0x2#6 ++ r2 ++ r1) c) rfl) rfl) rfl) rfl) rfl)) (high 12 7 _ t (high 7 6 _ d (high 6 4 _ (0x1#2) (high 4 0 _ (0xE#4) (low (0x2#6 ++ r2 ++ r1 ++ c) f) rfl) rfl) rfl) rfl)) (high 6 1 _ t (high 1 0 _ d (low (0x2#6 ++ r2 ++ r1 ++ c ++ f ++ 0xE#4) 1#2) rfl) rfl)) (high 5 0 _ t (low (0x2#6 ++ r2 ++ r1 ++ c ++ f ++ 0xE#4 ++ 0x1#2) d) rfl)) (low (0x2#6 ++ r2 ++ r1 ++ c ++ f ++ 0xE#4 ++ 0x1#2 ++ d) t)) h
  · exact of_index 94 _ rfl (unmasked t (unmasked d (masked (masked (unmasked f (unmasked c (unmasked r1 (unmasked r2 (rfl : 0x2#6 &&& 0x3F#6 = 0x2#6))))) (rfl : 0xE#4 &&& 0xF#4 = 0xE#4)) (rfl : 0x2#2 &&& 0x3#2 = 0x2#2)))) rfl rfl (congr (congr (congr (congr (congr (congr (congrArg Instr.shladdTsv (high 21 16 _ t (high 16 15 _ d (high 15 13 _ (0x2#2) (high 13 9 _ (0xE#4) (high 9 8 _ f (high 8 5 _ c (high 5 0 _ r1 (low (0x2#6) r2) rfl) rfl) rfl) rfl) rfl) rfl) rfl)) (high 16 11 _ t (high 11 10 _ d (high 10 8 _ (0x2#2) (high 8 4 _ (0xE#4) (high 4 3 _ f (high 3 0 _ c (low (0x2#6 ++ r2) r1) rfl) rfl) rfl) rfl) rfl) rfl)) (high 13 8 _ t (high 8 7 _ d (high 7 5 _ (0x2#2) (high 5 1 _ (0xE#4) (high 1 0 _ f (low (0x2#6 ++ r2 ++ r1) c) rfl) rfl) rfl) rfl) rfl)) (high 12 7 _ t (high 7 6 _ d (high 6 4 _ (0x2#2) (high 4 0 _ (0xE#4) (low (0x2#6 ++ r2 ++ r1 ++ c) f) rfl) rfl) rfl) rfl)) (high 6 1 _ t (high 1 0 _ d (low (0x2#6 ++ r2 ++ r1 ++ c ++ f ++ 0xE#4) 2#2) rfl) rfl)) (high 5 0 _ t (low (0x2#6 ++ r2 ++ r1 ++ c ++ f ++ 0xE#4 ++ 0x2#2) d) rfl)) (low (0x2#6 ++ r2 ++ r1 ++ c ++ f ++ 0xE#4 ++ 0x2#2 ++ d) t)) h
  · exact of_index 95 _ rfl (unmasked t (unmasked d (masked (masked (unmasked f (unmasked c (unmasked r1 (unmasked r2 (rfl : 0x2#6 &&& 0x3F#6 = 0x2#6))))) (rfl : 0xE#4 &&& 0xF#4 = 0xE#4)) (rfl : 0x3#2 &&& 0x3#2 = 0x3#2)))) rfl rfl (congr (congr (congr (congr (congr (congr (congrArg Instr.shladdTsv (high 21 16 _ t (high 16 15 _ d (high 15 13 _ (0x3#2) (high 13 9 _ (0xE#4) (high 9 8 _ f (high 8 5 _ c (high 5 0 _ r1 (low (0x2#6) r2) rfl) rfl) rfl) rfl) rfl) rfl) rfl)) (high 16 11 _ t (high 11 10 _ d (high 10 8 _ (0x3#2) (high 8 4 _ (0xE#4) (high 4 3 _ f (high 3 0 _ c (low (0x2#6 ++ r2) r1) rfl) rfl) rfl) rfl) rfl) rfl)) (high 13 8 _ t (high 8 7 _ d (high 7 5 _ (0x3#2) (high 5 1 _ (0xE#4) (high 1 0 _ f (low (0x2#6 ++ r2 ++ r1) c) rfl) rfl) rfl) rfl) rfl)) (high 12 7 _ t (high 7 6 _ d (high 6 4 _ (0x3#2) (high 4 0 _ (0xE#4) (low (0x2#6 ++ r2 ++ r1 ++ c) f) rfl) rfl) rfl) rfl)) (high 6 1 _ t (high 1 0 _ d (low (0x2#6 ++ r2 ++ r1 ++ c ++ f ++ 0xE#4) 3#2) rfl) rfl)) (high 5 0 _ t (low (0x2#6 ++ r2 ++ r1 ++ c ++ f ++ 0xE#4 ++ 0x3#2) d) rfl)) (low (0x2#6 ++ r2 ++ r1 ++ c ++ f ++ 0xE#4 ++ 0x3#2 ++ d) t)) h

theorem InTable.ds (r2 : BitVec 5) (r1 : BitVec 5) (c : BitVec 3) (f : BitVec 1) (t : BitVec 5) : InTable.Statement (.ds r2 r1 c f t) :=
  of_index 96 _ rfl (unmasked t (masked (unmasked f (unmasked c (unmasked r1 (unmasked r2 (rfl : 0x2#6 &&& 0x3F#6 = 0x2#6))))) (rfl : 0x22#7 &&& 0x7F#7 = 0x22#7))) rfl rfl (congr (congr (congr (congr (congrArg Instr.ds (high 21 16 _ t (high 16 9 _ (0x22#7) (high 9 8 _ f (high 8 5 _ c (high 5 0 _ r1 (low (0x2#6) r2) rfl) rfl) rfl) rfl) rfl)) (high 16 11 _ t (high 11 4 _ (0x22#7) (high 4 3 _ f (high 3 0 _ c (low (0x2#6 ++ r2) r1) rfl) rfl) rfl) rfl)) (high 13 8 _ t (high 8 1 _ (0x22#7) (high 1 0 _ f (low (0x2#6 ++ r2 ++ r1) c) rfl) rfl) rfl)) (high 12 7 _ t (high 7 0 _ (0x22#7) (low (0x2#6 ++ r2 ++ r1 ++ c) f) rfl) rfl)) (low (0x2#6 ++ r2 ++ r1 ++ c ++ f ++ 0x22#7) t))

theorem InTable.dcor (r : BitVec 5) (c : BitVec 3) (f : BitVec 1) (d : BitVec 1) (t : BitVec 5) : InTable.Statement (.dcor r c f d t) :=
  of_index 97 _ rfl (unmasked t (unmasked d (masked (unmasked f (unmasked c (masked (unmasked r (rfl : 0x2#6 &&& 0x3F#6 = 0x2#6)) (rfl : 0x0#5 &&& 0x1F#5 = 0x0#5)))) (rfl : 0x2E#6 &&& 0x3F#6 = 0x2E#6)))) rfl rfl (congr (congr (congr (congr (congrArg Instr.dcor (high 21 16 _ t (high 16 15 _ d (high 15 9 _ (0x2E#6) (high 9 8 _ f (high 8 5 _ c (high 5 0 _ (0x0#5) (low (0x2#6) r) rfl) rfl) rfl) rfl) rfl) rfl)) (high 13 8 _ t (high 8 7 _ d (high 7 1 _ (0x2E#6) (high 1 0 _ f (low (0x2#6 ++ r ++ 0x0#5) c) rfl) rfl) rfl) rfl)) (high 12 7 _ t (high 7 6 _ d (high 6 0 _ (0x2E#6) (low (0x2#6 ++ r ++ 0x0#5 ++ c) f) rfl) rfl) rfl)) (high 5 0 _ t (low (0x2#6 ++ r ++ 0x0#5 ++ c ++ f ++ 0x2E#6) d) rfl)) (low (0x2#6 ++ r ++ 0x0#5 ++ c ++ f ++ 0x2E#6 ++ d) t))

theorem InTable.dcorI (r : BitVec 5) (c : BitVec 3) (f : BitVec 1) (d : BitVec 1) (t : BitVec 5) : InTable.Statement (.dcorI r c f d t) :=
  of_index 98 _ rfl (unmasked t (unmasked d (masked (unmasked f (unmasked c (masked (unmasked r (rfl : 0x2#6 &&& 0x3F#6 = 0x2#6)) (rfl : 0x0#5 &&& 0x1F#5 = 0x0#5)))) (rfl : 0x2F#6 &&& 0x3F#6 = 0x2F#6)))) rfl rfl (congr (congr (congr (congr (congrArg Instr.dcorI (high 21 16 _ t (high 16 15 _ d (high 15 9 _ (0x2F#6) (high 9 8 _ f (high 8 5 _ c (high 5 0 _ (0x0#5) (low (0x2#6) r) rfl) rfl) rfl) rfl) rfl) rfl)) (high 13 8 _ t (high 8 7 _ d (high 7 1 _ (0x2F#6) (high 1 0 _ f (low (0x2#6 ++ r ++ 0x0#5) c) rfl) rfl) rfl) rfl)) (high 12 7 _ t (high 7 6 _ d (high 6 0 _ (0x2F#6) (low (0x2#6 ++ r ++ 0x0#5 ++ c) f) rfl) rfl) rfl)) (high 5 0 _ t (low (0x2#6 ++ r ++ 0x0#5 ++ c ++ f ++ 0x2F#6) d) rfl)) (low (0x2#6 ++ r ++ 0x0#5 ++ c ++ f ++ 0x2F#6 ++ d) t))

theorem InTable.addi (r : BitVec 5) (t : BitVec 5) (c : BitVec 3) (f : BitVec 1) (e1 : BitVec 1) (im11 : BitVec 11) : InTable.Statement (.addi r t c f e1 im11) :=
  of_index 99 _ rfl (unmasked im11 (unmasked e1 (unmasked f (unmasked c (unmasked t (unmasked r (rfl : 0x2D#6 &&& 0x3F#6 = 0x2D#6))))))) rfl rfl (congr (congr (congr (congr (congr (congrArg Instr.addi (high 21 10 _ im11 (high 10 9 _ e1 (high 9 8 _ f (high 8 5 _ c (high 5 0 _ t (low (0x2D#6) r) rfl) rfl) rfl) rfl) rfl)) (high 16 5 _ im11 (high 5 4 _ e1 (high 4 3 _ f (high 3 0 _ c (low (0x2D#6 ++ r) t) rfl) rfl) rfl) rfl)) (high 13 2 _ im11 (high 2 1 _ e1 (high 1 0 _ f (low (0x2D#6 ++ r ++ t) c) rfl) rfl) rfl)) (high 12 1 _ im11 (high 1 0 _ e1 (low (0x2D#6 ++ r ++ t ++ c) f) rfl) rfl)) (high 11 0 _ im11 (low (0x2D#6 ++ r ++ t ++ c ++ f) e1) rfl)) (low (0x2D#6 ++ r ++ t ++ c ++ f ++ e1) im11))

theorem InTable.addiTc (r : BitVec 5) (t : BitVec 5) (c : BitVec 3) (f : BitVec 1) (e1 : BitVec 1) (im11 : BitVec 11) : InTable.Statement (.addiTc r t c f e1 im11) :=
  of_index 100 _ rfl (unmasked im11 (unmasked e1 (unmasked f (unmasked c (unmasked t (unmasked r (rfl : 0x2C#6 &&& 0x3F#6 = 0x2C#6))))))) rfl rfl (congr (congr (congr (congr (congr (congrArg Instr.addiTc (high 21 10 _ im11 (high 10 9 _ e1 (high 9 8 _ f (high 8 5 _ c (high 5 0 _ t (low (0x2C#6) r) rfl) rfl) rfl) rfl) rfl)) (high 16 5 _ im11 (high 5 4 _ e1 (high 4 3 _ f (high 3 0 _ c (low (0x2C#6 ++ r) t) rfl) rfl) rfl) rfl)) (high 13 2 _ im11 (high 2 1 _ e1 (high 1 0 _ f (low (0x2C#6 ++ r ++ t) c) rfl) rfl) rfl)) (high 12 1 _ im11 (high 1 0 _ e1 (low (0x2C#6 ++ r ++ t ++ c) f) rfl) rfl)) (high 11 0 _ im11 (low (0x2C#6 ++ r ++ t ++ c ++ f) e1) rfl)) (low (0x2C#6 ++ r ++ t ++ c ++ f ++ e1) im11))

theorem InTable.subi (r : BitVec 5) (t : BitVec 5) (c : BitVec 3) (f : BitVec 1) (e1 : BitVec 1) (im11 : BitVec 11) : InTable.Statement (.subi r t c f e1 im11) :=
  of_index 101 _ rfl (unmasked im11 (unmasked e1 (unmasked f (unmasked c (unmasked t (unmasked r (rfl : 0x25#6 &&& 0x3F#6 = 0x25#6))))))) rfl rfl (congr (congr (congr (congr (congr (congrArg Instr.subi (high 21 10 _ im11 (high 10 9 _ e1 (high 9 8 _ f (high 8 5 _ c (high 5 0 _ t (low (0x25#6) r) rfl) rfl) rfl) rfl) rfl)) (high 16 5 _ im11 (high 5 4 _ e1 (high 4 3 _ f (high 3 0 _ c (low (0x25#6 ++ r) t) rfl) rfl) rfl) rfl)) (high 13 2 _ im11 (high 2 1 _ e1 (high 1 0 _ f (low (0x25#6 ++ r ++ t) c) rfl) rfl) rfl)) (high 12 1 _ im11 (high 1 0 _ e1 (low (0x25#6 ++ r ++ t ++ c) f) rfl) rfl)) (high 11 0 _ im11 (low (0x25#6 ++ r ++ t ++ c ++ f) e1) rfl)) (low (0x25#6 ++ r ++ t ++ c ++ f ++ e1) im11))

theorem InTable.cmpiclr (r : BitVec 5) (t : BitVec 5) (c : BitVec 3) (f : BitVec 1) (d : BitVec 1) (im11 : BitVec 11) : InTable.Statement (.cmpiclr r t c f d im11) :=
  of_index 102 _ rfl (unmasked im11 (unmasked d (unmasked f (unmasked c (unmasked t (unmasked r (rfl : 0x24#6 &&& 0x3F#6 = 0x24#6))))))) rfl rfl (congr (congr (congr (congr (congr (congrArg Instr.cmpiclr (high 21 10 _ im11 (high 10 9 _ d (high 9 8 _ f (high 8 5 _ c (high 5 0 _ t (low (0x24#6) r) rfl) rfl) rfl) rfl) rfl)) (high 16 5 _ im11 (high 5 4 _ d (high 4 3 _ f (high 3 0 _ c (low (0x24#6 ++ r) t) rfl) rfl) rfl) rfl)) (high 13 2 _ im11 (high 2 1 _ d (high 1 0 _ f (low (0x24#6 ++ r ++ t) c) rfl) rfl) rfl)) (high 12 1 _ im11 (high 1 0 _ d (low (0x24#6 ++ r ++ t ++ c) f) rfl) rfl)) (high 11 0 _ im11 (low (0x24#6 ++ r ++ t ++ c ++ f) d) rfl)) (low (0x24#6 ++ r ++ t ++ c ++ f ++ d) im11))

theorem InTable.shrpwSar (r2 : BitVec 5) (r1 : BitVec 5) (c : BitVec 3) (t : BitVec 5) : InTable.Statement (.shrpwSar r2 r1 c t) :=
  of_index 103 _ rfl (unmasked t (masked (unmasked c (unmasked r1 (unmasked r2 (rfl : 0x34#6 &&& 0x3F#6 = 0x34#6)))) (rfl : 0x0#8 &&& 0xFF#8 = 0x0#8))) rfl rfl (congr (congr (congr (congrArg Instr.shrpwSar (high 21 16 _ t (high 16 8 _ (0x0#8) (high 8 5 _ c (high 5 0 _ r1 (low (0x34#6) r2) rfl) rfl) rfl) rfl)) (high 16 11 _ t (high 11 3 _ (0x0#8) (high 3 0 _ c (low (0x34#6 ++ r2) r1) rfl) rfl) rfl)) (high 13 8 _ t (high 8 0 _ (0x0#8) (low (0x34#6 ++ r2 ++ r1) c) rfl) rfl)) (low (0x34#6 ++ r2 ++ r1 ++ c ++ 0x0#8) t))

theorem InTable.shrpdSar (r2 : BitVec 5) (r1 : BitVec 5) (c : BitVec 3) (t : BitVec 5) : InTable.Statement (.shrpdSar r2 r1 c t) :=
  of_index 104 _ rfl (unmasked t (masked (unmasked c (unmasked r1 (unmasked r2 (rfl : 0x34#6 &&& 0x3F#6 = 0x34#6)))) (rfl : 0x10#8 &&& 0xFF#8 = 0x10#8))) rfl rfl (congr (congr (congr (congrArg Instr.shrpdSar (high 21 16 _ t (high 16 8 _ (0x10#8) (high 8 5 _ c (high 5 0 _ r1 (low (0x34#6) r2) rfl) rfl) rfl) rfl)) (high 16 11 _ t (high 11 3 _ (0x10#8) (high 3 0 _ c (low (0x34#6 ++ r2) r1) rfl) rfl) rfl)) (high 13 8 _ t (high 8 0 _ (0x10#8) (low (0x34#6 ++ r2 ++ r1) c) rfl) rfl)) (low (0x34#6 ++ r2 ++ r1 ++ c ++ 0x10#8) t))

theorem InTable.shrpwFixed (r2 : BitVec 5) (r1 : BitVec 5) (c : BitVec 3) (cpos : BitVec 5) (t : BitVec 5) : InTable.Statement (.shrpwFixed r2 r1 c cpos t) :=
  of_index 105 _ rfl (unmasked t (unmasked cpos (masked (unmasked c (unmasked r1 (unmasked r2 (rfl : 0x34#6 &&& 0x3F#6 = 0x34#6)))) (rfl : 0x2#3 &&& 0x7#3 = 0x2#3)))) rfl rfl (congr (congr (congr (congr (congrArg Instr.shrpwFixed (high 21 16 _ t (high 16 11 _ cpos (high 11 8 _ (0x2#3) (high 8 5 _ c (high 5 0 _ r1 (low (0x34#6) r2) rfl) rfl) rfl) rfl) rfl)) (high 16 11 _ t (high 11 6 _ cpos (high 6 3 _ (0x2#3) (high 3 0 _ c (low (0x34#6 ++ r2) r1) rfl) rfl) rfl) rfl)) (high 13 8 _ t (high 8 3 _ cpos (high 3 0 _ (0x2#3) (low (0x34#6 ++ r2 ++ r1) c) rfl) rfl) rfl)) (high 5 0 _ t (low (0x34#6 ++ r2 ++ r1 ++ c ++ 0x2#3) cpos) rfl)) (low (0x34#6 ++ r2 ++ r1 ++ c ++ 0x2#3 ++ cpos) t))

theorem InTable.shrpdFixed (r2 : BitVec 5) (r1 : BitVec 5) (c : BitVec 3) (cp : BitVec 1) (cpos : BitVec 5) (t : BitVec 5) : InTable.Statement (.shrpdFixed r2 r1 c cp cpos t) :=
  of_index 106 _ rfl (unmasked t (unmasked cpos (masked (unmasked cp (masked (unmasked c (unmasked r1 (unmasked r2 (rfl : 0x34#6 &&& 0x3F#6 = 0x34#6)))) (rfl : 0x0#1 &&& 0x1#1 = 0x0#1))) (rfl : 0x1#1 &&& 0x1#1 = 0x1#1)))) rfl rfl (congr (congr (congr (congr (congr (congrArg Instr.shrpdFixed (high 21 16 _ t (high 16 11 _ cpos (high 11 10 _ (0x1#1) (high 10 9 _ cp (high 9 8 _ (0x0#1) (high 8 5 _ c (high 5 0 _ r1 (low (0x34#6) r2) rfl) rfl) rfl) rfl) rfl) rfl) rfl)) (high 16 11 _ t (high 11 6 _ cpos (high 6 5 _ (0x1#1) (high 5 4 _ cp (high 4 3 _ (0x0#1) (high 3 0 _ c (low (0x34#6 ++ r2) r1) rfl) rfl) rfl) rfl) rfl) rfl)) (high 13 8 _ t (high 8 3 _ cpos (high 3 2 _ (0x1#1) (high 2 1 _ cp (high 1 0 _ (0x0#1) (low (0x34#6 ++ r2 ++ r1) c) rfl) rfl) rfl) rfl) rfl)) (high 11 6 _ t (high 6 1 _ cpos (high 1 0 _ (0x1#1) (low (0x34#6 ++ r2 ++ r1 ++ c ++ 0x0#1) cp) rfl) rfl) rfl)) (high 5 0 _ t (low (0x34#6 ++ r2 ++ r1 ++ c ++ 0x0#1 ++ cp ++ 0x1#1) cpos) rfl)) (low (0x34#6 ++ r2 ++ r1 ++ c ++ 0x0#1 ++ cp ++ 0x1#1 ++ cpos) t))

theorem InTable.extrwSar (r : BitVec 5) (t : BitVec 5) (c : BitVec 3) (se : BitVec 1) (clen : BitVec 5) : InTable.Statement (.extrwSar r t c se clen) :=
  of_index 107 _ rfl (unmasked clen (masked (unmasked se (masked (unmasked c (unmasked t (unmasked r (rfl : 0x34#6 &&& 0x3F#6 = 0x34#6)))) (rfl : 0x2#2 &&& 0x3#2 = 0x2#2))) (rfl : 0x0#5 &&& 0x1F#5 = 0x0#5))) rfl rfl (congr (congr (congr (congr (congrArg Instr.extrwSar (high 21 16 _ clen (high 16 11 _ (0x0#5) (high 11 10 _ se (high 10 8 _ (0x2#2) (high 8 5 _ c (high 5 0 _ t (low (0x34#6) r) rfl) rfl) rfl) rfl) rfl) rfl)) (high 16 11 _ clen (high 11 6 _ (0x0#5) (high 6 5 _ se (high 5 3 _ (0x2#2) (high 3 0 _ c (low (0x34#6 ++ r) t) rfl) rfl) rfl) rfl) rfl)) (high 13 8 _ clen (high 8 3 _ (0x0#5) (high 3 2 _ se (high 2 0 _ (0x2#2) (low (0x34#6 ++ r ++ t) c) rfl) rfl) rfl) rfl)) (high 10 5 _ clen (high 5 0 _ (0x0#5) (low (0x34#6 ++ r ++ t ++ c ++ 0x2#2) se) rfl) rfl)) (low (0x34#6 ++ r ++ t ++ c ++ 0x2#2 ++ se ++ 0x0#5) clen))

theorem InTable.extrdSar (r : BitVec 5) (t : BitVec 5) (c : BitVec 3) (se : BitVec 1) (cl : BitVec 1) (clen : BitVec 5) : InTable.Statement (.extrdSar r t c se cl clen) :=
  of_index 108 _ rfl (unmasked clen (masked (unmasked cl (masked (unmasked se (masked (unmasked c (unmasked t (unmasked r (rfl : 0x34#6 &&& 0x3F#6 = 0x34#6)))) (rfl : 0x2#2 &&& 0x3#2 = 0x2#2))) (rfl : 0x1#1 &&& 0x1#1 = 0x1#1))) (rfl : 0x0#3 &&& 0x7#3 = 0x0#3))) rfl rfl (congr (congr (congr (congr (congr (congrArg Instr.extrdSar (high 21 16 _ clen (high 16 13 _ (0x0#3) (high 13 12 _ cl (high 12 11 _ (0x1#1) (high 11 10 _ se (high 10 8 _ (0x2#2) (high 8 5 _ c (high 5 0 _ t (low (0x34#6) r) rfl) rfl) rfl) rfl) rfl) rfl) rfl) rfl)) (high 16 11 _ clen (high 11 8 _ (0x0#3) (high 8 7 _ cl (high 7 6 _ (0x1#1) (high 6 5 _ se (high 5 3 _ (0x2#2) (high 3 0 _ c (low (0x34#6 ++ r) t) rfl) rfl) rfl) rfl) rfl) rfl) rfl)) (high 13 8 _ clen (high 8 5 _ (0x0#3) (high 5 4 _ cl (high 4 3 _ (0x1#1) (high 3 2 _ se (high 2 0 _ (0x2#2) (low (0x34#6 ++ r ++ t) c) rfl) rfl) rfl) rfl) rfl) rfl)) (high 10 5 _ clen (high 5 2 _ (0x0#3) (high 2 1 _ cl (high 1 0 _ (0x1#1) (low (0x34#6 ++ r ++ t ++ c ++ 0x2#2) se) rfl) rfl) rfl) rfl)) (high 8 3 _ clen (high 3 0 _ (0x0#3) (low (0x34#6 ++ r ++ t ++ c ++ 0x2#2 ++ se ++ 0x1#1) cl) rfl) rfl)) (low (0x34#6 ++ r ++ t ++ c ++ 0x2#2 ++ se ++ 0x1#1 ++ cl ++ 0x0#3) clen))

theorem InTable.extrwFixed (r : BitVec 5) (t : BitVec 5) (c : BitVec 3) (se : BitVec 1) (pos : BitVec 5) (clen : BitVec 5) : InTable.Statement (.extrwFixed r t c se pos clen) :=
  of_index 109 _ rfl (unmasked clen (unmasked pos (unmasked se (masked (unmasked c (unmasked t (unmasked r (rfl : 0x34#6 &&& 0x3F#6 = 0x34#6)))) (rfl : 0x3#2 &&& 0x3#2 = 0x3#2))))) rfl rfl (congr (congr (congr (congr (congr (congrArg Instr.extrwFixed (high 21 16 _ clen (high 16 11 _ pos (high 11 10 _ se (high 10 8 _ (0x3#2) (high 8 5 _ c (high 5 0 _ t (low (0x34#6) r) rfl) rfl) rfl) rfl) rfl) rfl)) (high 16 11 _ clen (high 11 6 _ pos (high 6 5 _ se (high 5 3 _ (0x3#2) (high 3 0 _ c (low (0x34#6 ++ r) t) rfl) rfl) rfl) rfl) rfl)) (high 13 8 _ clen (high 8 3 _ pos (high 3 2 _ se (high 2 0 _ (0x3#2) (low (0x34#6 ++ r ++ t) c) rfl) rfl) rfl) rfl)) (high 10 5 _ clen (high 5 0 _ pos (low (0x34#6 ++ r ++ t ++ c ++ 0x3#2) se) rfl) rfl)) (high 5 0 _ clen (low (0x34#6 ++ r ++ t ++ c ++ 0x3#2 ++ se) pos) rfl)) (low (0x34#6 ++ r ++ t ++ c ++ 0x3#2 ++ se ++ pos) clen))

theorem InTable.extrdFixed (r : BitVec 5) (t : BitVec 5) (c : BitVec 3) (cl : BitVec 1) (p : BitVec 1) (se : BitVec 1) (pos : BitVec 5) (clen : BitVec 5) : InTable.Statement (.extrdFixed r t c cl p se pos clen) :=
  of_index 110 _ rfl (unmasked clen (unmasked pos (unmasked se (unmasked p (unmasked cl (unmasked c (unmasked t (unmasked r (rfl : 0x36#6 &&& 0x3F#6 = 0x36#6))))))))) rfl rfl (congr (congr (congr (congr (congr (congr (congr (congrArg Instr.extrdFixed (high 21 16 _ clen (high 16 11 _ pos (high 11 10 _ se (high 10 9 _ p (high 9 8 _ cl (high 8 5 _ c (high 5 0 _ t (low (0x36#6) r) rfl) rfl) rfl) rfl) rfl) rfl) rfl)) (high 16 11 _ clen (high 11 6 _ pos (high 6 5 _ se (high 5 4 _ p (high 4 3 _ cl (high 3 0 _ c (low (0x36#6 ++ r) t) rfl) rfl) rfl) rfl) rfl) rfl)) (high 13 8 _ clen (high 8 3 _ pos (high 3 2 _ se (high 2 1 _ p (high 1 0 _ cl (low (0x36#6 ++ r ++ t) c) rfl) rfl) rfl) rfl) rfl)) (high 12 7 _ clen (high 7 2 _ pos (high 2 1 _ se (high 1 0 _ p (low (0x36#6 ++ r ++ t ++ c) cl) rfl) rfl) rfl) rfl)) (high 11 6 _ clen (high 6 1 _ pos (high 1 0 _ se (low (0x36#6 ++ r ++ t ++ c ++ cl) p) rfl) rfl) rfl)) (high 10 5 _ clen (high 5 0 _ pos (low (0x36#6 ++ r ++ t ++ c ++ cl ++ p) se) rfl) rfl)) (high 5 0 _ clen (low (0x36#6 ++ r ++ t ++ c ++ cl ++ p ++ se) pos) rfl)) (low (0x36#6 ++ r ++ t ++ c ++ cl ++ p ++ se ++ pos) clen))

theorem InTable.depwSar (t : BitVec 5) (r : BitVec 5) (c : BitVec 3) (nz : BitVec 1) (clen : BitVec 5) : InTable.Statement (.depwSar t r c nz clen) :=
  of_index 111 _ rfl (unmasked clen (masked (unmasked nz (masked (unmasked c (unmasked r (unmasked t (rfl : 0x35#6 &&& 0x3F#6 = 0x35#6)))) (rfl : 0x0#2 &&& 0x3#2 = 0x0#2))) (rfl : 0x0#5 &&& 0x1F#5 = 0x0#5))) rfl rfl (congr (congr (congr (congr (congrArg Instr.depwSar (high 21 16 _ clen (high 16 11 _ (0x0#5) (high 11 10 _ nz (high 10 8 _ (0x0#2) (high 8 5 _ c (high 5 0 _ r (low (0x35#6) t) rfl) rfl) rfl) rfl) rfl) rfl)) (high 16 11 _ clen (high 11 6 _ (0x0#5) (high 6 5 _ nz (high 5 3 _ (0x0#2) (high 3 0 _ c (low (0x35#6 ++ t) r) rfl) rfl) rfl) rfl) rfl)) (high 13 8 _ clen (high 8 3 _ (0x0#5) (high 3 2 _ nz (high 2 0 _ (0x0#2) (low (0x35#6 ++ t ++ r) c) rfl) rfl) rfl) rfl)) (high 10 5 _ clen (high 5 0 _ (0x0#5) (low (0x35#6 ++ t ++ r ++ c ++ 0x0#2) nz) rfl) rfl)) (low (0x35#6 ++ t ++ r ++ c ++ 0x0#2 ++ nz ++ 0x0#5) clen))

theorem InTable.depdSar (t : BitVec 5) (r : BitVec 5) (c : BitVec 3) (nz : BitVec 1) (cl : BitVec 1) (clen : BitVec 5) : InTable.Statement (.depdSar t r c nz cl clen) :=
  of_index 112 _ rfl (unmasked clen (masked (unmasked cl (masked (unmasked nz (masked (unmasked c (unmasked r (unmasked t (rfl : 0x35#6 &&& 0x3F#6 = 0x35#6)))) (rfl : 0x0#2 &&& 0x3#2 = 0x0#2))) (rfl : 0x1#1 &&& 0x1#1 = 0x1#1))) (rfl : 0x0#3 &&& 0x7#3 = 0x0#3))) rfl rfl (congr (congr (congr (congr (congr (congrArg Instr.depdSar (high 21 16 _ clen (high 16 13 _ (0x0#3) (high 13 12 _ cl (high 12 11 _ (0x1#1) (high 11 10 _ nz (high 10 8 _ (0x0#2) (high 8 5 _ c (high 5 0 _ r (low (0x35#6) t) rfl) rfl) rfl) rfl) rfl) rfl) rfl) rfl)) (high 16 11 _ clen (high 11 8 _ (0x0#3) (high 8 7 _ cl (high 7 6 _ (0x1#1) (high 6 5 _ nz (high 5 3 _ (0x0#2) (high 3 0 _ c (low (0x35#6 ++ t) r) rfl) rfl) rfl) rfl) rfl) rfl) rfl)) (high 13 8 _ clen (high 8 5 _ (0x0#3) (high 5 4 _ cl (high 4 3 _ (0x1#1) (high 3 2 _ nz (high 2 0 _ (0x0#2) (low (0x35#6 ++ t ++ r) c) rfl) rfl) rfl) rfl) rfl) rfl)) (high 10 5 _ clen (high 5 2 _ (0x0#3) (high 2 1 _ cl (high 1 0 _ (0x1#1) (low (0x35#6 ++ t ++ r ++ c ++ 0x0#2) nz) rfl) rfl) rfl) rfl)) (high 8 3 _ clen (high 3 0 _ (0x0#3) (low (0x35#6 ++ t ++ r ++ c ++ 0x0#2 ++ nz ++ 0x1#1) cl) rfl) rfl)) (low (0x35#6 ++ t ++ r ++ c ++ 0x0#2 ++ nz ++ 0x1#1 ++ cl ++ 0x0#3) clen))

theorem InTable.depwFixed (t : BitVec 5) (r : BitVec 5) (c : BitVec 3) (nz : BitVec 1) (cpos : BitVec 5) (clen : BitVec 5) : InTable.Statement (.depwFixed t r c nz cpos clen) :=
  of_index 113 _ rfl (unmasked clen (unmasked cpos (unmasked nz (masked (unmasked c (unmasked r (unmasked t (rfl : 0x35#6 &&& 0x3F#6 = 0x35#6)))) (rfl : 0x1#2 &&& 0x3#2 = 0x1#2))))) rfl rfl (congr (congr (congr (congr (congr (congrArg Instr.depwFixed (high 21 16 _ clen (high 16 11 _ cpos (high 11 10 _ nz (high 10 8 _ (0x1#2) (high 8 5 _ c (high 5 0 _ r (low (0x35#6) t) rfl) rfl) rfl) rfl) rfl) rfl)) (high 16 11 _ clen (high 11 6 _ cpos (high 6 5 _ nz (high 5 3 _ (0x1#2) (high 3 0 _ c (low (0x35#6 ++ t) r) rfl) rfl) rfl) rfl) rfl)) (high 13 8 _ clen (high 8 3 _ cpos (high 3 2 _ nz (high 2 0 _ (0x1#2) (low (0x35#6 ++ t ++ r) c) rfl) rfl) rfl) rfl)) (high 10 5 _ clen (high 5 0 _ cpos (low (0x35#6 ++ t ++ r ++ c ++ 0x1#2) nz) rfl) rfl)) (high 5 0 _ clen (low (0x35#6 ++ t ++ r ++ c ++ 0x1#2 ++ nz) cpos) rfl)) (low (0x35#6 ++ t ++ r ++ c ++ 0x1#2 ++ nz ++ cpos) clen))

theorem InTable.depwiSar (t : BitVec 5) (im5 : BitVec 5) (c : BitVec 3) (nz : BitVec 1) (clen : BitVec 5) : InTable.Statement (.depwiSar t im5 c nz clen) :=
  of_index 114 _ rfl (unmasked clen (masked (unmasked nz (masked (unmasked c (unmasked im5 (unmasked t (rfl : 0x35#6 &&& 0x3F#6 = 0x35#6)))) (rfl : 0x2#2 &&& 0x3#2 = 0x2#2))) (rfl : 0x0#5 &&& 0x1F#5 = 0x0#5))) rfl rfl (congr (congr (congr (congr (congrArg Instr.depwiSar (high 21 16 _ clen (high 16 11 _ (0x0#5) (high 11 10 _ nz (high 10 8 _ (0x2#2) (high 8 5 _ c (high 5 0 _ im5 (low (0x35#6) t) rfl) rfl) rfl) rfl) rfl) rfl)) (high 16 11 _ clen (high 11 6 _ (0x0#5) (high 6 5 _ nz (high 5 3 _ (0x2#2) (high 3 0 _ c (low (0x35#6 ++ t) im5) rfl) rfl) rfl) rfl) rfl)) (high 13 8 _ clen (high 8 3 _ (0x0#5) (high 3 2 _ nz (high 2 0 _ (0x2#2) (low (0x35#6 ++ t ++ im5) c) rfl) rfl) rfl) rfl)) (high 10 5 _ clen (high 5 0 _ (0x0#5) (low (0x35#6 ++ t ++ im5 ++ c ++ 0x2#2) nz) rfl) rfl)) (low (0x35#6 ++ t ++ im5 ++ c ++ 0x2#2 ++ nz ++ 0x0#5) clen))

theorem InTable.depdiSar (t : BitVec 5) (im5 : BitVec 5) (c : BitVec 3) (nz : BitVec 1) (cl : BitVec 1) (clen : BitVec 5) : InTable.Statement (.depdiSar t im5 c nz cl clen) :=
  of_index 115 _ rfl (unmasked clen (masked (unmasked cl (masked (unmasked nz (masked (unmasked c (unmasked im5 (unmasked t (rfl : 0x35#6 &&& 0x3F#6 = 0x35#6)))) (rfl : 0x2#2 &&& 0x3#2 = 0x2#2))) (rfl : 0x1#1 &&& 0x1#1 = 0x1#1))) (rfl : 0x0#3 &&& 0x7#3 = 0x0#3))) rfl rfl (congr (congr (congr (congr (congr (congrArg Instr.depdiSar (high 21 16 _ clen (high 16 13 _ (0x0#3) (high 13 12 _ cl (high 12 11 _ (0x1#1) (high 11 10 _ nz (high 10 8 _ (0x2#2) (high 8 5 _ c (high 5 0 _ im5 (low (0x35#6) t) rfl) rfl) rfl) rfl) rfl) rfl) rfl) rfl)) (high 16 11 _ clen (high 11 8 _ (0x0#3) (high 8 7 _ cl (high 7 6 _ (0x1#1) (high 6 5 _ nz (high 5 3 _ (0x2#2) (high 3 0 _ c (low (0x35#6 ++ t) im5) rfl) rfl) rfl) rfl) rfl) rfl) rfl)) (high 13 8 _ clen (high 8 5 _ (0x0#3) (high 5 4 _ cl (high 4 3 _ (0x1#1) (high 3 2 _ nz (high 2 0 _ (0x2#2) (low (0x35#6 ++ t ++ im5) c) rfl) rfl) rfl) rfl) rfl) rfl)) (high 10 5 _ clen (high 5 2 _ (0x0#3) (high 2 1 _ cl (high 1 0 _ (0x1#1) (low (0x35#6 ++ t ++ im5 ++ c ++ 0x2#2) nz) rfl) rfl) rfl) rfl)) (high 8 3 _ clen (high 3 0 _ (0x0#3) (low (0x35#6 ++ t ++ im5 ++ c ++ 0x2#2 ++ nz ++ 0x1#1) cl) rfl) rfl)) (low (0x35#6 ++ t ++ im5 ++ c ++ 0x2#2 ++ nz ++ 0x1#1 ++ cl ++ 0x0#3) clen))

theorem InTable.depwiFixed (t : BitVec 5) (im5 : BitVec 5) (c : BitVec 3) (nz : BitVec 1) (cpos : BitVec 5) (clen : BitVec 5) : InTable.Statement (.depwiFixed t im5 c nz cpos clen) :=
  of_index 116 _ rfl (unmasked clen (unmasked cpos (unmasked nz (masked (unmasked c (unmasked im5 (unmasked t (rfl : 0x35#6 &&& 0x3F#6 = 0x35#6)))) (rfl : 0x3#2 &&& 0x3#2 = 0x3#2))))) rfl rfl (congr (congr (congr (congr (congr (congrArg Instr.depwiFixed (high 21 16 _ clen (high 16 11 _ cpos (high 11 10 _ nz (high 10 8 _ (0x3#2) (high 8 5 _ c (high 5 0 _ im5 (low (0x35#6) t) rfl) rfl) rfl) rfl) rfl) rfl)) (high 16 11 _ clen (high 11 6 _ cpos (high 6 5 _ nz (high 5 3 _ (0x3#2) (high 3 0 _ c (low (0x35#6 ++ t) im5) rfl) rfl) rfl) rfl) rfl)) (high 13 8 _ clen (high 8 3 _ cpos (high 3 2 _ nz (high 2 0 _ (0x3#2) (low (0x35#6 ++ t ++ im5) c) rfl) rfl) rfl) rfl)) (high 10 5 _ clen (high 5 0 _ cpos (low (0x35#6 ++ t ++ im5 ++ c ++ 0x3#2) nz) rfl) rfl)) (high 5 0 _ clen (low (0x35#6 ++ t ++ im5 ++ c ++ 0x3#2 ++ nz) cpos) rfl)) (low (0x35#6 ++ t ++ im5 ++ c ++ 0x3#2 ++ nz ++ cpos) clen))

theorem InTable.depdFixed (t : BitVec 5) (r : BitVec 5) (c : BitVec 3) (cl : BitVec 1) (cp : BitVec 1) (nz : BitVec 1) (cpos : BitVec 5) (clen : BitVec 5) : InTable.Statement (.depdFixed t r c cl cp nz cpos clen) :=
  of_index 117 _ rfl (unmasked clen (unmasked cpos (unmasked nz (unmasked cp (unmasked cl (unmasked c (unmasked r (unmasked t (rfl : 0x3C#6 &&& 0x3F#6 = 0x3C#6))))))))) rfl rfl (congr (congr (congr (congr (congr (congr (congr (congrArg Instr.depdFixed (high 21 16 _ clen (high 16 11 _ cpos (high 11 10 _ nz (high 10 9 _ cp (high 9 8 _ cl (high 8 5 _ c (high 5 0 _ r (low (0x3C#6) t) rfl) rfl) rfl) rfl) rfl) rfl) rfl)) (high 16 11 _ clen (high 11 6 _ cpos (high 6 5 _ nz (high 5 4 _ cp (high 4 3 _ cl (high 3 0 _ c (low (0x3C#6 ++ t) r) rfl) rfl) rfl) rfl) rfl) rfl)) (high 13 8 _ clen (high 8 3 _ cpos (high 3 2 _ nz (high 2 1 _ cp (high 1 0 _ cl (low (0x3C#6 ++ t ++ r) c) rfl) rfl) rfl) rfl) rfl)) (high 12 7 _ clen (high 7 2 _ cpos (high 2 1 _ nz (high 1 0 _ cp (low (0x3C#6 ++ t ++ r ++ c) cl) rfl) rfl) rfl) rfl)) (high 11 6 _ clen (high 6 1 _ cpos (high 1 0 _ nz (low (0x3C#6 ++ t ++ r ++ c ++ cl) cp) rfl) rfl) rfl)) (high 10 5 _ clen (high 5 0 _ cpos (low (0x3C#6 ++ t ++ r ++ c ++ cl ++ cp) nz) rfl) rfl)) (high 5 0 _ clen (low (0x3C#6 ++ t ++ r ++ c ++ cl ++ cp ++ nz) cpos) rfl)) (low (0x3C#6 ++ t ++ r ++ c ++ cl ++ cp ++ nz ++ cpos) clen))

theorem InTable.depdiFixed (t : BitVec 5) (im5 : BitVec 5) (c : BitVec 3) (cl : BitVec 1) (cp : BitVec 1) (nz : BitVec 1) (cpos : BitVec 5) (clen : BitVec 5) : InTable.Statement (.depdiFixed t im5 c cl cp nz cpos clen) :=
  of_index 118 _ rfl (unmasked clen (unmasked cpos (unmasked nz (unmasked cp (unmasked cl (unmasked c (unmasked im5 (unmasked t (rfl : 0x3D#6 &&& 0x3F#6 = 0x3D#6))))))))) rfl rfl (congr (congr (congr (congr (congr (congr (congr (congrArg Instr.depdiFixed (high 21 16 _ clen (high 16 11 _ cpos (high 11 10 _ nz (high 10 9 _ cp (high 9 8 _ cl (high 8 5 _ c (high 5 0 _ im5 (low (0x3D#6) t) rfl) rfl) rfl) rfl) rfl) rfl) rfl)) (high 16 11 _ clen (high 11 6 _ cpos (high 6 5 _ nz (high 5 4 _ cp (high 4 3 _ cl (high 3 0 _ c (low (0x3D#6 ++ t) im5) rfl) rfl) rfl) rfl) rfl) rfl)) (high 13 8 _ clen (high 8 3 _ cpos (high 3 2 _ nz (high 2 1 _ cp (high 1 0 _ cl (low (0x3D#6 ++ t ++ im5) c) rfl) rfl) rfl) rfl) rfl)) (high 12 7 _ clen (high 7 2 _ cpos (high 2 1 _ nz (high 1 0 _ cp (low (0x3D#6 ++ t ++ im5 ++ c) cl) rfl) rfl) rfl) rfl)) (high 11 6 _ clen (high 6 1 _ cpos (high 1 0 _ nz (low (0x3D#6 ++ t ++ im5 ++ c ++ cl) cp) rfl) rfl) rfl)) (high 10 5 _ clen (high 5 0 _ cpos (low (0x3D#6 ++ t ++ im5 ++ c ++ cl ++ cp) nz) rfl) rfl)) (high 5 0 _ clen (low (0x3D#6 ++ t ++ im5 ++ c ++ cl ++ cp ++ nz) cpos) rfl)) (low (0x3D#6 ++ t ++ im5 ++ c ++ cl ++ cp ++ nz ++ cpos) clen))

theorem InTable.hadd (r2 : BitVec 5) (r1 : BitVec 5) (t : BitVec 5) : InTable.Statement (.hadd r2 r1 t) :=
  of_index 119 _ rfl (unmasked t (masked (unmasked r1 (unmasked r2 (rfl : 0x2#6 &&& 0x3F#6 = 0x2#6))) (rfl : 0x1E#11 &&& 0x7FF#11 = 0x1E#11))) rfl rfl (congr (congr (congrArg Instr.hadd (high 21 16 _ t (high 16 5 _ (0x1E#11) (high 5 0 _ r1 (low (0x2#6) r2) rfl) rfl) rfl)) (high 16 11 _ t (high 11 0 _ (0x1E#11) (low (0x2#6 ++ r2) r1) rfl) rfl)) (low (0x2#6 ++ r2 ++ r1 ++ 0x1E#11) t))

theorem InTable.haddSs (r2 : BitVec 5) (r1 : BitVec 5) (t : BitVec 5) : InTable.Statement (.haddSs r2 r1 t) :=
  of_index 120 _ rfl (unmasked t (masked (unmasked r1 (unmasked r2 (rfl : 0x2#6 &&& 0x3F#6 = 0x2#6))) (rfl : 0x1A#11 &&& 0x7FF#11 = 0x1A#11))) rfl rfl (congr (congr (congrArg Instr.haddSs (high 21 16 _ t (high 16 5 _ (0x1A#11) (high 5 0 _ r1 (low (0x2#6) r2) rfl) rfl) rfl)) (high 16 11 _ t (high 11 0 _ (0x1A#11) (low (0x2#6 ++ r2) r1) rfl) rfl)) (low (0x2#6 ++ r2 ++ r1 ++ 0x1A#11) t))

theorem InTable.haddUs (r2 : BitVec 5) (r1 : BitVec 5) (t : BitVec 5) : InTable.Statement (.haddUs r2 r1 t) :=
  of_index 121 _ rfl (unmasked t (masked (unmasked r1 (unmasked r2 (rfl : 0x2#6 &&& 0x3F#6 = 0x2#6))) (rfl : 0x18#11 &&& 0x7FF#11 = 0x18#11))) rfl rfl (congr (congr (congrArg Instr.haddUs (high 21 16 _ t (high 16 5 _ (0x18#11) (high 5 0 _ r1 (low (0x2#6) r2) rfl) rfl) rfl)) (high 16 11 _ t (high 11 0 _ (0x18#11) (low (0x2#6 ++ r2) r1) rfl) rfl)) (low (0x2#6 ++ r2 ++ r1 ++ 0x18#11) t))

theorem InTable.hsub (r2 : BitVec 5) (r1 : BitVec 5) (t : BitVec 5) : InTable.Statement (.hsub r2 r1 t) :=
  of_index 122 _ rfl (unmasked t (masked (unmasked r1 (unmasked r2 (rfl : 0x2#6 &&& 0x3F#6 = 0x2#6))) (rfl : 0xE#11 &&& 0x7FF#11 = 0xE#11))) rfl rfl (congr (congr (congrArg Instr.hsub (high 21 16 _ t (high 16 5 _ (0xE#11) (high 5 0 _ r1 (low (0x2#6) r2) rfl) rfl) rfl)) (high 16 11 _ t (high 11 0 _ (0xE#11) (low (0x2#6 ++ r2) r1) rfl) rfl)) (low (0x2#6 ++ r2 ++ r1 ++ 0xE#11) t))

theorem InTable.hsubSs (r2 : BitVec 5) (r1 : BitVec 5) (t : BitVec 5) : InTable.Statement (.hsubSs r2 r1 t) :=
  of_index 123 _ rfl (unmasked t (masked (unmasked r1 (unmasked r2 (rfl : 0x2#6 &&& 0x3F#6 = 0x2#6))) (rfl : 0xA#11 &&& 0x7FF#11 = 0xA#11))) rfl rfl (congr (congr (congrArg Instr.hsubSs (high 21 16 _ t (high 16 5 _ (0xA#11) (high 5 0 _ r1 (low (0x2#6) r2) rfl) rfl) rfl)) (high 16 11 _ t (high 11 0 _ (0xA#11) (low (0x2#6 ++ r2) r1) rfl) rfl)) (low (0x2#6 ++ r2 ++ r1 ++ 0xA#11) t))

theorem InTable.hsubUs (r2 : BitVec 5) (r1 : BitVec 5) (t : BitVec 5) : InTable.Statement (.hsubUs r2 r1 t) :=
  of_index 124 _ rfl (unmasked t (masked (unmasked r1 (unmasked r2 (rfl : 0x2#6 &&& 0x3F#6 = 0x2#6))) (rfl : 0x8#11 &&& 0x7FF#11 = 0x8#11))) rfl rfl (congr (congr (congrArg Instr.hsubUs (high 21 16 _ t (high 16 5 _ (0x8#11) (high 5 0 _ r1 (low (0x2#6) r2) rfl) rfl) rfl)) (high 16 11 _ t (high 11 0 _ (0x8#11) (low (0x2#6 ++ r2) r1) rfl) rfl)) (low (0x2#6 ++ r2 ++ r1 ++ 0x8#11) t))

theorem InTable.havg (r2 : BitVec 5) (r1 : BitVec 5) (t : BitVec 5) : InTable.Statement (.havg r2 r1 t) :=
  of_index 125 _ rfl (unmasked t (masked (unmasked r1 (unmasked r2 (rfl : 0x2#6 &&& 0x3F#6 = 0x2#6))) (rfl : 0x16#11 &&& 0x7FF#11 = 0x16#11))) rfl rfl (congr (congr (congrArg Instr.havg (high 21 16 _ t (high 16 5 _ (0x16#11) (high 5 0 _ r1 (low (0x2#6) r2) rfl) rfl) rfl)) (high 16 11 _ t (high 11 0 _ (0x16#11) (low (0x2#6 ++ r2) r1) rfl) rfl)) (low (0x2#6 ++ r2 ++ r1 ++ 0x16#11) t))

theorem InTable.hshladd (r2 : BitVec 5) (r1 : BitVec 5) (sa : BitVec 2) (t : BitVec 5) : InTable.Statement (.hshladd r2 r1 sa t) := by
  intro h
  obtain rfl | rfl | rfl : sa = 1#2 ∨ sa = 2#2 ∨ sa = 3#2 := nonzero h
  · exact of_index 126 _ rfl (unmasked t (masked (masked (masked (unmasked r1 (unmasked r2 (rfl : 0x2#6 &&& 0x3F#6 = 0x2#6))) (rfl : 0x7#8 &&& 0xFF#8 = 0x7#8)) (rfl : 0x1#2 &&& 0x3#2 = 0x1#2)) (rfl : 0x0#1 &&& 0x1#1 = 0x0#1))) rfl rfl (congr (congr (congr (congrArg Instr.hshladd (high 21 16 _ t (high 16 15 _ (0x0#1) (high 15 13 _ (0x1#2) (high 13 5 _ (0x7#8) (high 5 0 _ r1 (low (0x2#6) r2) rfl) rfl) rfl) rfl) rfl)) (high 16 11 _ t (high 11 10 _ (0x0#1) (high 10 8 _ (0x1#2) (high 8 0 _ (0x7#8) (low (0x2#6 ++ r2) r1) rfl) rfl) rfl) rfl)) (high 6 1 _ t (high 1 0 _ (0x0#1) (low (0x2#6 ++ r2 ++ r1 ++ 0x7#8) 1#2) rfl) rfl)) (low (0x2#6 ++ r2 ++ r1 ++ 0x7#8 ++ 0x1#2 ++ 0x0#1) t)) h
  · exact of_index 127 _ rfl (unmasked t (masked (masked (masked (unmasked r1 (unmasked r2 (rfl : 0x2#6 &&& 0x3F#6 = 0x2#6))) (rfl : 0x7#8 &&& 0xFF#8 = 0x7#8)) (rfl : 0x2#2 &&& 0x3#2 = 0x2#2)) (rfl : 0x0#1 &&& 0x1#1 = 0x0#1))) rfl rfl (congr (congr (congr (congrArg Instr.hshladd (high 21 16 _ t (high 16 15 _ (0x0#1) (high 15 13 _ (0x2#2) (high 13 5 _ (0x7#8) (high 5 0 _ r1 (low (0x2#6) r2) rfl) rfl) rfl) rfl) rfl)) (high 16 11 _ t (high 11 10 _ (0x0#1) (high 10 8 _ (0x2#2) (high 8 0 _ (0x7#8) (low (0x2#6 ++ r2) r1) rfl) rfl) rfl) rfl)) (high 6 1 _ t (high 1 0 _ (0x0#1) (low (0x2#6 ++ r2 ++ r1 ++ 0x7#8) 2#2) rfl) rfl)) (low (0x2#6 ++ r2 ++ r1 ++ 0x7#8 ++ 0x2#2 ++ 0x0#1) t)) h
  · exact of_index 128 _ rfl (unmasked t (masked (masked (masked (unmasked r1 (unmasked r2 (rfl : 0x2#6 &&& 0x3F#6 = 0x2#6))) (rfl : 0x7#8 &&& 0xFF#8 = 0x7#8)) (rfl : 0x3#2 &&& 0x3#2 = 0x3#2)) (rfl : 0x0#1 &&& 0x1#1 = 0x0#1))) rfl rfl (congr (congr (congr (congrArg Instr.hshladd (high 21 16 _ t (high 16 15 _ (0x0#1) (high 15 13 _ (0x3#2) (high 13 5 _ (0x7#8) (high 5 0 _ r1 (low (0x2#6) r2) rfl) rfl) rfl) rfl) rfl)) (high 16 11 _ t (high 11 10 _ (0x0#1) (high 10 8 _ (0x3#2) (high 8 0 _ (0x7#8) (low (0x2#6 ++ r2) r1) rfl) rfl) rfl) rfl)) (high 6 1 _ t (high 1 0 _ (0x0#1) (low (0x2#6 ++ r2 ++ r1 ++ 0x7#8) 3#2) rfl) rfl)) (low (0x2#6 ++ r2 ++ r1 ++ 0x7#8 ++ 0x3#2 ++ 0x0#1) t)) h

theorem InTable.hshradd (r2 : BitVec 5) (r1 : BitVec 5) (sa : BitVec 2) (t : BitVec 5) : InTable.Statement (.hshradd r2 r1 sa t) := by
  intro h
  obtain rfl | rfl | rfl : sa = 1#2 ∨ sa = 2#2 ∨ sa = 3#2 := nonzero h
  · exact of_index 129 _ rfl (unmasked t (masked (masked (masked (unmasked r1 (unmasked r2 (rfl : 0x2#6 &&& 0x3F#6 = 0x2#6))) (rfl : 0x5#8 &&& 0xFF#8 = 0x5#8)) (rfl : 0x1#2 &&& 0x3#2 = 0x1#2)) (rfl : 0x0#1 &&& 0x1#1 = 0x0#1))) rfl rfl (congr (congr (congr (congrArg Instr.hshradd (high 21 16 _ t (high 16 15 _ (0x0#1) (high 15 13 _ (0x1#2) (high 13 5 _ (0x5#8) (high 5 0 _ r1 (low (0x2#6) r2) rfl) rfl) rfl) rfl) rfl)) (high 16 11 _ t (high 11 10 _ (0x0#1) (high 10 8 _ (0x1#2) (high 8 0 _ (0x5#8) (low (0x2#6 ++ r2) r1) rfl) rfl) rfl) rfl)) (high 6 1 _ t (high 1 0 _ (0x0#1) (low (0x2#6 ++ r2 ++ r1 ++ 0x5#8) 1#2) rfl) rfl)) (low (0x2#6 ++ r2 ++ r1 ++ 0x5#8 ++ 0x1#2 ++ 0x0#1) t)) h
  · exact of_index 130 _ rfl (unmasked t (masked (masked (masked (unmasked r1 (unmasked r2 (rfl : 0x2#6 &&& 0x3F#6 = 0x2#6))) (rfl : 0x5#8 &&& 0xFF#8 = 0x5#8)) (rfl : 0x2#2 &&& 0x3#2 = 0x2#2)) (rfl : 0x0#1 &&& 0x1#1 = 0x0#1))) rfl rfl (congr (congr (congr (congrArg Instr.hshradd (high 21 16 _ t (high 16 15 _ (0x0#1) (high 15 13 _ (0x2#2) (high 13 5 _ (0x5#8) (high 5 0 _ r1 (low (0x2#6) r2) rfl) rfl) rfl) rfl) rfl)) (high 16 11 _ t (high 11 10 _ (0x0#1) (high 10 8 _ (0x2#2) (high 8 0 _ (0x5#8) (low (0x2#6 ++ r2) r1) rfl) rfl) rfl) rfl)) (high 6 1 _ t (high 1 0 _ (0x0#1) (low (0x2#6 ++ r2 ++ r1 ++ 0x5#8) 2#2) rfl) rfl)) (low (0x2#6 ++ r2 ++ r1 ++ 0x5#8 ++ 0x2#2 ++ 0x0#1) t)) h
  · exact of_index 131 _ rfl (unmasked t (masked (masked (masked (unmasked r1 (unmasked r2 (rfl : 0x2#6 &&& 0x3F#6 = 0x2#6))) (rfl : 0x5#8 &&& 0xFF#8 = 0x5#8)) (rfl : 0x3#2 &&& 0x3#2 = 0x3#2)) (rfl : 0x0#1 &&& 0x1#1 = 0x0#1))) rfl rfl (congr (congr (congr (congrArg Instr.hshradd (high 21 16 _ t (high 16 15 _ (0x0#1) (high 15 13 _ (0x3#2) (high 13 5 _ (0x5#8) (high 5 0 _ r1 (low (0x2#6) r2) rfl) rfl) rfl) rfl) rfl)) (high 16 11 _ t (high 11 10 _ (0x0#1) (high 10 8 _ (0x3#2) (high 8 0 _ (0x5#8) (low (0x2#6 ++ r2) r1) rfl) rfl) rfl) rfl)) (high 6 1 _ t (high 1 0 _ (0x0#1) (low (0x2#6 ++ r2 ++ r1 ++ 0x5#8) 3#2) rfl) rfl)) (low (0x2#6 ++ r2 ++ r1 ++ 0x5#8 ++ 0x3#2 ++ 0x0#1) t)) h

theorem InTable.hshl (r : BitVec 5) (sa : BitVec 4) (t : BitVec 5) : InTable.Statement (.hshl r sa t) :=
  of_index 132 _ rfl (unmasked t (masked (unmasked sa (masked (unmasked r (rfl : 0x7C0#11 &&& 0x7FF#11 = 0x7C0#11)) (rfl : 0x22#6 &&& 0x3F#6 = 0x22#6))) (rfl : 0x0#1 &&& 0x1#1 = 0x0#1))) rfl rfl (congr (congr (congrArg Instr.hshl (high 16 11 _ t (high 11 10 _ (0x0#1) (high 10 6 _ sa (high 6 0 _ (0x22#6) (low (0x7C0#11) r) rfl) rfl) rfl) rfl)) (high 6 1 _ t (high 1 0 _ (0x0#1) (low (0x7C0#11 ++ r ++ 0x22#6) sa) rfl) rfl)) (low (0x7C0#11 ++ r ++ 0x22#6 ++ sa ++ 0x0#1) t))

theorem InTable.hshrU (r : BitVec 5) (sa : BitVec 4) (t : BitVec 5) : InTable.Statement (.hshrU r sa t) :=
  of_index 133 _ rfl (unmasked t (masked (unmasked sa (masked (unmasked r (rfl : 0x3E#6 &&& 0x3F#6 = 0x3E#6)) (rfl : 0x32#11 &&& 0x7FF#11 = 0x32#11))) (rfl : 0x0#1 &&& 0x1#1 = 0x0#1))) rfl rfl (congr (congr (congrArg Instr.hshrU (high 21 16 _ t (high 16 15 _ (0x0#1) (high 15 11 _ sa (high 11 0 _ (0x32#11) (low (0x3E#6) r) rfl) rfl) rfl) rfl)) (high 6 1 _ t (high 1 0 _ (0x0#1) (low (0x3E#6 ++ r ++ 0x32#11) sa) rfl) rfl)) (low (0x3E#6 ++ r ++ 0x32#11 ++ sa ++ 0x0#1) t))

theorem InTable.hshrS (r : BitVec 5) (sa : BitVec 4) (t : BitVec 5) : InTable.Statement (.hshrS r sa t) :=
  of_index 134 _ rfl (unmasked t (masked (unmasked sa (masked (unmasked r (rfl : 0x3E#6 &&& 0x3F#6 = 0x3E#6)) (rfl : 0x33#11 &&& 0x7FF#11 = 0x33#11))) (rfl : 0x0#1 &&& 0x1#1 = 0x0#1))) rfl rfl (congr (congr (congrArg Instr.hshrS (high 21 16 _ t (high 16 15 _ (0x0#1) (high 15 11 _ sa (high 11 0 _ (0x33#11) (low (0x3E#6) r) rfl) rfl) rfl) rfl)) (high 6 1 _ t (high 1 0 _ (0x0#1) (low (0x3E#6 ++ r ++ 0x33#11) sa) rfl) rfl)) (low (0x3E#6 ++ r ++ 0x33#11 ++ sa ++ 0x0#1) t))

theorem InTable.mixhL (r2 : BitVec 5) (r1 : BitVec 5) (t : BitVec 5) : InTable.Statement (.mixhL r2 r1 t) :=
  of_index 135 _ rfl (unmasked t (masked (unmasked r1 (unmasked r2 (rfl : 0x3E#6 &&& 0x3F#6 = 0x3E#6))) (rfl : 0x420#11 &&& 0x7FF#11 = 0x420#11))) rfl rfl (congr (congr (congrArg Instr.mixhL (high 21 16 _ t (high 16 5 _ (0x420#11) (high 5 0 _ r1 (low (0x3E#6) r2) rfl) rfl) rfl)) (high 16 11 _ t (high 11 0 _ (0x420#11) (low (0x3E#6 ++ r2) r1) rfl) rfl)) (low (0x3E#6 ++ r2 ++ r1 ++ 0x420#11) t))

theorem InTable.mixhR (r2 : BitVec 5) (r1 : BitVec 5) (t : BitVec 5) : InTable.Statement (.mixhR r2 r1 t) :=
  of_index 136 _ rfl (unmasked t (masked (unmasked r1 (unmasked r2 (rfl : 0x3E#6 &&& 0x3F#6 = 0x3E#6))) (rfl : 0x620#11 &&& 0x7FF#11 = 0x620#11))) rfl rfl (congr (congr (congrArg Instr.mixhR (high 21 16 _ t (high 16 5 _ (0x620#11) (high 5 0 _ r1 (low (0x3E#6) r2) rfl) rfl) rfl)) (high 16 11 _ t (high 11 0 _ (0x620#11) (low (0x3E#6 ++ r2) r1) rfl) rfl)) (low (0x3E#6 ++ r2 ++ r1 ++ 0x620#11) t))

theorem InTable.mixwL (r2 : BitVec 5) (r1 : BitVec 5) (t : BitVec 5) : InTable.Statement (.mixwL r2 r1 t) :=
  of_index 137 _ rfl (unmasked t (masked (unmasked r1 (unmasked r2 (rfl : 0x3E#6 &&& 0x3F#6 = 0x3E#6))) (rfl : 0x400#11 &&& 0x7FF#11 = 0x400#11))) rfl rfl (congr (congr (congrArg Instr.mixwL (high 21 16 _ t (high 16 5 _ (0x400#11) (high 5 0 _ r1 (low (0x3E#6) r2) rfl) rfl) rfl)) (high 16 11 _ t (high 11 0 _ (0x400#11) (low (0x3E#6 ++ r2) r1) rfl) rfl)) (low (0x3E#6 ++ r2 ++ r1 ++ 0x400#11) t))

theorem InTable.mixwR (r2 : BitVec 5) (r1 : BitVec 5) (t : BitVec 5) : InTable.Statement (.mixwR r2 r1 t) :=
  of_index 138 _ rfl (unmasked t (masked (unmasked r1 (unmasked r2 (rfl : 0x3E#6 &&& 0x3F#6 = 0x3E#6))) (rfl : 0x600#11 &&& 0x7FF#11 = 0x600#11))) rfl rfl (congr (congr (congrArg Instr.mixwR (high 21 16 _ t (high 16 5 _ (0x600#11) (high 5 0 _ r1 (low (0x3E#6) r2) rfl) rfl) rfl)) (high 16 11 _ t (high 11 0 _ (0x600#11) (low (0x3E#6 ++ r2) r1) rfl) rfl)) (low (0x3E#6 ++ r2 ++ r1 ++ 0x600#11) t))

theorem InTable.permh (r : BitVec 5) (rb : BitVec 5) (c0 : BitVec 2) (c1 : BitVec 2) (c2 : BitVec 2) (c3 : BitVec 2) (t : BitVec 5) : InTable.Statement (.permh r rb c0 c1 c2 c3 t) :=
  of_index 139 _ rfl (unmasked t (masked (unmasked c3 (unmasked c2 (unmasked c1 (masked (unmasked c0 (masked (unmasked rb (unmasked r (rfl : 0x3E#6 &&& 0x3F#6 = 0x3E#6))) (rfl : 0x0#1 &&& 0x1#1 = 0x0#1))) (rfl : 0x0#1 &&& 0x1#1 = 0x0#1))))) (rfl : 0x0#1 &&& 0x1#1 = 0x0#1))) rfl rfl (congr (congr (congr (congr (congr (congr (congrArg Instr.permh (high 21 16 _ t (high 16 15 _ (0x0#1) (high 15 13 _ c3 (high 13 11 _ c2 (high 11 9 _ c1 (high 9 8 _ (0x0#1) (high 8 6 _ c0 (high 6 5 _ (0x0#1) (high 5 0 _ rb (low (0x3E#6) r) rfl) rfl) rfl) rfl) rfl) rfl) rfl) rfl) rfl)) (high 16 11 _ t (high 11 10 _ (0x0#1) (high 10 8 _ c3 (high 8 6 _ c2 (high 6 4 _ c1 (high 4 3 _ (0x0#1) (high 3 1 _ c0 (high 1 0 _ (0x0#1) (low (0x3E#6 ++ r) rb) rfl) rfl) rfl) rfl) rfl) rfl) rfl) rfl)) (high 13 8 _ t (high 8 7 _ (0x0#1) (high 7 5 _ c3 (high 5 3 _ c2 (high 3 1 _ c1 (high 1 0 _ (0x0#1) (low (0x3E#6 ++ r ++ rb ++ 0x0#1) c0) rfl) rfl) rfl) rfl) rfl) rfl)) (high 10 5 _ t (high 5 4 _ (0x0#1) (high 4 2 _ c3 (high 2 0 _ c2 (low (0x3E#6 ++ r ++ rb ++ 0x0#1 ++ c0 ++ 0x0#1) c1) rfl) rfl) rfl) rfl)) (high 8 3 _ t (high 3 2 _ (0x0#1) (high 2 0 _ c3 (low (0x3E#6 ++ r ++ rb ++ 0x0#1 ++ c0 ++ 0x0#1 ++ c1) c2) rfl) rfl) rfl)) (high 6 1 _ t (high 1 0 _ (0x0#1) (low (0x3E#6 ++ r ++ rb ++ 0x0#1 ++ c0 ++ 0x0#1 ++ c1 ++ c2) c3) rfl) rfl)) (low (0x3E#6 ++ r ++ rb ++ 0x0#1 ++ c0 ++ 0x0#1 ++ c1 ++ c2 ++ c3 ++ 0x0#1) t))

theorem InTable.brk (im13 : BitVec 13) (im5 : BitVec 5) : InTable.Statement (.brk im13 im5) :=
  of_index 140 _ rfl (unmasked im5 (masked (unmasked im13 (rfl : 0x0#6 &&& 0x3F#6 = 0x0#6)) (rfl : 0x0#8 &&& 0xFF#8 = 0x0#8))) rfl rfl (congr (congrArg Instr.brk (high 13 8 _ im5 (high 8 0 _ (0x0#8) (low (0x0#6) im13) rfl) rfl)) (low (0x0#6 ++ im13 ++ 0x0#8) im5))

theorem InTable.ssm (iv : BitVec 10) (t : BitVec 5) : InTable.Statement (.ssm iv t) :=
  of_index 145 _ rfl (unmasked t (masked (unmasked iv (rfl : 0x0#6 &&& 0x3F#6 = 0x0#6)) (rfl : 0x6B#11 &&& 0x7FF#11 = 0x6B#11))) rfl rfl (congr (congrArg Instr.ssm (high 16 11 _ t (high 11 0 _ (0x6B#11) (low (0x0#6) iv) rfl) rfl)) (low (0x0#6 ++ iv ++ 0x6B#11) t))

theorem InTable.rsm (iv : BitVec 10) (t : BitVec 5) : InTable.Statement (.rsm iv t) :=
  of_index 146 _ rfl (unmasked t (masked (unmasked iv (rfl : 0x0#6 &&& 0x3F#6 = 0x0#6)) (rfl : 0x73#11 &&& 0x7FF#11 = 0x73#11))) rfl rfl (congr (congrArg Instr.rsm (high 16 11 _ t (high 11 0 _ (0x73#11) (low (0x0#6) iv) rfl) rfl)) (low (0x0#6 ++ iv ++ 0x73#11) t))

theorem InTable.mtsm (r : BitVec 5) : InTable.Statement (.mtsm r) :=
  of_index 147 _ rfl (masked (unmasked r (rfl : 0x0#11 &&& 0x7FF#11 = 0x0#11)) (rfl : 0x1860#16 &&& 0xFFFF#16 = 0x1860#16)) rfl rfl (congrArg Instr.mtsm (high 16 0 _ (0x1860#16) (low (0x0#11) r) rfl))

theorem InTable.ldsid (b : BitVec 5) (sr : BitVec 2) (t : BitVec 5) : InTable.Statement (.ldsid b sr t) :=
  of_index 148 _ rfl (unmasked t (masked (unmasked sr (masked (unmasked b (rfl : 0x0#6 &&& 0x3F#6 = 0x0#6)) (rfl : 0x0#5 &&& 0x0#5 = 0x0#5))) (rfl : 0x85#9 &&& 0x1FF#9 = 0x85#9))) rfl rfl (congr (congr (congrArg Instr.ldsid (high 21 16 _ t (high 16 7 _ (0x85#9) (high 7 5 _ sr (high 5 0 _ (0x0#5) (low (0x0#6) b) rfl) rfl) rfl) rfl)) (high 14 9 _ t (high 9 0 _ (0x85#9) (low (0x0#6 ++ b ++ 0x0#5) sr) rfl) rfl)) (low (0x0#6 ++ b ++ 0x0#5 ++ sr ++ 0x85#9) t))

theorem InTable.mtsp (r : BitVec 5) (sr : BitVec 3) : InTable.Statement (.mtsp r sr) :=
  of_index 149 _ rfl (masked (unmasked sr (unmasked r (rfl : 0x0#11 &&& 0x7E0#11 = 0x0#11))) (rfl : 0x1820#13 &&& 0x1FFF#13 = 0x1820#13)) rfl rfl (congr (congrArg Instr.mtsp (high 16 3 _ (0x1820#13) (high 3 0 _ sr (low (0x0#11) r) rfl) rfl)) (high 13 0 _ (0x1820#13) (low (0x0#11 ++ r) sr) rfl))

theorem InTable.mfsp (sr : BitVec 3) (t : BitVec 5) : InTable.Statement (.mfsp sr t) :=
  of_index 150 _ rfl (unmasked t (masked (unmasked sr (rfl : 0x0#16 &&& 0xFC1F#16 = 0x0#16)) (rfl : 0x25#8 &&& 0xFF#8 = 0x25#8))) rfl rfl (congr (congrArg Instr.mfsp (high 13 8 _ t (high 8 0 _ (0x25#8) (low (0x0#16) sr) rfl) rfl)) (low (0x0#16 ++ sr ++ 0x25#8) t))

theorem InTable.mtctl (t : BitVec 5) (r : BitVec 5) : InTable.Statement (.mtctl t r) :=
  of_index 151 _ rfl (masked (unmasked r (unmasked t (rfl : 0x0#6 &&& 0x3F#6 = 0x0#6))) (rfl : 0x1840#16 &&& 0x1FFF#16 = 0x1840#16)) rfl rfl (congr (congrArg Instr.mtctl (high 21 5 _ (0x1840#16) (high 5 0 _ r (low (0x0#6) t) rfl) rfl)) (high 16 0 _ (0x1840#16) (low (0x0#6 ++ t) r) rfl))

theorem InTable.mtsarcm (r : BitVec 5) : InTable.Statement (.mtsarcm r) :=
  of_index 152 _ rfl (masked (unmasked r (rfl : 0xB#11 &&& 0x7FF#11 = 0xB#11)) (rfl : 0x18C0#16 &&& 0x1FFF#16 = 0x18C0#16)) rfl rfl (congrArg Instr.mtsarcm (high 16 0 _ (0x18C0#16) (low (0xB#11) r) rfl))

theorem InTable.mfctl (r : BitVec 5) (e : BitVec 1) (t : BitVec 5) : InTable.Statement (.mfctl r e t) :=
  of_index 153 _ rfl (unmasked t (masked (unmasked e (masked (unmasked r (rfl : 0x0#6 &&& 0x3F#6 = 0x0#6)) (rfl : 0x0#6 &&& 0x3E#6 = 0x0#6))) (rfl : 0x45#9 &&& 0xFF#9 = 0x45#9))) rfl rfl (congr (congr (congrArg Instr.mfctl (high 21 16 _ t (high 16 7 _ (0x45#9) (high 7 6 _ e (high 6 0 _ (0x0#6) (low (0x0#6) r) rfl) rfl) rfl) rfl)) (high 14 9 _ t (high 9 0 _ (0x45#9) (low (0x0#6 ++ r ++ 0x0#6) e) rfl) rfl)) (low (0x0#6 ++ r ++ 0x0#6 ++ e ++ 0x45#9) t))

theorem InTable.mfia (t : BitVec 5) : InTable.Statement (.mfia t) :=
  of_index 154 _ rfl (unmasked t (rfl : 0xA5#27 &&& 0x7E0F8FF#27 = 0xA5#27)) rfl rfl (congrArg Instr.mfia (low (0xA5#27) t))

theorem InTable.diag (im26 : BitVec 26) : InTable.Statement (.diag im26) :=
  of_index 155 _ rfl (unmasked im26 (rfl : 0x5#6 &&& 0x3F#6 = 0x5#6)) rfl rfl (congrArg Instr.diag (low (0x5#6) im26))

theorem InTable.iitlbt (r2 : BitVec 5) (r1 : BitVec 5) : InTable.Statement (.iitlbt r2 r1) :=
  of_index 156 _ rfl (masked (unmasked r1 (unmasked r2 (rfl : 0x1#6 &&& 0x3F#6 = 0x1#6))) (rfl : 0x800#16 &&& 0xFFFF#16 = 0x800#16)) rfl rfl (congr (congrArg Instr.iitlbt (high 21 5 _ (0x800#16) (high 5 0 _ r1 (low (0x1#6) r2) rfl) rfl)) (high 16 0 _ (0x800#16) (low (0x1#6 ++ r2) r1) rfl))

theorem InTable.pitlb (b : BitVec 5) (x : BitVec 5) (sr : BitVec 3) (m : BitVec 1) : InTable.Statement (.pitlb b x sr m) :=
  of_index 157 _ rfl (masked (unmasked m (masked (unmasked sr (unmasked x (unmasked b (rfl : 0x1#6 &&& 0x3F#6 = 0x1#6)))) (rfl : 0x8#7 &&& 0x7F#7 = 0x8#7))) (rfl : 0x0#5 &&& 0x0#5 = 0x0#5)) rfl rfl (congr (congr (congr (congrArg Instr.pitlb (high 21 16 _ (0x0#5) (high 16 15 _ m (high 15 8 _ (0x8#7) (high 8 5 _ sr (high 5 0 _ x (low (0x1#6) b) rfl) rfl) rfl) rfl) rfl)) (high 16 11 _ (0x0#5) (high 11 10 _ m (high 10 3 _ (0x8#7) (high 3 0 _ sr (low (0x1#6 ++ b) x) rfl) rfl) rfl) rfl)) (high 13 8 _ (0x0#5) (high 8 7 _ m (high 7 0 _ (0x8#7) (low (0x1#6 ++ b ++ x) sr) rfl) rfl) rfl)) (high 5 0 _ (0x0#5) (low (0x1#6 ++ b ++ x ++ sr ++ 0x8#7) m) rfl))

theorem InTable.pitlbL (b : BitVec 5) (x : BitVec 5) (sr : BitVec 3) (m : BitVec 1) : InTable.Statement (.pitlbL b x sr m) :=
  of_index 158 _ rfl (masked (unmasked m (masked (unmasked sr (unmasked x (unmasked b (rfl : 0x1#6 &&& 0x3F#6 = 0x1#6)))) (rfl : 0x18#7 &&& 0x7F#7 = 0x18#7))) (rfl : 0x0#5 &&& 0x0#5 = 0x0#5)) rfl rfl (congr (congr (congr (congrArg Instr.pitlbL (high 21 16 _ (0x0#5) (high 16 15 _ m (high 15 8 _ (0x18#7) (high 8 5 _ sr (high 5 0 _ x (low (0x1#6) b) rfl) rfl) rfl) rfl) rfl)) (high 16 11 _ (0x0#5) (high 11 10 _ m (high 10 3 _ (0x18#7) (high 3 0 _ sr (low (0x1#6 ++ b) x) rfl) rfl) rfl) rfl)) (high 13 8 _ (0x0#5) (high 8 7 _ m (high 7 0 _ (0x18#7) (low (0x1#6 ++ b ++ x) sr) rfl) rfl) rfl)) (high 5 0 _ (0x0#5) (low (0x1#6 ++ b ++ x ++ sr ++ 0x18#7) m) rfl))

theorem InTable.pitlbe (b : BitVec 5) (x : BitVec 5) (sr : BitVec 3) (m : BitVec 1) : InTable.Statement (.pitlbe b x sr m) :=
  of_index 159 _ rfl (masked (unmasked m (masked (unmasked sr (unmasked x (unmasked b (rfl : 0x1#6 &&& 0x3F#6 = 0x1#6)))) (rfl : 0x9#7 &&& 0x7F#7 = 0x9#7))) (rfl : 0x0#5 &&& 0x0#5 = 0x0#5)) rfl rfl (congr (congr (congr (congrArg Instr.pitlbe (high 21 16 _ (0x0#5) (high 16 15 _ m (high 15 8 _ (0x9#7) (high 8 5 _ sr (high 5 0 _ x (low (0x1#6) b) rfl) rfl) rfl) rfl) rfl)) (high 16 11 _ (0x0#5) (high 11 10 _ m (high 10 3 _ (0x9#7) (high 3 0 _ sr (low (0x1#6 ++ b) x) rfl) rfl) rfl) rfl)) (high 13 8 _ (0x0#5) (high 8 7 _ m (high 7 0 _ (0x9#7) (low (0x1#6 ++ b ++ x) sr) rfl) rfl) rfl)) (high 5 0 _ (0x0#5) (low (0x1#6 ++ b ++ x ++ sr ++ 0x9#7) m) rfl))

theorem InTable.ficExplicit (b : BitVec 5) (x : BitVec 5) (sr : BitVec 3) (m : BitVec 1) : InTable.Statement (.ficExplicit b x sr m) :=
  of_index 160 _ rfl (masked (unmasked m (masked (unmasked sr (unmasked x (unmasked b (rfl : 0x1#6 &&& 0x3F#6 = 0x1#6)))) (rfl : 0xA#7 &&& 0x7F#7 = 0xA#7))) (rfl : 0x0#5 &&& 0x0#5 = 0x0#5)) rfl rfl (congr (congr (congr (congrArg Instr.ficExplicit (high 21 16 _ (0x0#5) (high 16 15 _ m (high 15 8 _ (0xA#7) (high 8 5 _ sr (high 5 0 _ x (low (0x1#6) b) rfl) rfl) rfl) rfl) rfl)) (high 16 11 _ (0x0#5) (high 11 10 _ m (high 10 3 _ (0xA#7) (high 3 0 _ sr (low (0x1#6 ++ b) x) rfl) rfl) rfl) rfl)) (high 13 8 _ (0x0#5) (high 8 7 _ m (high 7 0 _ (0xA#7) (low (0x1#6 ++ b ++ x) sr) rfl) rfl) rfl)) (high 5 0 _ (0x0#5) (low (0x1#6 ++ b ++ x ++ sr ++ 0xA#7) m) rfl))

theorem InTable.fice (b : BitVec 5) (x : BitVec 5) (sr : BitVec 3) (m : BitVec 1) : InTable.Statement (.fice b x sr m) :=
  of_index 161 _ rfl (masked (unmasked m (masked (unmasked sr (unmasked x (unmasked b (rfl : 0x1#6 &&& 0x3F#6 = 0x1#6)))) (rfl : 0xB#7 &&& 0x7F#7 = 0xB#7))) (rfl : 0x0#5 &&& 0x0#5 = 0x0#5)) rfl rfl (congr (congr (congr (congrArg Instr.fice (high 21 16 _ (0x0#5) (high 16 15 _ m (high 15 8 _ (0xB#7) (high 8 5 _ sr (high 5 0 _ x (low (0x1#6) b) rfl) rfl) rfl) rfl) rfl)) (high 16 11 _ (0x0#5) (high 11 10 _ m (high 10 3 _ (0xB#7) (high 3 0 _ sr (low (0x1#6 ++ b) x) rfl) rfl) rfl) rfl)) (high 13 8 _ (0x0#5) (high 8 7 _ m (high 7 0 _ (0xB#7) (low (0x1#6 ++ b ++ x) sr) rfl) rfl) rfl)) (high 5 0 _ (0x0#5) (low (0x1#6 ++ b ++ x ++ sr ++ 0xB#7) m) rfl))

theorem InTable.idtlbt (r2 : BitVec 5) (r1 : BitVec 5) : InTable.Statement (.idtlbt r2 r1) :=
  of_index 162 _ rfl (masked (unmasked r1 (unmasked r2 (rfl : 0x1#6 &&& 0x3F#6 = 0x1#6))) (rfl : 0x1800#16 &&& 0xFFFF#16 = 0x1800#16)) rfl rfl (congr (congrArg Instr.idtlbt (high 21 5 _ (0x1800#16) (high 5 0 _ r1 (low (0x1#6) r2) rfl) rfl)) (high 16 0 _ (0x1800#16) (low (0x1#6 ++ r2) r1) rfl))

theorem InTable.pdtlb (b : BitVec 5) (x : BitVec 5) (sr : BitVec 2) (m : BitVec 1) : InTable.Statement (.pdtlb b x sr m) :=
  of_index 163 _ rfl (masked (unmasked m (masked (unmasked sr (unmasked x (unmasked b (rfl : 0x1#6 &&& 0x3F#6 = 0x1#6)))) (rfl : 0x48#8 &&& 0xFF#8 = 0x48#8))) (rfl : 0x0#5 &&& 0x0#5 = 0x0#5)) rfl rfl (congr (congr (congr (congrArg Instr.pdtlb (high 21 16 _ (0x0#5) (high 16 15 _ m (high 15 7 _ (0x48#8) (high 7 5 _ sr (high 5 0 _ x (low (0x1#6) b) rfl) rfl) rfl) rfl) rfl)) (high 16 11 _ (0x0#5) (high 11 10 _ m (high 10 2 _ (0x48#8) (high 2 0 _ sr (low (0x1#6 ++ b) x) rfl) rfl) rfl) rfl)) (high 14 9 _ (0x0#5) (high 9 8 _ m (high 8 0 _ (0x48#8) (low (0x1#6 ++ b ++ x) sr) rfl) rfl) rfl)) (high 5 0 _ (0x0#5) (low (0x1#6 ++ b ++ x ++ sr ++ 0x48#8) m) rfl))

theorem InTable.pdtlbL (b : BitVec 5) (x : BitVec 5) (sr : BitVec 2) (m : BitVec 1) : InTable.Statement (.pdtlbL b x sr m) :=
  of_index 164 _ rfl (masked (unmasked m (masked (unmasked sr (unmasked x (unmasked b (rfl : 0x1#6 &&& 0x3F#6 = 0x1#6)))) (rfl : 0x58#8 &&& 0xFF#8 = 0x58#8))) (rfl : 0x0#5 &&& 0x0#5 = 0x0#5)) rfl rfl (congr (congr (congr (congrArg Instr.pdtlbL (high 21 16 _ (0x0#5) (high 16 15 _ m (high 15 7 _ (0x58#8) (high 7 5 _ sr (high 5 0 _ x (low (0x1#6) b) rfl) rfl) rfl) rfl) rfl)) (high 16 11 _ (0x0#5) (high 11 10 _ m (high 10 2 _ (0x58#8) (high 2 0 _ sr (low (0x1#6 ++ b) x) rfl) rfl) rfl) rfl)) (high 14 9 _ (0x0#5) (high 9 8 _ m (high 8 0 _ (0x58#8) (low (0x1#6 ++ b ++ x) sr) rfl) rfl) rfl)) (high 5 0 _ (0x0#5) (low (0x1#6 ++ b ++ x ++ sr ++ 0x58#8) m) rfl))

theorem InTable.pdtlbe (b : BitVec 5) (x : BitVec 5) (sr : BitVec 2) (m : BitVec 1) : InTable.Statement (.pdtlbe b x sr m) :=
  of_index 165 _ rfl (masked (unmasked m (masked (unmasked sr (unmasked x (unmasked b (rfl : 0x1#6 &&& 0x3F#6 = 0x1#6)))) (rfl : 0x49#8 &&& 0xFF#8 = 0x49#8))) (rfl : 0x0#5 &&& 0x0#5 = 0x0#5)) rfl rfl (congr (congr (congr (congrArg Instr.pdtlbe (high 21 16 _ (0x0#5) (high 16 15 _ m (high 15 7 _ (0x49#8) (high 7 5 _ sr (high 5 0 _ x (low (0x1#6) b) rfl) rfl) rfl) rfl) rfl)) (high 16 11 _ (0x0#5) (high 11 10 _ m (high 10 2 _ (0x49#8) (high 2 0 _ sr (low (0x1#6 ++ b) x) rfl) rfl) rfl) rfl)) (high 14 9 _ (0x0#5) (high 9 8 _ m (high 8 0 _ (0x49#8) (low (0x1#6 ++ b ++ x) sr) rfl) rfl) rfl)) (high 5 0 _ (0x0#5) (low (0x1#6 ++ b ++ x ++ sr ++ 0x49#8) m) rfl))

theorem InTable.fdcIndexed (b : BitVec 5) (x : BitVec 5) (sr : BitVec 2) (m : BitVec 1) : InTable.Statement (.fdcIndexed b x sr m) :=
  of_index 166 _ rfl (masked (unmasked m (masked (unmasked sr (unmasked x (unmasked b (rfl : 0x1#6 &&& 0x3F#6 = 0x1#6)))) (rfl : 0x4A#8 &&& 0xFF#8 = 0x4A#8))) (rfl : 0x0#5 &&& 0x0#5 = 0x0#5)) rfl rfl (congr (congr (congr (congrArg Instr.fdcIndexed (high 21 16 _ (0x0#5) (high 16 15 _ m (high 15 7 _ (0x4A#8) (high 7 5 _ sr (high 5 0 _ x (low (0x1#6) b) rfl) rfl) rfl) rfl) rfl)) (high 16 11 _ (0x0#5) (high 11 10 _ m (high 10 2 _ (0x4A#8) (high 2 0 _ sr (low (0x1#6 ++ b) x) rfl) rfl) rfl) rfl)) (high 14 9 _ (0x0#5) (high 9 8 _ m (high 8 0 _ (0x4A#8) (low (0x1#6 ++ b ++ x) sr) rfl) rfl) rfl)) (high 5 0 _ (0x0#5) (low (0x1#6 ++ b ++ x ++ sr ++ 0x4A#8) m) rfl))

theorem InTable.fdcShort (b : BitVec 5) (im5 : BitVec 5) (sr : BitVec 2) : InTable.Statement (.fdcShort b im5 sr) :=
  of_index 167 _ rfl (masked (unmasked sr (unmasked im5 (unmasked b (rfl : 0x1#6 &&& 0x3F#6 = 0x1#6)))) (rfl : 0x3280#14 &&& 0x3FE0#14 = 0x3280#14)) rfl rfl (congr (congr (congrArg Instr.fdcShort (high 21 7 _ (0x3280#14) (high 7 5 _ sr (high 5 0 _ im5 (low (0x1#6) b) rfl) rfl) rfl)) (high 16 2 _ (0x3280#14) (high 2 0 _ sr (low (0x1#6 ++ b) im5) rfl) rfl)) (high 14 0 _ (0x3280#14) (low (0x1#6 ++ b ++ im5) sr) rfl))

theorem InTable.fdce (b : BitVec 5) (x : BitVec 5) (sr : BitVec 2) (m : BitVec 1) : InTable.Statement (.fdce b x sr m) :=
  of_index 168 _ rfl (masked (unmasked m (masked (unmasked sr (unmasked x (unmasked b (rfl : 0x1#6 &&& 0x3F#6 = 0x1#6)))) (rfl : 0x4B#8 &&& 0xFF#8 = 0x4B#8))) (rfl : 0x0#5 &&& 0x0#5 = 0x0#5)) rfl rfl (congr (congr (congr (congrArg Instr.fdce (high 21 16 _ (0x0#5) (high 16 15 _ m (high 15 7 _ (0x4B#8) (high 7 5 _ sr (high 5 0 _ x (low (0x1#6) b) rfl) rfl) rfl) rfl) rfl)) (high 16 11 _ (0x0#5) (high 11 10 _ m (high 10 2 _ (0x4B#8) (high 2 0 _ sr (low (0x1#6 ++ b) x) rfl) rfl) rfl) rfl)) (high 14 9 _ (0x0#5) (high 9 8 _ m (high 8 0 _ (0x4B#8) (low (0x1#6 ++ b ++ x) sr) rfl) rfl) rfl)) (high 5 0 _ (0x0#5) (low (0x1#6 ++ b ++ x ++ sr ++ 0x4B#8) m) rfl))

theorem InTable.pdc (b : BitVec 5) (x : BitVec 5) (sr : BitVec 2) (m : BitVec 1) : InTable.Statement (.pdc b x sr m) :=
  of_index 169 _ rfl (masked (unmasked m (masked (unmasked sr (unmasked x (unmasked b (rfl : 0x1#6 &&& 0x3F#6 = 0x1#6)))) (rfl : 0x4E#8 &&& 0xFF#8 = 0x4E#8))) (rfl : 0x0#5 &&& 0x1F#5 = 0x0#5)) rfl rfl (congr (congr (congr (congrArg Instr.pdc (high 21 16 _ (0x0#5) (high 16 15 _ m (high 15 7 _ (0x4E#8) (high 7 5 _ sr (high 5 0 _ x (low (0x1#6) b) rfl) rfl) rfl) rfl) rfl)) (high 16 11 _ (0x0#5) (high 11 10 _ m (high 10 2 _ (0x4E#8) (high 2 0 _ sr (low (0x1#6 ++ b) x) rfl) rfl) rfl) rfl)) (high 14 9 _ (0x0#5) (high 9 8 _ m (high 8 0 _ (0x4E#8) (low (0x1#6 ++ b ++ x) sr) rfl) rfl) rfl)) (high 5 0 _ (0x0#5) (low (0x1#6 ++ b ++ x ++ sr ++ 0x4E#8) m) rfl))

theorem InTable.ficImplicit (b : BitVec 5) (x : BitVec 5) (sr : BitVec 2) (m : BitVec 1) : InTable.Statement (.ficImplicit b x sr m) :=
  of_index 170 _ rfl (masked (unmasked m (masked (unmasked sr (unmasked x (unmasked b (rfl : 0x1#6 &&& 0x3F#6 = 0x1#6)))) (rfl : 0x4F#8 &&& 0xFF#8 = 0x4F#8))) (rfl : 0x0#5 &&& 0x1F#5 = 0x0#5)) rfl rfl (congr (congr (congr (congrArg Instr.ficImplicit (high 21 16 _ (0x0#5) (high 16 15 _ m (high 15 7 _ (0x4F#8) (high 7 5 _ sr (high 5 0 _ x (low (0x1#6) b) rfl) rfl) rfl) rfl) rfl)) (high 16 11 _ (0x0#5) (high 11 10 _ m (high 10 2 _ (0x4F#8) (high 2 0 _ sr (low (0x1#6 ++ b) x) rfl) rfl) rfl) rfl)) (high 14 9 _ (0x0#5) (high 9 8 _ m (high 8 0 _ (0x4F#8) (low (0x1#6 ++ b ++ x) sr) rfl) rfl) rfl)) (high 5 0 _ (0x0#5) (low (0x1#6 ++ b ++ x ++ sr ++ 0x4F#8) m) rfl))

theorem InTable.probeR (b : BitVec 5) (r : BitVec 5) (sr : BitVec 2) (t : BitVec 5) : InTable.Statement (.probeR b r sr t) :=
  of_index 171 _ rfl (unmasked t (masked (unmasked sr (unmasked r (unmasked b (rfl : 0x1#6 &&& 0x3F#6 = 0x1#6)))) (rfl : 0x8C#9 &&& 0x1FF#9 = 0x8C#9))) rfl rfl (congr (congr (congr (congrArg Instr.probeR (high 21 16 _ t (high 16 7 _ (0x8C#9) (high 7 5 _ sr (high 5 0 _ r (low (0x1#6) b) rfl) rfl) rfl) rfl)) (high 16 11 _ t (high 11 2 _ (0x8C#9) (high 2 0 _ sr (low (0x1#6 ++ b) r) rfl) rfl) rfl)) (high 14 9 _ t (high 9 0 _ (0x8C#9) (low (0x1#6 ++ b ++ r) sr) rfl) rfl)) (low (0x1#6 ++ b ++ r ++ sr ++ 0x8C#9) t))

theorem InTable.probeW (b : BitVec 5) (r : BitVec 5) (sr : BitVec 2) (t : BitVec 5) : InTable.Statement (.probeW b r sr t) :=
  of_index 172 _ rfl (unmasked t (masked (unmasked sr (unmasked r (unmasked b (rfl : 0x1#6 &&& 0x3F#6 = 0x1#6)))) (rfl : 0x8E#9 &&& 0x1FF#9 = 0x8E#9))) rfl rfl (congr (congr (congr (congrArg Instr.probeW (high 21 16 _ t (high 16 7 _ (0x8E#9) (high 7 5 _ sr (high 5 0 _ r (low (0x1#6) b) rfl) rfl) rfl) rfl)) (high 16 11 _ t (high 11 2 _ (0x8E#9) (high 2 0 _ sr (low (0x1#6 ++ b) r) rfl) rfl) rfl)) (high 14 9 _ t (high 9 0 _ (0x8E#9) (low (0x1#6 ++ b ++ r) sr) rfl) rfl)) (low (0x1#6 ++ b ++ r ++ sr ++ 0x8E#9) t))

theorem InTable.probeiR (b : BitVec 5) (iv : BitVec 5) (sr : BitVec 2) (t : BitVec 5) : InTable.Statement (.probeiR b iv sr t) :=
  of_index 173 _ rfl (unmasked t (masked (unmasked sr (unmasked iv (unmasked b (rfl : 0x1#6 &&& 0x3F#6 = 0x1#6)))) (rfl : 0x18C#9 &&& 0x1FF#9 = 0x18C#9))) rfl rfl (congr (congr (congr (congrArg Instr.probeiR (high 21 16 _ t (high 16 7 _ (0x18C#9) (high 7 5 _ sr (high 5 0 _ iv (low (0x1#6) b) rfl) rfl) rfl) rfl)) (high 16 11 _ t (high 11 2 _ (0x18C#9) (high 2 0 _ sr (low (0x1#6 ++ b) iv) rfl) rfl) rfl)) (high 14 9 _ t (high 9 0 _ (0x18C#9) (low (0x1#6 ++ b ++ iv) sr) rfl) rfl)) (low (0x1#6 ++ b ++ iv ++ sr ++ 0x18C#9) t))

theorem InTable.probeiW (b : BitVec 5) (iv : BitVec 5) (sr : BitVec 2) (t : BitVec 5) : InTable.Statement (.probeiW b iv sr t) :=
  of_index 174 _ rfl (unmasked t (masked (unmasked sr (unmasked iv (unmasked b (rfl : 0x1#6 &&& 0x3F#6 = 0x1#6)))) (rfl : 0x18E#9 &&& 0x1FF#9 = 0x18E#9))) rfl rfl (congr (congr (congr (congrArg Instr.probeiW (high 21 16 _ t (high 16 7 _ (0x18E#9) (high 7 5 _ sr (high 5 0 _ iv (low (0x1#6) b) rfl) rfl) rfl) rfl)) (high 16 11 _ t (high 11 2 _ (0x18E#9) (high 2 0 _ sr (low (0x1#6 ++ b) iv) rfl) rfl) rfl)) (high 14 9 _ t (high 9 0 _ (0x18E#9) (low (0x1#6 ++ b ++ iv) sr) rfl) rfl)) (low (0x1#6 ++ b ++ iv ++ sr ++ 0x18E#9) t))

theorem InTable.lpa (b : BitVec 5) (x : BitVec 5) (sr : BitVec 2) (m : BitVec 1) (t : BitVec 5) : InTable.Statement (.lpa b x sr m t) :=
  of_index 175 _ rfl (unmasked t (unmasked m (masked (unmasked sr (unmasked x (unmasked b (rfl : 0x1#6 &&& 0x3F#6 = 0x1#6)))) (rfl : 0x4D#8 &&& 0xFF#8 = 0x4D#8)))) rfl rfl (congr (congr (congr (congr (congrArg Instr.lpa (high 21 16 _ t (high 16 15 _ m (high 15 7 _ (0x4D#8) (high 7 5 _ sr (high 5 0 _ x (low (0x1#6) b) rfl) rfl) rfl) rfl) rfl)) (high 16 11 _ t (high 11 10 _ m (high 10 2 _ (0x4D#8) (high 2 0 _ sr (low (0x1#6 ++ b) x) rfl) rfl) rfl) rfl)) (high 14 9 _ t (high 9 8 _ m (high 8 0 _ (0x4D#8) (low (0x1#6 ++ b ++ x) sr) rfl) rfl) rfl)) (high 5 0 _ t (low (0x1#6 ++ b ++ x ++ sr ++ 0x4D#8) m) rfl)) (low (0x1#6 ++ b ++ x ++ sr ++ 0x4D#8 ++ m) t))

theorem InTable.lci (b : BitVec 5) (x : BitVec 5) (sr : BitVec 2) (t : BitVec 5) : InTable.Statement (.lci b x sr t) :=
  of_index 176 _ rfl (unmasked t (masked (unmasked sr (unmasked x (unmasked b (rfl : 0x1#6 &&& 0x3F#6 = 0x1#6)))) (rfl : 0x98#9 &&& 0x1FF#9 = 0x98#9))) rfl rfl (congr (congr (congr (congrArg Instr.lci (high 21 16 _ t (high 16 7 _ (0x98#9) (high 7 5 _ sr (high 5 0 _ x (low (0x1#6) b) rfl) rfl) rfl) rfl)) (high 16 11 _ t (high 11 2 _ (0x98#9) (high 2 0 _ sr (low (0x1#6 ++ b) x) rfl) rfl) rfl)) (high 14 9 _ t (high 9 0 _ (0x98#9) (low (0x1#6 ++ b ++ x) sr) rfl) rfl)) (low (0x1#6 ++ b ++ x ++ sr ++ 0x98#9) t))

theorem InTable.spop0 (sop1 : BitVec 15) (sfu : BitVec 3) (n : BitVec 1) (sop2 : BitVec 5) : InTable.Statement (.spop0 sop1 sfu n sop2) :=
  of_index 177 _ rfl (unmasked sop2 (unmasked n (unmasked sfu (masked (unmasked sop1 (rfl : 0x4#6 &&& 0x3F#6 = 0x4#6)) (rfl : 0x0#2 &&& 0x3#2 = 0x0#2))))) rfl rfl (congr (congr (congr (congrArg Instr.spop0 (high 11 6 _ sop2 (high 6 5 _ n (high 5 2 _ sfu (high 2 0 _ (0x0#2) (low (0x4#6) sop1) rfl) rfl) rfl) rfl)) (high 6 1 _ sop2 (high 1 0 _ n (low (0x4#6 ++ sop1 ++ 0x0#2) sfu) rfl) rfl)) (high 5 0 _ sop2 (low (0x4#6 ++ sop1 ++ 0x0#2 ++ sfu) n) rfl)) (low (0x4#6 ++ sop1 ++ 0x0#2 ++ sfu ++ n) sop2))

theorem InTable.spop1 (sop : BitVec 15) (sfu : BitVec 3) (n : BitVec 1) (t : BitVec 5) : InTable.Statement (.spop1 sop sfu n t) :=
  of_index 178 _ rfl (unmasked t (unmasked n (unmasked sfu (masked (unmasked sop (rfl : 0x4#6 &&& 0x3F#6 = 0x4#6)) (rfl : 0x1#2 &&& 0x3#2 = 0x1#2))))) rfl rfl (congr (congr (congr (congrArg Instr.spop1 (high 11 6 _ t (high 6 5 _ n (high 5 2 _ sfu (high 2 0 _ (0x1#2) (low (0x4#6) sop) rfl) rfl) rfl) rfl)) (high 6 1 _ t (high 1 0 _ n (low (0x4#6 ++ sop ++ 0x1#2) sfu) rfl) rfl)) (high 5 0 _ t (low (0x4#6 ++ sop ++ 0x1#2 ++ sfu) n) rfl)) (low (0x4#6 ++ sop ++ 0x1#2 ++ sfu ++ n) t))

theorem InTable.spop2 (r : BitVec 5) (sop1 : BitVec 10) (sfu : BitVec 3) (n : BitVec 1) (sop2 : BitVec 5) : InTable.Statement (.spop2 r sop1 sfu n sop2) :=
  of_index 179 _ rfl (unmasked sop2 (unmasked n (unmasked sfu (masked (unmasked sop1 (unmasked r (rfl : 0x4#6 &&& 0x3F#6 = 0x4#6))) (rfl : 0x2#2 &&& 0x3#2 = 0x2#2))))) rfl rfl (congr (congr (congr (congr (congrArg Instr.spop2 (high 21 16 _ sop2 (high 16 15 _ n (high 15 12 _ sfu (high 12 10 _ (0x2#2) (high 10 0 _ sop1 (low (0x4#6) r) rfl) rfl) rfl) rfl) rfl)) (high 11 6 _ sop2 (high 6 5 _ n (high 5 2 _ sfu (high 2 0 _ (0x2#2) (low (0x4#6 ++ r) sop1) rfl) rfl) rfl) rfl)) (high 6 1 _ sop2 (high 1 0 _ n (low (0x4#6 ++ r ++ sop1 ++ 0x2#2) sfu) rfl) rfl)) (high 5 0 _ sop2 (low (0x4#6 ++ r ++ sop1 ++ 0x2#2 ++ sfu) n) rfl)) (low (0x4#6 ++ r ++ sop1 ++ 0x2#2 ++ sfu ++ n) sop2))

theorem InTable.spop3 (r2 : BitVec 5) (r1 : BitVec 5) (sop1 : BitVec 5) (sfu : BitVec 3) (n : BitVec 1) (sop2 : BitVec 5) : InTable.Statement (.spop3 r2 r1 sop1 sfu n sop2) :=
  of_index 180 _ rfl (unmasked sop2 (unmasked n (unmasked sfu (masked (unmasked sop1 (unmasked r1 (unmasked r2 (rfl : 0x4#6 &&& 0x3F#6 = 0x4#6)))) (rfl : 0x3#2 &&& 0x3#2 = 0x3#2))))) rfl rfl (congr (congr (congr (congr (congr (congrArg Instr.spop3 (high 21 16 _ sop2 (high 16 15 _ n (high 15 12 _ sfu (high 12 10 _ (0x3#2) (high 10 5 _ sop1 (high 5 0 _ r1 (low (0x4#6) r2) rfl) rfl) rfl) rfl) rfl) rfl)) (high 16 11 _ sop2 (high 11 10 _ n (high 10 7 _ sfu (high 7 5 _ (0x3#2) (high 5 0 _ sop1 (low (0x4#6 ++ r2) r1) rfl) rfl) rfl) rfl) rfl)) (high 11 6 _ sop2 (high 6 5 _ n (high 5 2 _ sfu (high 2 0 _ (0x3#2) (low (0x4#6 ++ r2 ++ r1) sop1) rfl) rfl) rfl) rfl)) (high 6 1 _ sop2 (high 1 0 _ n (low (0x4#6 ++ r2 ++ r1 ++ sop1 ++ 0x3#2) sfu) rfl) rfl)) (high 5 0 _ sop2 (low (0x4#6 ++ r2 ++ r1 ++ sop1 ++ 0x3#2 ++ sfu) n) rfl)) (low (0x4#6 ++ r2 ++ r1 ++ sop1 ++ 0x3#2 ++ sfu ++ n) sop2))

theorem InTable.pmdis (n : BitVec 1) : InTable.Statement (.pmdis n) :=
  of_index 181 _ rfl (masked (unmasked n (rfl : 0xC0000A#26 &&& 0x3F000FF#26 = 0xC0000A#26)) (rfl : 0x0#5 &&& 0x0#5 = 0x0#5)) rfl rfl (congrArg Instr.pmdis (high 5 0 _ (0x0#5) (low (0xC0000A#26) n) rfl))

theorem InTable.copr1 (sop1 : BitVec 17) (n : BitVec 1) (sop2 : BitVec 5) : InTable.Statement (.copr1 sop1 n sop2) :=
  of_index 183 _ rfl (unmasked sop2 (unmasked n (masked (unmasked sop1 (rfl : 0xC#6 &&& 0x3F#6 = 0xC#6)) (rfl : 0x1#3 &&& 0x7#3 = 0x1#3)))) rfl rfl (congr (congr (congrArg Instr.copr1 (high 9 4 _ sop2 (high 4 3 _ n (high 3 0 _ (0x1#3) (low (0xC#6) sop1) rfl) rfl) rfl)) (high 5 0 _ sop2 (low (0xC#6 ++ sop1 ++ 0x1#3) n) rfl)) (low (0xC#6 ++ sop1 ++ 0x1#3 ++ n) sop2))

theorem InTable.copr3 (sop1 : BitVec 17) (n : BitVec 1) (sop2 : BitVec 5) : InTable.Statement (.copr3 sop1 n sop2) :=
  of_index 184 _ rfl (unmasked sop2 (unmasked n (masked (unmasked sop1 (rfl : 0xC#6 &&& 0x3F#6 = 0xC#6)) (rfl : 0x3#3 &&& 0x7#3 = 0x3#3)))) rfl rfl (congr (congr (congrArg Instr.copr3 (high 9 4 _ sop2 (high 4 3 _ n (high 3 0 _ (0x3#3) (low (0xC#6) sop1) rfl) rfl) rfl)) (high 5 0 _ sop2 (low (0xC#6 ++ sop1 ++ 0x3#3) n) rfl)) (low (0xC#6 ++ sop1 ++ 0x3#3 ++ n) sop2))

theorem InTable.copr4to7 (sop1 : BitVec 17) (uidlo : BitVec 2) (n : BitVec 1) (sop2 : BitVec 5) : InTable.Statement (.copr4to7 sop1 uidlo n sop2) :=
  of_index 185 _ rfl (unmasked sop2 (unmasked n (unmasked uidlo (masked (unmasked sop1 (rfl : 0xC#6 &&& 0x3F#6 = 0xC#6)) (rfl : 0x1#1 &&& 0x1#1 = 0x1#1))))) rfl rfl (congr (congr (congr (congrArg Instr.copr4to7 (high 9 4 _ sop2 (high 4 3 _ n (high 3 1 _ uidlo (high 1 0 _ (0x1#1) (low (0xC#6) sop1) rfl) rfl) rfl) rfl)) (high 6 1 _ sop2 (high 1 0 _ n (low (0xC#6 ++ sop1 ++ 0x1#1) uidlo) rfl) rfl)) (high 5 0 _ sop2 (low (0xC#6 ++ sop1 ++ 0x1#1 ++ uidlo) n) rfl)) (low (0xC#6 ++ sop1 ++ 0x1#1 ++ uidlo ++ n) sop2))

theorem InTable.cldwIndexed2 (b : BitVec 5) (x : BitVec 5) (sr : BitVec 2) (u : BitVec 1) (cc : BitVec 2) (uidlo : BitVec 1) (m : BitVec 1) (t : BitVec 5) : InTable.Statement (.cldwIndexed2 b x sr u cc uidlo m t) :=
  of_index 186 _ rfl (unmasked t (unmasked m (unmasked uidlo (masked (unmasked cc (masked (unmasked u (unmasked sr (unmasked x (unmasked b (rfl : 0x9#6 &&& 0x3F#6 = 0x9#6))))) (rfl : 0x0#1 &&& 0x1#1 = 0x0#1))) (rfl : 0x1#3 &&& 0x7#3 = 0x1#3))))) rfl rfl (congr (congr (congr (congr (congr (congr (congr (congrArg Instr.cldwIndexed2 (high 21 16 _ t (high 16 15 _ m (high 15 14 _ uidlo (high 14 11 _ (0x1#3) (high 11 9 _ cc (high 9 8 _ (0x0#1) (high 8 7 _ u (high 7 5 _ sr (high 5 0 _ x (low (0x9#6) b) rfl) rfl) rfl) rfl) rfl) rfl) rfl) rfl) rfl)) (high 16 11 _ t (high 11 10 _ m (high 10 9 _ uidlo (high 9 6 _ (0x1#3) (high 6 4 _ cc (high 4 3 _ (0x0#1) (high 3 2 _ u (high 2 0 _ sr (low (0x9#6 ++ b) x) rfl) rfl) rfl) rfl) rfl) rfl) rfl) rfl)) (high 14 9 _ t (high 9 8 _ m (high 8 7 _ uidlo (high 7 4 _ (0x1#3) (high 4 2 _ cc (high 2 1 _ (0x0#1) (high 1 0 _ u (low (0x9#6 ++ b ++ x) sr) rfl) rfl) rfl) rfl) rfl) rfl) rfl)) (high 13 8 _ t (high 8 7 _ m (high 7 6 _ uidlo (high 6 3 _ (0x1#3) (high 3 1 _ cc (high 1 0 _ (0x0#1) (low (0x9#6 ++ b ++ x ++ sr) u) rfl) rfl) rfl) rfl) rfl) rfl)) (high 10 5 _ t (high 5 4 _ m (high 4 3 _ uidlo (high 3 0 _ (0x1#3) (low (0x9#6 ++ b ++ x ++ sr ++ u ++ 0x0#1) cc) rfl) rfl) rfl) rfl)) (high 6 1 _ t (high 1 0 _ m (low (0x9#6 ++ b ++ x ++ sr ++ u ++ 0x0#1 ++ cc ++ 0x1#3) uidlo) rfl) rfl)) (high 5 0 _ t (low (0x9#6 ++ b ++ x ++ sr ++ u ++ 0x0#1 ++ cc ++ 0x1#3 ++ uidlo) m) rfl)) (low (0x9#6 ++ b ++ x ++ sr ++ u ++ 0x0#1 ++ cc ++ 0x1#3 ++ uidlo ++ m) t))

theorem InTable.cldwShort2 (b : BitVec 5) (im5 : BitVec 5) (sr : BitVec 2) (a : BitVec 1) (cc : BitVec 2) (uidlo : BitVec 1) (m : BitVec 1) (t : BitVec 5) : InTable.Statement (.cldwShort2 b im5 sr a cc uidlo m t) :=
  of_index 187 _ rfl (unmasked t (unmasked m (unmasked uidlo (masked (unmasked cc (masked (unmasked a (unmasked sr (unmasked im5 (unmasked b (rfl : 0x9#6 &&& 0x3F#6 = 0x9#6))))) (rfl : 0x1#1 &&& 0x1#1 = 0x1#1))) (rfl : 0x1#3 &&& 0x7#3 = 0x1#3))))) rfl rfl (congr (congr (congr (congr (congr (congr (congr (congrArg Instr.cldwShort2 (high 21 16 _ t (high 16 15 _ m (high 15 14 _ uidlo (high 14 11 _ (0x1#3) (high 11 9 _ cc (high 9 8 _ (0x1#1) (high 8 7 _ a (high 7 5 _ sr (high 5 0 _ im5 (low (0x9#6) b) rfl) rfl) rfl) rfl) rfl) rfl) rfl) rfl) rfl)) (high 16 11 _ t (high 11 10 _ m (high 10 9 _ uidlo (high 9 6 _ (0x1#3) (high 6 4 _ cc (high 4 3 _ (0x1#1) (high 3 2 _ a (high 2 0 _ sr (low (0x9#6 ++ b) im5) rfl) rfl) rfl) rfl) rfl) rfl) rfl) rfl)) (high 14 9 _ t (high 9 8 _ m (high 8 7 _ uidlo (high 7 4 _ (0x1#3) (high 4 2 _ cc (high 2 1 _ (0x1#1) (high 1 0 _ a (low (0x9#6 ++ b ++ im5) sr) rfl) rfl) rfl) rfl) rfl) rfl) rfl)) (high 13 8 _ t (high 8 7 _ m (high 7 6 _ uidlo (high 6 3 _ (0x1#3) (high 3 1 _ cc (high 1 0 _ (0x1#1) (low (0x9#6 ++ b ++ im5 ++ sr) a) rfl) rfl) rfl) rfl) rfl) rfl)) (high 10 5 _ t (high 5 4 _ m (high 4 3 _ uidlo (high 3 0 _ (0x1#3) (low (0x9#6 ++ b ++ im5 ++ sr ++ a ++ 0x1#1) cc) rfl) rfl) rfl) rfl)) (high 6 1 _ t (high 1 0 _ m (low (0x9#6 ++ b ++ im5 ++ sr ++ a ++ 0x1#1 ++ cc ++ 0x1#3) uidlo) rfl) rfl)) (high 5 0 _ t (low (0x9#6 ++ b ++ im5 ++ sr ++ a ++ 0x1#1 ++ cc ++ 0x1#3 ++ uidlo) m) rfl)) (low (0x9#6 ++ b ++ im5 ++ sr ++ a ++ 0x1#1 ++ cc ++ 0x1#3 ++ uidlo ++ m) t))

theorem InTable.cldwIndexed4 (b : BitVec 5) (x : BitVec 5) (sr : BitVec 2) (u : BitVec 1) (cc : BitVec 2) (uidlo : BitVec 2) (m : BitVec 1) (t : BitVec 5) : InTable.Statement (.cldwIndexed4 b x sr u cc uidlo m t) :=
  of_index 188 _ rfl (unmasked t (unmasked m (unmasked uidlo (masked (unmasked cc (masked (unmasked u (unmasked sr (unmasked x (unmasked b (rfl : 0x9#6 &&& 0x3F#6 = 0x9#6))))) (rfl : 0x0#1 &&& 0x1#1 = 0x0#1))) (rfl : 0x1#2 &&& 0x3#2 = 0x1#2))))) rfl rfl (congr (congr (congr (congr (congr (congr (congr (congrArg Instr.cldwIndexed4 (high 21 16 _ t (high 16 15 _ m (high 15 13 _ uidlo (high 13 11 _ (0x1#2) (high 11 9 _ cc (high 9 8 _ (0x0#1) (high 8 7 _ u (high 7 5 _ sr (high 5 0 _ x (low (0x9#6) b) rfl) rfl) rfl) rfl) rfl) rfl) rfl) rfl) rfl)) (high 16 11 _ t (high 11 10 _ m (high 10 8 _ uidlo (high 8 6 _ (0x1#2) (high 6 4 _ cc (high 4 3 _ (0x0#1) (high 3 2 _ u (high 2 0 _ sr (low (0x9#6 ++ b) x) rfl) rfl) rfl) rfl) rfl) rfl) rfl) rfl)) (high 14 9 _ t (high 9 8 _ m (high 8 6 _ uidlo (high 6 4 _ (0x1#2) (high 4 2 _ cc (high 2 1 _ (0x0#1) (high 1 0 _ u (low (0x9#6 ++ b ++ x) sr) rfl) rfl) rfl) rfl) rfl) rfl) rfl)) (high 13 8 _ t (high 8 7 _ m (high 7 5 _ uidlo (high 5 3 _ (0x1#2) (high 3 1 _ cc (high 1 0 _ (0x0#1) (low (0x9#6 ++ b ++ x ++ sr) u) rfl) rfl) rfl) rfl) rfl) rfl)) (high 10 5 _ t (high 5 4 _ m (high 4 2 _ uidlo (high 2 0 _ (0x1#2) (low (0x9#6 ++ b ++ x ++ sr ++ u ++ 0x0#1) cc) rfl) rfl) rfl) rfl)) (high 6 1 _ t (high 1 0 _ m (low (0x9#6 ++ b ++ x ++ sr ++ u ++ 0x0#1 ++ cc ++ 0x1#2) uidlo) rfl) rfl)) (high 5 0 _ t (low (0x9#6 ++ b ++ x ++ sr ++ u ++ 0x0#1 ++ cc ++ 0x1#2 ++ uidlo) m) rfl)) (low (0x9#6 ++ b ++ x ++ sr ++ u ++ 0x0#1 ++ cc ++ 0x1#2 ++ uidlo ++ m) t))

theorem InTable.cldwShort4 (b : BitVec 5) (im5 : BitVec 5) (sr : BitVec 2) (a : BitVec 1) (cc : BitVec 2) (uidlo : BitVec 2) (m : BitVec 1) (t : BitVec 5) : InTable.Statement (.cldwShort4 b im5 sr a cc uidlo m t) :=
  of_index 189 _ rfl (unmasked t (unmasked m (unmasked uidlo (masked (unmasked cc (masked (unmasked a (unmasked sr (unmasked im5 (unmasked b (rfl : 0x9#6 &&& 0x3F#6 = 0x9#6))))) (rfl : 0x1#1 &&& 0x1#1 = 0x1#1))) (rfl : 0x1#2 &&& 0x3#2 = 0x1#2))))) rfl rfl (congr (congr (congr (congr (congr (congr (congr (congrArg Instr.cldwShort4 (high 21 16 _ t (high 16 15 _ m (high 15 13 _ uidlo (high 13 11 _ (0x1#2) (high 11 9 _ cc (high 9 8 _ (0x1#1) (high 8 7 _ a (high 7 5 _ sr (high 5 0 _ im5 (low (0x9#6) b) rfl) rfl) rfl) rfl) rfl) rfl) rfl) rfl) rfl)) (high 16 11 _ t (high 11 10 _ m (high 10 8 _ uidlo (high 8 6 _ (0x1#2) (high 6 4 _ cc (high 4 3 _ (0x1#1) (high 3 2 _ a (high 2 0 _ sr (low (0x9#6 ++ b) im5) rfl) rfl) rfl) rfl) rfl) rfl) rfl) rfl)) (high 14 9 _ t (high 9 8 _ m (high 8 6 _ uidlo (high 6 4 _ (0x1#2) (high 4 2 _ cc (high 2 1 _ (0x1#1) (high 1 0 _ a (low (0x9#6 ++ b ++ im5) sr) rfl) rfl) rfl) rfl) rfl) rfl) rfl)) (high 13 8 _ t (high 8 7 _ m (high 7 5 _ uidlo (high 5 3 _ (0x1#2) (high 3 1 _ cc (high 1 0 _ (0x1#1) (low (0x9#6 ++ b ++ im5 ++ sr) a) rfl) rfl) rfl) rfl) rfl) rfl)) (high 10 5 _ t (high 5 4 _ m (high 4 2 _ uidlo (high 2 0 _ (0x1#2) (low (0x9#6 ++ b ++ im5 ++ sr ++ a ++ 0x1#1) cc) rfl) rfl) rfl) rfl)) (high 6 1 _ t (high 1 0 _ m (low (0x9#6 ++ b ++ im5 ++ sr ++ a ++ 0x1#1 ++ cc ++ 0x1#2) uidlo) rfl) rfl)) (high 5 0 _ t (low (0x9#6 ++ b ++ im5 ++ sr ++ a ++ 0x1#1 ++ cc ++ 0x1#2 ++ uidlo) m) rfl)) (low (0x9#6 ++ b ++ im5 ++ sr ++ a ++ 0x1#1 ++ cc ++ 0x1#2 ++ uidlo ++ m) t))

theorem InTable.cstwIndexed2 (b : BitVec 5) (x : BitVec 5) (sr : BitVec 2) (u : BitVec 1) (cc : BitVec 2) (uidlo : BitVec 1) (m : BitVec 1) (r : BitVec 5) : InTable.Statement (.cstwIndexed2 b x sr u cc uidlo m r) :=
  of_index 190 _ rfl (unmasked r (unmasked m (unmasked uidlo (masked (unmasked cc (masked (unmasked u (unmasked sr (unmasked x (unmasked b (rfl : 0x9#6 &&& 0x3F#6 = 0x9#6))))) (rfl : 0x0#1 &&& 0x1#1 = 0x0#1))) (rfl : 0x5#3 &&& 0x7#3 = 0x5#3))))) rfl rfl (congr (congr (congr (congr (congr (congr (congr (congrArg Instr.cstwIndexed2 (high 21 16 _ r (high 16 15 _ m (high 15 14 _ uidlo (high 14 11 _ (0x5#3) (high 11 9 _ cc (high 9 8 _ (0x0#1) (high 8 7 _ u (high 7 5 _ sr (high 5 0 _ x (low (0x9#6) b) rfl) rfl) rfl) rfl) rfl) rfl) rfl) rfl) rfl)) (high 16 11 _ r (high 11 10 _ m (high 10 9 _ uidlo (high 9 6 _ (0x5#3) (high 6 4 _ cc (high 4 3 _ (0x0#1) (high 3 2 _ u (high 2 0 _ sr (low (0x9#6 ++ b) x) rfl) rfl) rfl) rfl) rfl) rfl) rfl) rfl)) (high 14 9 _ r (high 9 8 _ m (high 8 7 _ uidlo (high 7 4 _ (0x5#3) (high 4 2 _ cc (high 2 1 _ (0x0#1) (high 1 0 _ u (low (0x9#6 ++ b ++ x) sr) rfl) rfl) rfl) rfl) rfl) rfl) rfl)) (high 13 8 _ r (high 8 7 _ m (high 7 6 _ uidlo (high 6 3 _ (0x5#3) (high 3 1 _ cc (high 1 0 _ (0x0#1) (low (0x9#6 ++ b ++ x ++ sr) u) rfl) rfl) rfl) rfl) rfl) rfl)) (high 10 5 _ r (high 5 4 _ m (high 4 3 _ uidlo (high 3 0 _ (0x5#3) (low (0x9#6 ++ b ++ x ++ sr ++ u ++ 0x0#1) cc) rfl) rfl) rfl) rfl)) (high 6 1 _ r (high 1 0 _ m (low (0x9#6 ++ b ++ x ++ sr ++ u ++ 0x0#1 ++ cc ++ 0x5#3) uidlo) rfl) rfl)) (high 5 0 _ r (low (0x9#6 ++ b ++ x ++ sr ++ u ++ 0x0#1 ++ cc ++ 0x5#3 ++ uidlo) m) rfl)) (low (0x9#6 ++ b ++ x ++ sr ++ u ++ 0x0#1 ++ cc ++ 0x5#3 ++ uidlo ++ m) r))

theorem InTable.cstwShort2 (b : BitVec 5) (im5 : BitVec 5) (sr : BitVec 2) (a : BitVec 1) (cc : BitVec 2) (uidlo : BitVec 1) (m : BitVec 1) (r : BitVec 5) : InTable.Statement (.cstwShort2 b im5 sr a cc uidlo m r) :=
  of_index 191 _ rfl (unmasked r (unmasked m (unmasked uidlo (masked (unmasked cc (masked (unmasked a (unmasked sr (unmasked im5 (unmasked b (rfl : 0x9#6 &&& 0x3F#6 = 0x9#6))))) (rfl : 0x1#1 &&& 0x1#1 = 0x1#1))) (rfl : 0x5#3 &&& 0x7#3 = 0x5#3))))) rfl rfl (congr (congr (congr (congr (congr (congr (congr (congrArg Instr.cstwShort2 (high 21 16 _ r (high 16 15 _ m (high 15 14 _ uidlo (high 14 11 _ (0x5#3) (high 11 9 _ cc (high 9 8 _ (0x1#1) (high 8 7 _ a (high 7 5 _ sr (high 5 0 _ im5 (low (0x9#6) b) rfl) rfl) rfl) rfl) rfl) rfl) rfl) rfl) rfl)) (high 16 11 _ r (high 11 10 _ m (high 10 9 _ uidlo (high 9 6 _ (0x5#3) (high 6 4 _ cc (high 4 3 _ (0x1#1) (high 3 2 _ a (high 2 0 _ sr (low (0x9#6 ++ b) im5) rfl) rfl) rfl) rfl) rfl) rfl) rfl) rfl)) (high 14 9 _ r (high 9 8 _ m (high 8 7 _ uidlo (high 7 4 _ (0x5#3) (high 4 2 _ cc (high 2 1 _ (0x1#1) (high 1 0 _ a (low (0x9#6 ++ b ++ im5) sr) rfl) rfl) rfl) rfl) rfl) rfl) rfl)) (high 13 8 _ r (high 8 7 _ m (high 7 6 _ uidlo (high 6 3 _ (0x5#3) (high 3 1 _ cc (high 1 0 _ (0x1#1) (low (0x9#6 ++ b ++ im5 ++ sr) a) rfl) rfl) rfl) rfl) rfl) rfl)) (high 10 5 _ r (high 5 4 _ m (high 4 3 _ uidlo (high 3 0 _ (0x5#3) (low (0x9#6 ++ b ++ im5 ++ sr ++ a ++ 0x1#1) cc) rfl) rfl) rfl) rfl)) (high 6 1 _ r (high 1 0 _ m (low (0x9#6 ++ b ++ im5 ++ sr ++ a ++ 0x1#1 ++ cc ++ 0x5#3) uidlo) rfl) rfl)) (high 5 0 _ r (low (0x9#6 ++ b ++ im5 ++ sr ++ a ++ 0x1#1 ++ cc ++ 0x5#3 ++ uidlo) m) rfl)) (low (0x9#6 ++ b ++ im5 ++ sr ++ a ++ 0x1#1 ++ cc ++ 0x5#3 ++ uidlo ++ m) r))

theorem InTable.cstwIndexed4 (b : BitVec 5) (x : BitVec 5) (sr : BitVec 2) (u : BitVec 1) (cc : BitVec 2) (uidlo : BitVec 2) (m : BitVec 1) (r : BitVec 5) : InTable.Statement (.cstwIndexed4 b x sr u cc uidlo m r) :=
  of_index 192 _ rfl (unmasked r (unmasked m (unmasked uidlo (masked (unmasked cc (masked (unmasked u (unmasked sr (unmasked x (unmasked b (rfl : 0x9#6 &&& 0x3F#6 = 0x9#6))))) (rfl : 0x0#1 &&& 0x1#1 = 0x0#1))) (rfl : 0x3#2 &&& 0x3#2 = 0x3#2))))) rfl rfl (congr (congr (congr (congr (congr (congr (congr (congrArg Instr.cstwIndexed4 (high 21 16 _ r (high 16 15 _ m (high 15 13 _ uidlo (high 13 11 _ (0x3#2) (high 11 9 _ cc (high 9 8 _ (0x0#1) (high 8 7 _ u (high 7 5 _ sr (high 5 0 _ x (low (0x9#6) b) rfl) rfl) rfl) rfl) rfl) rfl) rfl) rfl) rfl)) (high 16 11 _ r (high 11 10 _ m (high 10 8 _ uidlo (high 8 6 _ (0x3#2) (high 6 4 _ cc (high 4 3 _ (0x0#1) (high 3 2 _ u (high 2 0 _ sr (low (0x9#6 ++ b) x) rfl) rfl) rfl) rfl) rfl) rfl) rfl) rfl)) (high 14 9 _ r (high 9 8 _ m (high 8 6 _ uidlo (high 6 4 _ (0x3#2) (high 4 2 _ cc (high 2 1 _ (0x0#1) (high 1 0 _ u (low (0x9#6 ++ b ++ x) sr) rfl) rfl) rfl) rfl) rfl) rfl) rfl)) (high 13 8 _ r (high 8 7 _ m (high 7 5 _ uidlo (high 5 3 _ (0x3#2) (high 3 1 _ cc (high 1 0 _ (0x0#1) (low (0x9#6 ++ b ++ x ++ sr) u) rfl) rfl) rfl) rfl) rfl) rfl)) (high 10 5 _ r (high 5 4 _ m (high 4 2 _ uidlo (high 2 0 _ (0x3#2) (low (0x9#6 ++ b ++ x ++ sr ++ u ++ 0x0#1) cc) rfl) rfl) rfl) rfl)) (high 6 1 _ r (high 1 0 _ m (low (0x9#6 ++ b ++ x ++ sr ++ u ++ 0x0#1 ++ cc ++ 0x3#2) uidlo) rfl) rfl)) (high 5 0 _ r (low (0x9#6 ++ b ++ x ++ sr ++ u ++ 0x0#1 ++ cc ++ 0x3#2 ++ uidlo) m) rfl)) (low (0x9#6 ++ b ++ x ++ sr ++ u ++ 0x0#1 ++ cc ++ 0x3#2 ++ uidlo ++ m) r))

theorem InTable.cstwShort4 (b : BitVec 5) (im5 : BitVec 5) (sr : BitVec 2) (a : BitVec 1) (cc : BitVec 2) (uidlo : BitVec 2) (m : BitVec 1) (r : BitVec 5) : InTable.Statement (.cstwShort4 b im5 sr a cc uidlo m r) :=
  of_index 193 _ rfl (unmasked r (unmasked m (unmasked uidlo (masked (unmasked cc (masked (unmasked a (unmasked sr (unmasked im5 (unmasked b (rfl : 0x9#6 &&& 0x3F#6 = 0x9#6))))) (rfl : 0x1#1 &&& 0x1#1 = 0x1#1))) (rfl : 0x3#2 &&& 0x3#2 = 0x3#2))))) rfl rfl (congr (congr (congr (congr (congr (congr (congr (congrArg Instr.cstwShort4 (high 21 16 _ r (high 16 15 _ m (high 15 13 _ uidlo (high 13 11 _ (0x3#2) (high 11 9 _ cc (high 9 8 _ (0x1#1) (high 8 7 _ a (high 7 5 _ sr (high 5 0 _ im5 (low (0x9#6) b) rfl) rfl) rfl) rfl) rfl) rfl) rfl) rfl) rfl)) (high 16 11 _ r (high 11 10 _ m (high 10 8 _ uidlo (high 8 6 _ (0x3#2) (high 6 4 _ cc (high 4 3 _ (0x1#1) (high 3 2 _ a (high 2 0 _ sr (low (0x9#6 ++ b) im5) rfl) rfl) rfl) rfl) rfl) rfl) rfl) rfl)) (high 14 9 _ r (high 9 8 _ m (high 8 6 _ uidlo (high 6 4 _ (0x3#2) (high 4 2 _ cc (high 2 1 _ (0x1#1) (high 1 0 _ a (low (0x9#6 ++ b ++ im5) sr) rfl) rfl) rfl) rfl) rfl) rfl) rfl)) (high 13 8 _ r (high 8 7 _ m (high 7 5 _ uidlo (high 5 3 _ (0x3#2) (high 3 1 _ cc (high 1 0 _ (0x1#1) (low (0x9#6 ++ b ++ im5 ++ sr) a) rfl) rfl) rfl) rfl) rfl) rfl)) (high 10 5 _ r (high 5 4 _ m (high 4 2 _ uidlo (high 2 0 _ (0x3#2) (low (0x9#6 ++ b ++ im5 ++ sr ++ a ++ 0x1#1) cc) rfl) rfl) rfl) rfl)) (high 6 1 _ r (high 1 0 _ m (low (0x9#6 ++ b ++ im5 ++ sr ++ a ++ 0x1#1 ++ cc ++ 0x3#2) uidlo) rfl) rfl)) (high 5 0 _ r (low (0x9#6 ++ b ++ im5 ++ sr ++ a ++ 0x1#1 ++ cc ++ 0x3#2 ++ uidlo) m) rfl)) (low (0x9#6 ++ b ++ im5 ++ sr ++ a ++ 0x1#1 ++ cc ++ 0x3#2 ++ uidlo ++ m) r))

theorem InTable.clddIndexed2 (b : BitVec 5) (x : BitVec 5) (sr : BitVec 2) (u : BitVec 1) (cc : BitVec 2) (uidlo : BitVec 1) (m : BitVec 1) (t : BitVec 5) : InTable.Statement (.clddIndexed2 b x sr u cc uidlo m t) :=
  of_index 194 _ rfl (unmasked t (unmasked m (unmasked uidlo (masked (unmasked cc (masked (unmasked u (unmasked sr (unmasked x (unmasked b (rfl : 0xB#6 &&& 0x3F#6 = 0xB#6))))) (rfl : 0x0#1 &&& 0x1#1 = 0x0#1))) (rfl : 0x1#3 &&& 0x7#3 = 0x1#3))))) rfl rfl (congr (congr (congr (congr (congr (congr (congr (congrArg Instr.clddIndexed2 (high 21 16 _ t (high 16 15 _ m (high 15 14 _ uidlo (high 14 11 _ (0x1#3) (high 11 9 _ cc (high 9 8 _ (0x0#1) (high 8 7 _ u (high 7 5 _ sr (high 5 0 _ x (low (0xB#6) b) rfl) rfl) rfl) rfl) rfl) rfl) rfl) rfl) rfl)) (high 16 11 _ t (high 11 10 _ m (high 10 9 _ uidlo (high 9 6 _ (0x1#3) (high 6 4 _ cc (high 4 3 _ (0x0#1) (high 3 2 _ u (high 2 0 _ sr (low (0xB#6 ++ b) x) rfl) rfl) rfl) rfl) rfl) rfl) rfl) rfl)) (high 14 9 _ t (high 9 8 _ m (high 8 7 _ uidlo (high 7 4 _ (0x1#3) (high 4 2 _ cc (high 2 1 _ (0x0#1) (high 1 0 _ u (low (0xB#6 ++ b ++ x) sr) rfl) rfl) rfl) rfl) rfl) rfl) rfl)) (high 13 8 _ t (high 8 7 _ m (high 7 6 _ uidlo (high 6 3 _ (0x1#3) (high 3 1 _ cc (high 1 0 _ (0x0#1) (low (0xB#6 ++ b ++ x ++ sr) u) rfl) rfl) rfl) rfl) rfl) rfl)) (high 10 5 _ t (high 5 4 _ m (high 4 3 _ uidlo (high 3 0 _ (0x1#3) (low (0xB#6 ++ b ++ x ++ sr ++ u ++ 0x0#1) cc) rfl) rfl) rfl) rfl)) (high 6 1 _ t (high 1 0 _ m (low (0xB#6 ++ b ++ x ++ sr ++ u ++ 0x0#1 ++ cc ++ 0x1#3) uidlo) rfl) rfl)) (high 5 0 _ t (low (0xB#6 ++ b ++ x ++ sr ++ u ++ 0x0#1 ++ cc ++ 0x1#3 ++ uidlo) m) rfl)) (low (0xB#6 ++ b ++ x ++ sr ++ u ++ 0x0#1 ++ cc ++ 0x1#3 ++ uidlo ++ m) t))

theorem InTable.clddShort2 (b : BitVec 5) (im5 : BitVec 5) (sr : BitVec 2) (a : BitVec 1) (cc : BitVec 2) (uidlo : BitVec 1) (m : BitVec 1) (t : BitVec 5) : InTable.Statement (.clddShort2 b im5 sr a cc uidlo m t) :=
  of_index 195 _ rfl (unmasked t (unmasked m (unmasked uidlo (masked (unmasked cc (masked (unmasked a (unmasked sr (unmasked im5 (unmasked b (rfl : 0xB#6 &&& 0x3F#6 = 0xB#6))))) (rfl : 0x1#1 &&& 0x1#1 = 0x1#1))) (rfl : 0x1#3 &&& 0x7#3 = 0x1#3))))) rfl rfl (congr (congr (congr (congr (congr (congr (congr (congrArg Instr.clddShort2 (high 21 16 _ t (high 16 15 _ m (high 15 14 _ uidlo (high 14 11 _ (0x1#3) (high 11 9 _ cc (high 9 8 _ (0x1#1) (high 8 7 _ a (high 7 5 _ sr (high 5 0 _ im5 (low (0xB#6) b) rfl) rfl) rfl) rfl) rfl) rfl) rfl) rfl) rfl)) (high 16 11 _ t (high 11 10 _ m (high 10 9 _ uidlo (high 9 6 _ (0x1#3) (high 6 4 _ cc (high 4 3 _ (0x1#1) (high 3 2 _ a (high 2 0 _ sr (low (0xB#6 ++ b) im5) rfl) rfl) rfl) rfl) rfl) rfl) rfl) rfl)) (high 14 9 _ t (high 9 8 _ m (high 8 7 _ uidlo (high 7 4 _ (0x1#3) (high 4 2 _ cc (high 2 1 _ (0x1#1) (high 1 0 _ a (low (0xB#6 ++ b ++ im5) sr) rfl) rfl) rfl) rfl) rfl) rfl) rfl)) (high 13 8 _ t (high 8 7 _ m (high 7 6 _ uidlo (high 6 3 _ (0x1#3) (high 3 1 _ cc (high 1 0 _ (0x1#1) (low (0xB#6 ++ b ++ im5 ++ sr) a) rfl) rfl) rfl) rfl) rfl) rfl)) (high 10 5 _ t (high 5 4 _ m (high 4 3 _ uidlo (high 3 0 _ (0x1#3) (low (0xB#6 ++ b ++ im5 ++ sr ++ a ++ 0x1#1) cc) rfl) rfl) rfl) rfl)) (high 6 1 _ t (high 1 0 _ m (low (0xB#6 ++ b ++ im5 ++ sr ++ a ++ 0x1#1 ++ cc ++ 0x1#3) uidlo) rfl) rfl)) (high 5 0 _ t (low (0xB#6 ++ b ++ im5 ++ sr ++ a ++ 0x1#1 ++ cc ++ 0x1#3 ++ uidlo) m) rfl)) (low (0xB#6 ++ b ++ im5 ++ sr ++ a ++ 0x1#1 ++ cc ++ 0x1#3 ++ uidlo ++ m) t))

theorem InTable.clddIndexed4 (b : BitVec 5) (x : BitVec 5) (sr : BitVec 2) (u : BitVec 1) (cc : BitVec 2) (uidlo : BitVec 2) (m : BitVec 1) (t : BitVec 5) : InTable.Statement (.clddIndexed4 b x sr u cc uidlo m t) :=
  of_index 196 _ rfl (unmasked t (unmasked m (unmasked uidlo (masked (unmasked cc (masked (unmasked u (unmasked sr (unmasked x (unmasked b (rfl : 0xB#6 &&& 0x3F#6 = 0xB#6))))) (rfl : 0x0#1 &&& 0x1#1 = 0x0#1))) (rfl : 0x1#2 &&& 0x3#2 = 0x1#2))))) rfl rfl (congr (congr (congr (congr (congr (congr (congr (congrArg Instr.clddIndexed4 (high 21 16 _ t (high 16 15 _ m (high 15 13 _ uidlo (high 13 11 _ (0x1#2) (high 11 9 _ cc (high 9 8 _ (0x0#1) (high 8 7 _ u (high 7 5 _ sr (high 5 0 _ x (low (0xB#6) b) rfl) rfl) rfl) rfl) rfl) rfl) rfl) rfl) rfl)) (high 16 11 _ t (high 11 10 _ m (high 10 8 _ uidlo (high 8 6 _ (0x1#2) (high 6 4 _ cc (high 4 3 _ (0x0#1) (high 3 2 _ u (high 2 0 _ sr (low (0xB#6 ++ b) x) rfl) rfl) rfl) rfl) rfl) rfl) rfl) rfl)) (high 14 9 _ t (high 9 8 _ m (high 8 6 _ uidlo (high 6 4 _ (0x1#2) (high 4 2 _ cc (high 2 1 _ (0x0#1) (high 1 0 _ u (low (0xB#6 ++ b ++ x) sr) rfl) rfl) rfl) rfl) rfl) rfl) rfl)) (high 13 8 _ t (high 8 7 _ m (high 7 5 _ uidlo (high 5 3 _ (0x1#2) (high 3 1 _ cc (high 1 0 _ (0x0#1) (low (0xB#6 ++ b ++ x ++ sr) u) rfl) rfl) rfl) rfl) rfl) rfl)) (high 10 5 _ t (high 5 4 _ m (high 4 2 _ uidlo (high 2 0 _ (0x1#2) (low (0xB#6 ++ b ++ x ++ sr ++ u ++ 0x0#1) cc) rfl) rfl) rfl) rfl)) (high 6 1 _ t (high 1 0 _ m (low (0xB#6 ++ b ++ x ++ sr ++ u ++ 0x0#1 ++ cc ++ 0x1#2) uidlo) rfl) rfl)) (high 5 0 _ t (low (0xB#6 ++ b ++ x ++ sr ++ u ++ 0x0#1 ++ cc ++ 0x1#2 ++ uidlo) m) rfl)) (low (0xB#6 ++ b ++ x ++ sr ++ u ++ 0x0#1 ++ cc ++ 0x1#2 ++ uidlo ++ m) t))

theorem InTable.clddShort4 (b : BitVec 5) (im5 : BitVec 5) (sr : BitVec 2) (a : BitVec 1) (cc : BitVec 2) (uidlo : BitVec 2) (m : BitVec 1) (t : BitVec 5) : InTable.Statement (.clddShort4 b im5 sr a cc uidlo m t) :=
  of_index 197 _ rfl (unmasked t (unmasked m (unmasked uidlo (masked (unmasked cc (masked (unmasked a (unmasked sr (unmasked im5 (unmasked b (rfl : 0xB#6 &&& 0x3F#6 = 0xB#6))))) (rfl : 0x1#1 &&& 0x1#1 = 0x1#1))) (rfl : 0x1#2 &&& 0x3#2 = 0x1#2))))) rfl rfl (congr (congr (congr (congr (congr (congr (congr (congrArg Instr.clddShort4 (high 21 16 _ t (high 16 15 _ m (high 15 13 _ uidlo (high 13 11 _ (0x1#2) (high 11 9 _ cc (high 9 8 _ (0x1#1) (high 8 7 _ a (high 7 5 _ sr (high 5 0 _ im5 (low (0xB#6) b) rfl) rfl) rfl) rfl) rfl) rfl) rfl) rfl) rfl)) (high 16 11 _ t (high 11 10 _ m (high 10 8 _ uidlo (high 8 6 _ (0x1#2) (high 6 4 _ cc (high 4 3 _ (0x1#1) (high 3 2 _ a (high 2 0 _ sr (low (0xB#6 ++ b) im5) rfl) rfl) rfl) rfl) rfl) rfl) rfl) rfl)) (high 14 9 _ t (high 9 8 _ m (high 8 6 _ uidlo (high 6 4 _ (0x1#2) (high 4 2 _ cc (high 2 1 _ (0x1#1) (high 1 0 _ a (low (0xB#6 ++ b ++ im5) sr) rfl) rfl) rfl) rfl) rfl) rfl) rfl)) (high 13 8 _ t (high 8 7 _ m (high 7 5 _ uidlo (high 5 3 _ (0x1#2) (high 3 1 _ cc (high 1 0 _ (0x1#1) (low (0xB#6 ++ b ++ im5 ++ sr) a) rfl) rfl) rfl) rfl) rfl) rfl)) (high 10 5 _ t (high 5 4 _ m (high 4 2 _ uidlo (high 2 0 _ (0x1#2) (low (0xB#6 ++ b ++ im5 ++ sr ++ a ++ 0x1#1) cc) rfl) rfl) rfl) rfl)) (high 6 1 _ t (high 1 0 _ m (low (0xB#6 ++ b ++ im5 ++ sr ++ a ++ 0x1#1 ++ cc ++ 0x1#2) uidlo) rfl) rfl)) (high 5 0 _ t (low (0xB#6 ++ b ++ im5 ++ sr ++ a ++ 0x1#1 ++ cc ++ 0x1#2 ++ uidlo) m) rfl)) (low (0xB#6 ++ b ++ im5 ++ sr ++ a ++ 0x1#1 ++ cc ++ 0x1#2 ++ uidlo ++ m) t))

theorem InTable.cstdIndexed2 (b : BitVec 5) (x : BitVec 5) (sr : BitVec 2) (u : BitVec 1) (cc : BitVec 2) (uidlo : BitVec 1) (m : BitVec 1) (r : BitVec 5) : InTable.Statement (.cstdIndexed2 b x sr u cc uidlo m r) :=
  of_index 198 _ rfl (unmasked r (unmasked m (unmasked uidlo (masked (unmasked cc (masked (unmasked u (unmasked sr (unmasked x (unmasked b (rfl : 0xB#6 &&& 0x3F#6 = 0xB#6))))) (rfl : 0x0#1 &&& 0x1#1 = 0x0#1))) (rfl : 0x5#3 &&& 0x7#3 = 0x5#3))))) rfl rfl (congr (congr (congr (congr (congr (congr (congr (congrArg Instr.cstdIndexed2 (high 21 16 _ r (high 16 15 _ m (high 15 14 _ uidlo (high 14 11 _ (0x5#3) (high 11 9 _ cc (high 9 8 _ (0x0#1) (high 8 7 _ u (high 7 5 _ sr (high 5 0 _ x (low (0xB#6) b) rfl) rfl) rfl) rfl) rfl) rfl) rfl) rfl) rfl)) (high 16 11 _ r (high 11 10 _ m (high 10 9 _ uidlo (high 9 6 _ (0x5#3) (high 6 4 _ cc (high 4 3 _ (0x0#1) (high 3 2 _ u (high 2 0 _ sr (low (0xB#6 ++ b) x) rfl) rfl) rfl) rfl) rfl) rfl) rfl) rfl)) (high 14 9 _ r (high 9 8 _ m (high 8 7 _ uidlo (high 7 4 _ (0x5#3) (high 4 2 _ cc (high 2 1 _ (0x0#1) (high 1 0 _ u (low (0xB#6 ++ b ++ x) sr) rfl) rfl) rfl) rfl) rfl) rfl) rfl)) (high 13 8 _ r (high 8 7 _ m (high 7 6 _ uidlo (high 6 3 _ (0x5#3) (high 3 1 _ cc (high 1 0 _ (0x0#1) (low (0xB#6 ++ b ++ x ++ sr) u) rfl) rfl) rfl) rfl) rfl) rfl)) (high 10 5 _ r (high 5 4 _ m (high 4 3 _ uidlo (high 3 0 _ (0x5#3) (low (0xB#6 ++ b ++ x ++ sr ++ u ++ 0x0#1) cc) rfl) rfl) rfl) rfl)) (high 6 1 _ r (high 1 0 _ m (low (0xB#6 ++ b ++ x ++ sr ++ u ++ 0x0#1 ++ cc ++ 0x5#3) uidlo) rfl) rfl)) (high 5 0 _ r (low (0xB#6 ++ b ++ x ++ sr ++ u ++ 0x0#1 ++ cc ++ 0x5#3 ++ uidlo) m) rfl)) (low (0xB#6 ++ b ++ x ++ sr ++ u ++ 0x0#1 ++ cc ++ 0x5#3 ++ uidlo ++ m) r))

theorem InTable.cstdShort2 (b : BitVec 5) (im5 : BitVec 5) (sr : BitVec 2) (a : BitVec 1) (cc : BitVec 2) (uidlo : BitVec 1) (m : BitVec 1) (r : BitVec 5) : InTable.Statement (.cstdShort2 b im5 sr a cc uidlo m r) :=
  of_index 199 _ rfl (unmasked r (unmasked m (unmasked uidlo (masked (unmasked cc (masked (unmasked a (unmasked sr (unmasked im5 (unmasked b (rfl : 0xB#6 &&& 0x3F#6 = 0xB#6))))) (rfl : 0x1#1 &&& 0x1#1 = 0x1#1))) (rfl : 0x5#3 &&& 0x7#3 = 0x5#3))))) rfl rfl (congr (congr (congr (congr (congr (congr (congr (congrArg Instr.cstdShort2 (high 21 16 _ r (high 16 15 _ m (high 15 14 _ uidlo (high 14 11 _ (0x5#3) (high 11 9 _ cc (high 9 8 _ (0x1#1) (high 8 7 _ a (high 7 5 _ sr (high 5 0 _ im5 (low (0xB#6) b) rfl) rfl) rfl) rfl) rfl) rfl) rfl) rfl) rfl)) (high 16 11 _ r (high 11 10 _ m (high 10 9 _ uidlo (high 9 6 _ (0x5#3) (high 6 4 _ cc (high 4 3 _ (0x1#1) (high 3 2 _ a (high 2 0 _ sr (low (0xB#6 ++ b) im5) rfl) rfl) rfl) rfl) rfl) rfl) rfl) rfl)) (high 14 9 _ r (high 9 8 _ m (high 8 7 _ uidlo (high 7 4 _ (0x5#3) (high 4 2 _ cc (high 2 1 _ (0x1#1) (high 1 0 _ a (low (0xB#6 ++ b ++ im5) sr) rfl) rfl) rfl) rfl) rfl) rfl) rfl)) (high 13 8 _ r (high 8 7 _ m (high 7 6 _ uidlo (high 6 3 _ (0x5#3) (high 3 1 _ cc (high 1 0 _ (0x1#1) (low (0xB#6 ++ b ++ im5 ++ sr) a) rfl) rfl) rfl) rfl) rfl) rfl)) (high 10 5 _ r (high 5 4 _ m (high 4 3 _ uidlo (high 3 0 _ (0x5#3) (low (0xB#6 ++ b ++ im5 ++ sr ++ a ++ 0x1#1) cc) rfl) rfl) rfl) rfl)) (high 6 1 _ r (high 1 0 _ m (low (0xB#6 ++ b ++ im5 ++ sr ++ a ++ 0x1#1 ++ cc ++ 0x5#3) uidlo) rfl) rfl)) (high 5 0 _ r (low (0xB#6 ++ b ++ im5 ++ sr ++ a ++ 0x1#1 ++ cc ++ 0x5#3 ++ uidlo) m) rfl)) (low (0xB#6 ++ b ++ im5 ++ sr ++ a ++ 0x1#1 ++ cc ++ 0x5#3 ++ uidlo ++ m) r))

theorem InTable.cstdIndexed4 (b : BitVec 5) (x : BitVec 5) (sr : BitVec 2) (u : BitVec 1) (cc : BitVec 2) (uidlo : BitVec 2) (m : BitVec 1) (r : BitVec 5) : InTable.Statement (.cstdIndexed4 b x sr u cc uidlo m r) :=
  of_index 200 _ rfl (unmasked r (unmasked m (unmasked uidlo (masked (unmasked cc (masked (unmasked u (unmasked sr (unmasked x (unmasked b (rfl : 0xB#6 &&& 0x3F#6 = 0xB#6))))) (rfl : 0x0#1 &&& 0x1#1 = 0x0#1))) (rfl : 0x3#2 &&& 0x3#2 = 0x3#2))))) rfl rfl (congr (congr (congr (congr (congr (congr (congr (congrArg Instr.cstdIndexed4 (high 21 16 _ r (high 16 15 _ m (high 15 13 _ uidlo (high 13 11 _ (0x3#2) (high 11 9 _ cc (high 9 8 _ (0x0#1) (high 8 7 _ u (high 7 5 _ sr (high 5 0 _ x (low (0xB#6) b) rfl) rfl) rfl) rfl) rfl) rfl) rfl) rfl) rfl)) (high 16 11 _ r (high 11 10 _ m (high 10 8 _ uidlo (high 8 6 _ (0x3#2) (high 6 4 _ cc (high 4 3 _ (0x0#1) (high 3 2 _ u (high 2 0 _ sr (low (0xB#6 ++ b) x) rfl) rfl) rfl) rfl) rfl) rfl) rfl) rfl)) (high 14 9 _ r (high 9 8 _ m (high 8 6 _ uidlo (high 6 4 _ (0x3#2) (high 4 2 _ cc (high 2 1 _ (0x0#1) (high 1 0 _ u (low (0xB#6 ++ b ++ x) sr) rfl) rfl) rfl) rfl) rfl) rfl) rfl)) (high 13 8 _ r (high 8 7 _ m (high 7 5 _ uidlo (high 5 3 _ (0x3#2) (high 3 1 _ cc (high 1 0 _ (0x0#1) (low (0xB#6 ++ b ++ x ++ sr) u) rfl) rfl) rfl) rfl) rfl) rfl)) (high 10 5 _ r (high 5 4 _ m (high 4 2 _ uidlo (high 2 0 _ (0x3#2) (low (0xB#6 ++ b ++ x ++ sr ++ u ++ 0x0#1) cc) rfl) rfl) rfl) rfl)) (high 6 1 _ r (high 1 0 _ m (low (0xB#6 ++ b ++ x ++ sr ++ u ++ 0x0#1 ++ cc ++ 0x3#2) uidlo) rfl) rfl)) (high 5 0 _ r (low (0xB#6 ++ b ++ x ++ sr ++ u ++ 0x0#1 ++ cc ++ 0x3#2 ++ uidlo) m) rfl)) (low (0xB#6 ++ b ++ x ++ sr ++ u ++ 0x0#1 ++ cc ++ 0x3#2 ++ uidlo ++ m) r))

theorem InTable.cstdShort4 (b : BitVec 5) (im5 : BitVec 5) (sr : BitVec 2) (a : BitVec 1) (cc : BitVec 2) (uidlo : BitVec 2) (m : BitVec 1) (r : BitVec 5) : InTable.Statement (.cstdShort4 b im5 sr a cc uidlo m r) :=
  of_index 201 _ rfl (unmasked r (unmasked m (unmasked uidlo (masked (unmasked cc (masked (unmasked a (unmasked sr (unmasked im5 (unmasked b (rfl : 0xB#6 &&& 0x3F#6 = 0xB#6))))) (rfl : 0x1#1 &&& 0x1#1 = 0x1#1))) (rfl : 0x3#2 &&& 0x3#2 = 0x3#2))))) rfl rfl (congr (congr (congr (congr (congr (congr (congr (congrArg Instr.cstdShort4 (high 21 16 _ r (high 16 15 _ m (high 15 13 _ uidlo (high 13 11 _ (0x3#2) (high 11 9 _ cc (high 9 8 _ (0x1#1) (high 8 7 _ a (high 7 5 _ sr (high 5 0 _ im5 (low (0xB#6) b) rfl) rfl) rfl) rfl) rfl) rfl) rfl) rfl) rfl)) (high 16 11 _ r (high 11 10 _ m (high 10 8 _ uidlo (high 8 6 _ (0x3#2) (high 6 4 _ cc (high 4 3 _ (0x1#1) (high 3 2 _ a (high 2 0 _ sr (low (0xB#6 ++ b) im5) rfl) rfl) rfl) rfl) rfl) rfl) rfl) rfl)) (high 14 9 _ r (high 9 8 _ m (high 8 6 _ uidlo (high 6 4 _ (0x3#2) (high 4 2 _ cc (high 2 1 _ (0x1#1) (high 1 0 _ a (low (0xB#6 ++ b ++ im5) sr) rfl) rfl) rfl) rfl) rfl) rfl) rfl)) (high 13 8 _ r (high 8 7 _ m (high 7 5 _ uidlo (high 5 3 _ (0x3#2) (high 3 1 _ cc (high 1 0 _ (0x1#1) (low (0xB#6 ++ b ++ im5 ++ sr) a) rfl) rfl) rfl) rfl) rfl) rfl)) (high 10 5 _ r (high 5 4 _ m (high 4 2 _ uidlo (high 2 0 _ (0x3#2) (low (0xB#6 ++ b ++ im5 ++ sr ++ a ++ 0x1#1) cc) rfl) rfl) rfl) rfl)) (high 6 1 _ r (high 1 0 _ m (low (0xB#6 ++ b ++ im5 ++ sr ++ a ++ 0x1#1 ++ cc ++ 0x3#2) uidlo) rfl) rfl)) (high 5 0 _ r (low (0xB#6 ++ b ++ im5 ++ sr ++ a ++ 0x1#1 ++ cc ++ 0x3#2 ++ uidlo) m) rfl)) (low (0xB#6 ++ b ++ im5 ++ sr ++ a ++ 0x1#1 ++ cc ++ 0x3#2 ++ uidlo ++ m) r))

theorem InTable.fldwLong (b : BitVec 5) (t : BitVec 5) (sr : BitVec 2) (im11a : BitVec 11) (h : BitVec 1) (iv : BitVec 1) : InTable.Statement (.fldwLong b t sr im11a h iv) :=
  of_index 202 _ rfl (unmasked iv (unmasked h (masked (unmasked im11a (unmasked sr (unmasked t (unmasked b (rfl : 0x17#6 &&& 0x3F#6 = 0x17#6))))) (rfl : 0x0#1 &&& 0x1#1 = 0x0#1)))) rfl rfl (congr (congr (congr (congr (congr (congrArg Instr.fldwLong (high 21 20 _ iv (high 20 19 _ h (high 19 18 _ (0x0#1) (high 18 7 _ im11a (high 7 5 _ sr (high 5 0 _ t (low (0x17#6) b) rfl) rfl) rfl) rfl) rfl) rfl)) (high 16 15 _ iv (high 15 14 _ h (high 14 13 _ (0x0#1) (high 13 2 _ im11a (high 2 0 _ sr (low (0x17#6 ++ b) t) rfl) rfl) rfl) rfl) rfl)) (high 14 13 _ iv (high 13 12 _ h (high 12 11 _ (0x0#1) (high 11 0 _ im11a (low (0x17#6 ++ b ++ t) sr) rfl) rfl) rfl) rfl)) (high 3 2 _ iv (high 2 1 _ h (high 1 0 _ (0x0#1) (low (0x17#6 ++ b ++ t ++ sr) im11a) rfl) rfl) rfl)) (high 1 0 _ iv (low (0x17#6 ++ b ++ t ++ sr ++ im11a ++ 0x0#1) h) rfl)) (low (0x17#6 ++ b ++ t ++ sr ++ im11a ++ 0x0#1 ++ h) iv))

theorem InTable.fldwLongMod (b : BitVec 5) (t : BitVec 5) (sr : BitVec 2) (im11a : BitVec 11) (a : BitVec 1) (h : BitVec 1) (iv : BitVec 1) : InTable.Statement (.fldwLongMod b t sr im11a a h iv) :=
  of_index 203 _ rfl (unmasked iv (unmasked h (unmasked a (unmasked im11a (unmasked sr (unmasked t (unmasked b (rfl : 0x16#6 &&& 0x3F#6 = 0x16#6)))))))) rfl rfl (congr (congr (congr (congr (congr (congr (congrArg Instr.fldwLongMod (high 21 20 _ iv (high 20 19 _ h (high 19 18 _ a (high 18 7 _ im11a (high 7 5 _ sr (high 5 0 _ t (low (0x16#6) b) rfl) rfl) rfl) rfl) rfl) rfl)) (high 16 15 _ iv (high 15 14 _ h (high 14 13 _ a (high 13 2 _ im11a (high 2 0 _ sr (low (0x16#6 ++ b) t) rfl) rfl) rfl) rfl) rfl)) (high 14 13 _ iv (high 13 12 _ h (high 12 11 _ a (high 11 0 _ im11a (low (0x16#6 ++ b ++ t) sr) rfl) rfl) rfl) rfl)) (high 3 2 _ iv (high 2 1 _ h (high 1 0 _ a (low (0x16#6 ++ b ++ t ++ sr) im11a) rfl) rfl) rfl)) (high 2 1 _ iv (high 1 0 _ h (low (0x16#6 ++ b ++ t ++ sr ++ im11a) a) rfl) rfl)) (high 1 0 _ iv (low (0x16#6 ++ b ++ t ++ sr ++ im11a ++ a) h) rfl)) (low (0x16#6 ++ b ++ t ++ sr ++ im11a ++ a ++ h) iv))

theorem InTable.fldwShort (b : BitVec 5) (im5 : BitVec 5) (sr : BitVec 2) (a : BitVec 1) (cc : BitVec 2) (h : BitVec 1) (m : BitVec 1) (t : BitVec 5) : InTable.Statement (.fldwShort b im5 sr a cc h m t) :=
  of_index 204 _ rfl (unmasked t (unmasked m (unmasked h (masked (unmasked cc (masked (unmasked a (unmasked sr (unmasked im5 (unmasked b (rfl : 0x9#6 &&& 0x3F#6 = 0x9#6))))) (rfl : 0x1#1 &&& 0x1#1 = 0x1#1))) (rfl : 0x0#3 &&& 0x7#3 = 0x0#3))))) rfl rfl (congr (congr (congr (congr (congr (congr (congr (congrArg Instr.fldwShort (high 21 16 _ t (high 16 15 _ m (high 15 14 _ h (high 14 11 _ (0x0#3) (high 11 9 _ cc (high 9 8 _ (0x1#1) (high 8 7 _ a (high 7 5 _ sr (high 5 0 _ im5 (low (0x9#6) b) rfl) rfl) rfl) rfl) rfl) rfl) rfl) rfl) rfl)) (high 16 11 _ t (high 11 10 _ m (high 10 9 _ h (high 9 6 _ (0x0#3) (high 6 4 _ cc (high 4 3 _ (0x1#1) (high 3 2 _ a (high 2 0 _ sr (low (0x9#6 ++ b) im5) rfl) rfl) rfl) rfl) rfl) rfl) rfl) rfl)) (high 14 9 _ t (high 9 8 _ m (high 8 7 _ h (high 7 4 _ (0x0#3) (high 4 2 _ cc (high 2 1 _ (0x1#1) (high 1 0 _ a (low (0x9#6 ++ b ++ im5) sr) rfl) rfl) rfl) rfl) rfl) rfl) rfl)) (high 13 8 _ t (high 8 7 _ m (high 7 6 _ h (high 6 3 _ (0x0#3) (high 3 1 _ cc (high 1 0 _ (0x1#1) (low (0x9#6 ++ b ++ im5 ++ sr) a) rfl) rfl) rfl) rfl) rfl) rfl)) (high 10 5 _ t (high 5 4 _ m (high 4 3 _ h (high 3 0 _ (0x0#3) (low (0x9#6 ++ b ++ im5 ++ sr ++ a ++ 0x1#1) cc) rfl) rfl) rfl) rfl)) (high 6 1 _ t (high 1 0 _ m (low (0x9#6 ++ b ++ im5 ++ sr ++ a ++ 0x1#1 ++ cc ++ 0x0#3) h) rfl) rfl)) (high 5 0 _ t (low (0x9#6 ++ b ++ im5 ++ sr ++ a ++ 0x1#1 ++ cc ++ 0x0#3 ++ h) m) rfl)) (low (0x9#6 ++ b ++ im5 ++ sr ++ a ++ 0x1#1 ++ cc ++ 0x0#3 ++ h ++ m) t))

theorem InTable.fldwIndexed (b : BitVec 5) (x : BitVec 5) (sr : BitVec 2) (u : BitVec 1) (cc : BitVec 2) (h : BitVec 1) (m : BitVec 1) (t : BitVec 5) : InTable.Statement (.fldwIndexed b x sr u cc h m t) :=
  of_index 205 _ rfl (unmasked t (unmasked m (unmasked h (masked (unmasked cc (masked (unmasked u (unmasked sr (unmasked x (unmasked b (rfl : 0x9#6 &&& 0x3F#6 = 0x9#6))))) (rfl : 0x0#1 &&& 0x1#1 = 0x0#1))) (rfl : 0x0#3 &&& 0x7#3 = 0x0#3))))) rfl rfl (congr (congr (congr (congr (congr (congr (congr (congrArg Instr.fldwIndexed (high 21 16 _ t (high 16 15 _ m (high 15 14 _ h (high 14 11 _ (0x0#3) (high 11 9 _ cc (high 9 8 _ (0x0#1) (high 8 7 _ u (high 7 5 _ sr (high 5 0 _ x (low (0x9#6) b) rfl) rfl) rfl) rfl) rfl) rfl) rfl) rfl) rfl)) (high 16 11 _ t (high 11 10 _ m (high 10 9 _ h (high 9 6 _ (0x0#3) (high 6 4 _ cc (high 4 3 _ (0x0#1) (high 3 2 _ u (high 2 0 _ sr (low (0x9#6 ++ b) x) rfl) rfl) rfl) rfl) rfl) rfl) rfl) rfl)) (high 14 9 _ t (high 9 8 _ m (high 8 7 _ h (high 7 4 _ (0x0#3) (high 4 2 _ cc (high 2 1 _ (0x0#1) (high 1 0 _ u (low (0x9#6 ++ b ++ x) sr) rfl) rfl) rfl) rfl) rfl) rfl) rfl)) (high 13 8 _ t (high 8 7 _ m (high 7 6 _ h (high 6 3 _ (0x0#3) (high 3 1 _ cc (high 1 0 _ (0x0#1) (low (0x9#6 ++ b ++ x ++ sr) u) rfl) rfl) rfl) rfl) rfl) rfl)) (high 10 5 _ t (high 5 4 _ m (high 4 3 _ h (high 3 0 _ (0x0#3) (low (0x9#6 ++ b ++ x ++ sr ++ u ++ 0x0#1) cc) rfl) rfl) rfl) rfl)) (high 6 1 _ t (high 1 0 _ m (low (0x9#6 ++ b ++ x ++ sr ++ u ++ 0x0#1 ++ cc ++ 0x0#3) h) rfl) rfl)) (high 5 0 _ t (low (0x9#6 ++ b ++ x ++ sr ++ u ++ 0x0#1 ++ cc ++ 0x0#3 ++ h) m) rfl)) (low (0x9#6 ++ b ++ x ++ sr ++ u ++ 0x0#1 ++ cc ++ 0x0#3 ++ h ++ m) t))

theorem InTable.fstwLong (b : BitVec 5) (r : BitVec 5) (sr : BitVec 2) (im11a : BitVec 11) (h : BitVec 1) (iv : BitVec 1) : InTable.Statement (.fstwLong b r sr im11a h iv) :=
  of_index 206 _ rfl (unmasked iv (unmasked h (masked (unmasked im11a (unmasked sr (unmasked r (unmasked b (rfl : 0x1F#6 &&& 0x3F#6 = 0x1F#6))))) (rfl : 0x0#1 &&& 0x1#1 = 0x0#1)))) rfl rfl (congr (congr (congr (congr (congr (congrArg Instr.fstwLong (high 21 20 _ iv (high 20 19 _ h (high 19 18 _ (0x0#1) (high 18 7 _ im11a (high 7 5 _ sr (high 5 0 _ r (low (0x1F#6) b) rfl) rfl) rfl) rfl) rfl) rfl)) (high 16 15 _ iv (high 15 14 _ h (high 14 13 _ (0x0#1) (high 13 2 _ im11a (high 2 0 _ sr (low (0x1F#6 ++ b) r) rfl) rfl) rfl) rfl) rfl)) (high 14 13 _ iv (high 13 12 _ h (high 12 11 _ (0x0#1) (high 11 0 _ im11a (low (0x1F#6 ++ b ++ r) sr) rfl) rfl) rfl) rfl)) (high 3 2 _ iv (high 2 1 _ h (high 1 0 _ (0x0#1) (low (0x1F#6 ++ b ++ r ++ sr) im11a) rfl) rfl) rfl)) (high 1 0 _ iv (low (0x1F#6 ++ b ++ r ++ sr ++ im11a ++ 0x0#1) h) rfl)) (low (0x1F#6 ++ b ++ r ++ sr ++ im11a ++ 0x0#1 ++ h) iv))

theorem InTable.fstwLongMod (b : BitVec 5) (r : BitVec 5) (sr : BitVec 2) (im11a : BitVec 11) (a : BitVec 1) (h : BitVec 1) (iv : BitVec 1) : InTable.Statement (.fstwLongMod b r sr im11a a h iv) :=
  of_index 207 _ rfl (unmasked iv (unmasked h (unmasked a (unmasked im11a (unmasked sr (unmasked r (unmasked b (rfl : 0x1E#6 &&& 0x3F#6 = 0x1E#6)))))))) rfl rfl (congr (congr (congr (congr (congr (congr (congrArg Instr.fstwLongMod (high 21 20 _ iv (high 20 19 _ h (high 19 18 _ a (high 18 7 _ im11a (high 7 5 _ sr (high 5 0 _ r (low (0x1E#6) b) rfl) rfl) rfl) rfl) rfl) rfl)) (high 16 15 _ iv (high 15 14 _ h (high 14 13 _ a (high 13 2 _ im11a (high 2 0 _ sr (low (0x1E#6 ++ b) r) rfl) rfl) rfl) rfl) rfl)) (high 14 13 _ iv (high 13 12 _ h (high 12 11 _ a (high 11 0 _ im11a (low (0x1E#6 ++ b ++ r) sr) rfl) rfl) rfl) rfl)) (high 3 2 _ iv (high 2 1 _ h (high 1 0 _ a (low (0x1E#6 ++ b ++ r ++ sr) im11a) rfl) rfl) rfl)) (high 2 1 _ iv (high 1 0 _ h (low (0x1E#6 ++ b ++ r ++ sr ++ im11a) a) rfl) rfl)) (high 1 0 _ iv (low (0x1E#6 ++ b ++ r ++ sr ++ im11a ++ a) h) rfl)) (low (0x1E#6 ++ b ++ r ++ sr ++ im11a ++ a ++ h) iv))

theorem InTable.fstwShort (b : BitVec 5) (im5 : BitVec 5) (sr : BitVec 2) (a : BitVec 1) (cc : BitVec 2) (h : BitVec 1) (m : BitVec 1) (r : BitVec 5) : InTable.Statement (.fstwShort b im5 sr a cc h m r) :=
  of_index 208 _ rfl (unmasked r (unmasked m (unmasked h (masked (unmasked cc (masked (unmasked a (unmasked sr (unmasked im5 (unmasked b (rfl : 0x9#6 &&& 0x3F#6 = 0x9#6))))) (rfl : 0x1#1 &&& 0x1#1 = 0x1#1))) (rfl : 0x4#3 &&& 0x7#3 = 0x4#3))))) rfl rfl (congr (congr (congr (congr (congr (congr (congr (congrArg Instr.fstwShort (high 21 16 _ r (high 16 15 _ m (high 15 14 _ h (high 14 11 _ (0x4#3) (high 11 9 _ cc (high 9 8 _ (0x1#1) (high 8 7 _ a (high 7 5 _ sr (high 5 0 _ im5 (low (0x9#6) b) rfl) rfl) rfl) rfl) rfl) rfl) rfl) rfl) rfl)) (high 16 11 _ r (high 11 10 _ m (high 10 9 _ h (high 9 6 _ (0x4#3) (high 6 4 _ cc (high 4 3 _ (0x1#1) (high 3 2 _ a (high 2 0 _ sr (low (0x9#6 ++ b) im5) rfl) rfl) rfl) rfl) rfl) rfl) rfl) rfl)) (high 14 9 _ r (high 9 8 _ m (high 8 7 _ h (high 7 4 _ (0x4#3) (high 4 2 _ cc (high 2 1 _ (0x1#1) (high 1 0 _ a (low (0x9#6 ++ b ++ im5) sr) rfl) rfl) rfl) rfl) rfl) rfl) rfl)) (high 13 8 _ r (high 8 7 _ m (high 7 6 _ h (high 6 3 _ (0x4#3) (high 3 1 _ cc (high 1 0 _ (0x1#1) (low (0x9#6 ++ b ++ im5 ++ sr) a) rfl) rfl) rfl) rfl) rfl) rfl)) (high 10 5 _ r (high 5 4 _ m (high 4 3 _ h (high 3 0 _ (0x4#3) (low (0x9#6 ++ b ++ im5 ++ sr ++ a ++ 0x1#1) cc) rfl) rfl) rfl) rfl)) (high 6 1 _ r (high 1 0 _ m (low (0x9#6 ++ b ++ im5 ++ sr ++ a ++ 0x1#1 ++ cc ++ 0x4#3) h) rfl) rfl)) (high 5 0 _ r (low (0x9#6 ++ b ++ im5 ++ sr ++ a ++ 0x1#1 ++ cc ++ 0x4#3 ++ h) m) rfl)) (low (0x9#6 ++ b ++ im5 ++ sr ++ a ++ 0x1#1 ++ cc ++ 0x4#3 ++ h ++ m) r))

theorem InTable.fstwIndexed (b : BitVec 5) (x : BitVec 5) (sr : BitVec 2) (u : BitVec 1) (cc : BitVec 2) (h : BitVec 1) (m : BitVec 1) (r : BitVec 5) : InTable.Statement (.fstwIndexed b x sr u cc h m r) :=
  of_index 209 _ rfl (unmasked r (unmasked m (unmasked h (masked (unmasked cc (masked (unmasked u (unmasked sr (unmasked x (unmasked b (rfl : 0x9#6 &&& 0x3F#6 = 0x9#6))))) (rfl : 0x0#1 &&& 0x1#1 = 0x0#1))) (rfl : 0x4#3 &&& 0x7#3 = 0x4#3))))) rfl rfl (congr (congr (congr (congr (congr (congr (congr (congrArg Instr.fstwIndexed (high 21 16 _ r (high 16 15 _ m (high 15 14 _ h (high 14 11 _ (0x4#3) (high 11 9 _ cc (high 9 8 _ (0x0#1) (high 8 7 _ u (high 7 5 _ sr (high 5 0 _ x (low (0x9#6) b) rfl) rfl) rfl) rfl) rfl) rfl) rfl) rfl) rfl)) (high 16 11 _ r (high 11 10 _ m (high 10 9 _ h (high 9 6 _ (0x4#3) (high 6 4 _ cc (high 4 3 _ (0x0#1) (high 3 2 _ u (high 2 0 _ sr (low (0x9#6 ++ b) x) rfl) rfl) rfl) rfl) rfl) rfl) rfl) rfl)) (high 14 9 _ r (high 9 8 _ m (high 8 7 _ h (high 7 4 _ (0x4#3) (high 4 2 _ cc (high 2 1 _ (0x0#1) (high 1 0 _ u (low (0x9#6 ++ b ++ x) sr) rfl) rfl) rfl) rfl) rfl) rfl) rfl)) (high 13 8 _ r (high 8 7 _ m (high 7 6 _ h (high 6 3 _ (0x4#3) (high 3 1 _ cc (high 1 0 _ (0x0#1) (low (0x9#6 ++ b ++ x ++ sr) u) rfl) rfl) rfl) rfl) rfl) rfl)) (high 10 5 _ r (high 5 4 _ m (high 4 3 _ h (high 3 0 _ (0x4#3) (low (0x9#6 ++ b ++ x ++ sr ++ u ++ 0x0#1) cc) rfl) rfl) rfl) rfl)) (high 6 1 _ r (high 1 0 _ m (low (0x9#6 ++ b ++ x ++ sr ++ u ++ 0x0#1 ++ cc ++ 0x4#3) h) rfl) rfl)) (high 5 0 _ r (low (0x9#6 ++ b ++ x ++ sr ++ u ++ 0x0#1 ++ cc ++ 0x4#3 ++ h) m) rfl)) (low (0x9#6 ++ b ++ x ++ sr ++ u ++ 0x0#1 ++ cc ++ 0x4#3 ++ h ++ m) r))

theorem InTable.flddLong (b : BitVec 5) (t : BitVec 5) (sr : BitVec 2) (im10a : BitVec 10) (m : BitVec 1) (a : BitVec 1) (iv : BitVec 1) : InTable.Statement (.flddLong b t sr im10a m a iv) :=
  of_index 210 _ rfl (unmasked iv (masked (unmasked a (unmasked m (unmasked im10a (unmasked sr (unmasked t (unmasked b (rfl : 0x14#6 &&& 0x3F#6 = 0x14#6))))))) (rfl : 0x1#1 &&& 0x1#1 = 0x1#1))) rfl rfl (congr (congr (congr (congr (congr (congr (congrArg Instr.flddLong (high 21 20 _ iv (high 20 19 _ (0x1#1) (high 19 18 _ a (high 18 17 _ m (high 17 7 _ im10a (high 7 5 _ sr (high 5 0 _ t (low (0x14#6) b) rfl) rfl) rfl) rfl) rfl) rfl) rfl)) (high 16 15 _ iv (high 15 14 _ (0x1#1) (high 14 13 _ a (high 13 12 _ m (high 12 2 _ im10a (high 2 0 _ sr (low (0x14#6 ++ b) t) rfl) rfl) rfl) rfl) rfl) rfl)) (high 14 13 _ iv (high 13 12 _ (0x1#1) (high 12 11 _ a (high 11 10 _ m (high 10 0 _ im10a (low (0x14#6 ++ b ++ t) sr) rfl) rfl) rfl) rfl) rfl)) (high 4 3 _ iv (high 3 2 _ (0x1#1) (high 2 1 _ a (high 1 0 _ m (low (0x14#6 ++ b ++ t ++ sr) im10a) rfl) rfl) rfl) rfl)) (high 3 2 _ iv (high 2 1 _ (0x1#1) (high 1 0 _ a (low (0x14#6 ++ b ++ t ++ sr ++ im10a) m) rfl) rfl) rfl)) (high 2 1 _ iv (high 1 0 _ (0x1#1) (low (0x14#6 ++ b ++ t ++ sr ++ im10a ++ m) a) rfl) rfl)) (low (0x14#6 ++ b ++ t ++ sr ++ im10a ++ m ++ a ++ 0x1#1) iv))

theorem InTable.flddShort (b : BitVec 5) (im5 : BitVec 5) (sr : BitVec 2) (a : BitVec 1) (cc : BitVec 2) (m : BitVec 1) (t : BitVec 5) : InTable.Statement (.flddShort b im5 sr a cc m t) :=
  of_index 211 _ rfl (unmasked t (unmasked m (masked (unmasked cc (masked (unmasked a (unmasked sr (unmasked im5 (unmasked b (rfl : 0xB#6 &&& 0x3F#6 = 0xB#6))))) (rfl : 0x1#1 &&& 0x1#1 = 0x1#1))) (rfl : 0x0#4 &&& 0xF#4 = 0x0#4)))) rfl rfl (congr (congr (congr (congr (congr (congr (congrArg Instr.flddShort (high 21 16 _ t (high 16 15 _ m (high 15 11 _ (0x0#4) (high 11 9 _ cc (high 9 8 _ (0x1#1) (high 8 7 _ a (high 7 5 _ sr (high 5 0 _ im5 (low (0xB#6) b) rfl) rfl) rfl) rfl) rfl) rfl) rfl) rfl)) (high 16 11 _ t (high 11 10 _ m (high 10 6 _ (0x0#4) (high 6 4 _ cc (high 4 3 _ (0x1#1) (high 3 2 _ a (high 2 0 _ sr (low (0xB#6 ++ b) im5) rfl) rfl) rfl) rfl) rfl) rfl) rfl)) (high 14 9 _ t (high 9 8 _ m (high 8 4 _ (0x0#4) (high 4 2 _ cc (high 2 1 _ (0x1#1) (high 1 0 _ a (low (0xB#6 ++ b ++ im5) sr) rfl) rfl) rfl) rfl) rfl) rfl)) (high 13 8 _ t (high 8 7 _ m (high 7 3 _ (0x0#4) (high 3 1 _ cc (high 1 0 _ (0x1#1) (low (0xB#6 ++ b ++ im5 ++ sr) a) rfl) rfl) rfl) rfl) rfl)) (high 10 5 _ t (high 5 4 _ m (high 4 0 _ (0x0#4) (low (0xB#6 ++ b ++ im5 ++ sr ++ a ++ 0x1#1) cc) rfl) rfl) rfl)) (high 5 0 _ t (low (0xB#6 ++ b ++ im5 ++ sr ++ a ++ 0x1#1 ++ cc ++ 0x0#4) m) rfl)) (low (0xB#6 ++ b ++ im5 ++ sr ++ a ++ 0x1#1 ++ cc ++ 0x0#4 ++ m) t))

theorem InTable.flddIndexed (b : BitVec 5) (x : BitVec 5) (sr : BitVec 2) (u : BitVec 1) (cc : BitVec 2) (m : BitVec 1) (t : BitVec 5) : InTable.Statement (.flddIndexed b x sr u cc m t) :=
  of_index 212 _ rfl (unmasked t (unmasked m (masked (unmasked cc (masked (unmasked u (unmasked sr (unmasked x (unmasked b (rfl : 0xB#6 &&& 0x3F#6 = 0xB#6))))) (rfl : 0x0#1 &&& 0x1#1 = 0x0#1))) (rfl : 0x0#4 &&& 0xF#4 = 0x0#4)))) rfl rfl (congr (congr (congr (congr (congr (congr (congrArg Instr.flddIndexed (high 21 16 _ t (high 16 15 _ m (high 15 11 _ (0x0#4) (high 11 9 _ cc (high 9 8 _ (0x0#1) (high 8 7 _ u (high 7 5 _ sr (high 5 0 _ x (low (0xB#6) b) rfl) rfl) rfl) rfl) rfl) rfl) rfl) rfl)) (high 16 11 _ t (high 11 10 _ m (high 10 6 _ (0x0#4) (high 6 4 _ cc (high 4 3 _ (0x0#1) (high 3 2 _ u (high 2 0 _ sr (low (0xB#6 ++ b) x) rfl) rfl) rfl) rfl) rfl) rfl) rfl)) (high 14 9 _ t (high 9 8 _ m (high 8 4 _ (0x0#4) (high 4 2 _ cc (high 2 1 _ (0x0#1) (high 1 0 _ u (low (0xB#6 ++ b ++ x) sr) rfl) rfl) rfl) rfl) rfl) rfl)) (high 13 8 _ t (high 8 7 _ m (high 7 3 _ (0x0#4) (high 3 1 _ cc (high 1 0 _ (0x0#1) (low (0xB#6 ++ b ++ x ++ sr) u) rfl) rfl) rfl) rfl) rfl)) (high 10 5 _ t (high 5 4 _ m (high 4 0 _ (0x0#4) (low (0xB#6 ++ b ++ x ++ sr ++ u ++ 0x0#1) cc) rfl) rfl) rfl)) (high 5 0 _ t (low (0xB#6 ++ b ++ x ++ sr ++ u ++ 0x0#1 ++ cc ++ 0x0#4) m) rfl)) (low (0xB#6 ++ b ++ x ++ sr ++ u ++ 0x0#1 ++ cc ++ 0x0#4 ++ m) t))

theorem InTable.fstdLong (b : BitVec 5) (r : BitVec 5) (sr : BitVec 2) (im10a : BitVec 10) (m : BitVec 1) (a : BitVec 1) (iv : BitVec 1) : InTable.Statement (.fstdLong b r sr im10a m a iv) :=
  of_index 213 _ rfl (unmasked iv (masked (unmasked a (unmasked m (unmasked im10a (unmasked sr (unmasked r (unmasked b (rfl : 0x1C#6 &&& 0x3F#6 = 0x1C#6))))))) (rfl : 0x1#1 &&& 0x1#1 = 0x1#1))) rfl rfl (congr (congr (congr (congr (congr (congr (congrArg Instr.fstdLong (high 21 20 _ iv (high 20 19 _ (0x1#1) (high 19 18 _ a (high 18 17 _ m (high 17 7 _ im10a (high 7 5 _ sr (high 5 0 _ r (low (0x1C#6) b) rfl) rfl) rfl) rfl) rfl) rfl) rfl)) (high 16 15 _ iv (high 15 14 _ (0x1#1) (high 14 13 _ a (high 13 12 _ m (high 12 2 _ im10a (high 2 0 _ sr (low (0x1C#6 ++ b) r) rfl) rfl) rfl) rfl) rfl) rfl)) (high 14 13 _ iv (high 13 12 _ (0x1#1) (high 12 11 _ a (high 11 10 _ m (high 10 0 _ im10a (low (0x1C#6 ++ b ++ r) sr) rfl) rfl) rfl) rfl) rfl)) (high 4 3 _ iv (high 3 2 _ (0x1#1) (high 2 1 _ a (high 1 0 _ m (low (0x1C#6 ++ b ++ r ++ sr) im10a) rfl) rfl) rfl) rfl)) (high 3 2 _ iv (high 2 1 _ (0x1#1) (high 1 0 _ a (low (0x1C#6 ++ b ++ r ++ sr ++ im10a) m) rfl) rfl) rfl)) (high 2 1 _ iv (high 1 0 _ (0x1#1) (low (0x1C#6 ++ b ++ r ++ sr ++ im10a ++ m) a) rfl) rfl)) (low (0x1C#6 ++ b ++ r ++ sr ++ im10a ++ m ++ a ++ 0x1#1) iv))

theorem InTable.fstdShort (b : BitVec 5) (im5 : BitVec 5) (sr : BitVec 2) (a : BitVec 1) (cc : BitVec 2) (m : BitVec 1) (r : BitVec 5) : InTable.Statement (.fstdShort b im5 sr a cc m r) :=
  of_index 214 _ rfl (unmasked r (unmasked m (masked (unmasked cc (masked (unmasked a (unmasked sr (unmasked im5 (unmasked b (rfl : 0xB#6 &&& 0x3F#6 = 0xB#6))))) (rfl : 0x1#1 &&& 0x1#1 = 0x1#1))) (rfl : 0x8#4 &&& 0xF#4 = 0x8#4)))) rfl rfl (congr (congr (congr (congr (congr (congr (congrArg Instr.fstdShort (high 21 16 _ r (high 16 15 _ m (high 15 11 _ (0x8#4) (high 11 9 _ cc (high 9 8 _ (0x1#1) (high 8 7 _ a (high 7 5 _ sr (high 5 0 _ im5 (low (0xB#6) b) rfl) rfl) rfl) rfl) rfl) rfl) rfl) rfl)) (high 16 11 _ r (high 11 10 _ m (high 10 6 _ (0x8#4) (high 6 4 _ cc (high 4 3 _ (0x1#1) (high 3 2 _ a (high 2 0 _ sr (low (0xB#6 ++ b) im5) rfl) rfl) rfl) rfl) rfl) rfl) rfl)) (high 14 9 _ r (high 9 8 _ m (high 8 4 _ (0x8#4) (high 4 2 _ cc (high 2 1 _ (0x1#1) (high 1 0 _ a (low (0xB#6 ++ b ++ im5) sr) rfl) rfl) rfl) rfl) rfl) rfl)) (high 13 8 _ r (high 8 7 _ m (high 7 3 _ (0x8#4) (high 3 1 _ cc (high 1 0 _ (0x1#1) (low (0xB#6 ++ b ++ im5 ++ sr) a) rfl) rfl) rfl) rfl) rfl)) (high 10 5 _ r (high 5 4 _ m (high 4 0 _ (0x8#4) (low (0xB#6 ++ b ++ im5 ++ sr ++ a ++ 0x1#1) cc) rfl) rfl) rfl)) (high 5 0 _ r (low (0xB#6 ++ b ++ im5 ++ sr ++ a ++ 0x1#1 ++ cc ++ 0x8#4) m) rfl)) (low (0xB#6 ++ b ++ im5 ++ sr ++ a ++ 0x1#1 ++ cc ++ 0x8#4 ++ m) r))

theorem InTable.fstdIndexed (b : BitVec 5) (x : BitVec 5) (sr : BitVec 2) (u : BitVec 1) (cc : BitVec 2) (m : BitVec 1) (r : BitVec 5) : InTable.Statement (.fstdIndexed b x sr u cc m r) :=
  of_index 215 _ rfl (unmasked r (unmasked m (masked (unmasked cc (masked (unmasked u (unmasked sr (unmasked x (unmasked b (rfl : 0xB#6 &&& 0x3F#6 = 0xB#6))))) (rfl : 0x0#1 &&& 0x1#1 = 0x0#1))) (rfl : 0x8#4 &&& 0xF#4 = 0x8#4)))) rfl rfl (congr (congr (congr (congr (congr (congr (congrArg Instr.fstdIndexed (high 21 16 _ r (high 16 15 _ m (high 15 11 _ (0x8#4) (high 11 9 _ cc (high 9 8 _ (0x0#1) (high 8 7 _ u (high 7 5 _ sr (high 5 0 _ x (low (0xB#6) b) rfl) rfl) rfl) rfl) rfl) rfl) rfl) rfl)) (high 16 11 _ r (high 11 10 _ m (high 10 6 _ (0x8#4) (high 6 4 _ cc (high 4 3 _ (0x0#1) (high 3 2 _ u (high 2 0 _ sr (low (0xB#6 ++ b) x) rfl) rfl) rfl) rfl) rfl) rfl) rfl)) (high 14 9 _ r (high 9 8 _ m (high 8 4 _ (0x8#4) (high 4 2 _ cc (high 2 1 _ (0x0#1) (high 1 0 _ u (low (0xB#6 ++ b ++ x) sr) rfl) rfl) rfl) rfl) rfl) rfl)) (high 13 8 _ r (high 8 7 _ m (high 7 3 _ (0x8#4) (high 3 1 _ cc (high 1 0 _ (0x0#1) (low (0xB#6 ++ b ++ x ++ sr) u) rfl) rfl) rfl) rfl) rfl)) (high 10 5 _ r (high 5 4 _ m (high 4 0 _ (0x8#4) (low (0xB#6 ++ b ++ x ++ sr ++ u ++ 0x0#1) cc) rfl) rfl) rfl)) (high 5 0 _ r (low (0xB#6 ++ b ++ x ++ sr ++ u ++ 0x0#1 ++ cc ++ 0x8#4) m) rfl)) (low (0xB#6 ++ b ++ x ++ sr ++ u ++ 0x0#1 ++ cc ++ 0x8#4 ++ m) r))

theorem InTable.fcpy (r : BitVec 5) (fmt : BitVec 2) (t : BitVec 5) : InTable.Statement (.fcpy r fmt t) :=
  of_index 217 _ rfl (unmasked t (masked (unmasked fmt (masked (unmasked r (rfl : 0xC#6 &&& 0x3F#6 = 0xC#6)) (rfl : 0x2#8 &&& 0xFF#8 = 0x2#8))) (rfl : 0x0#6 &&& 0x3F#6 = 0x0#6))) rfl rfl (congr (congr (congrArg Instr.fcpy (high 21 16 _ t (high 16 10 _ (0x0#6) (high 10 8 _ fmt (high 8 0 _ (0x2#8) (low (0xC#6) r) rfl) rfl) rfl) rfl)) (high 11 6 _ t (high 6 0 _ (0x0#6) (low (0xC#6 ++ r ++ 0x2#8) fmt) rfl) rfl)) (low (0xC#6 ++ r ++ 0x2#8 ++ fmt ++ 0x0#6) t))

theorem InTable.fcpyE (r : BitVec 5) (f : BitVec 1) (rx : BitVec 1) (tx : BitVec 1) (t : BitVec 5) : InTable.Statement (.fcpyE r f rx tx t) :=
  of_index 218 _ rfl (unmasked t (masked (unmasked tx (unmasked rx (masked (unmasked f (masked (unmasked r (rfl : 0xE#6 &&& 0x3F#6 = 0xE#6)) (rfl : 0x4#9 &&& 0x1FF#9 = 0x4#9))) (rfl : 0x0#3 &&& 0x7#3 = 0x0#3)))) (rfl : 0x0#1 &&& 0x1#1 = 0x0#1))) rfl rfl (congr (congr (congr (congr (congrArg Instr.fcpyE (high 21 16 _ t (high 16 15 _ (0x0#1) (high 15 14 _ tx (high 14 13 _ rx (high 13 10 _ (0x0#3) (high 10 9 _ f (high 9 0 _ (0x4#9) (low (0xE#6) r) rfl) rfl) rfl) rfl) rfl) rfl) rfl)) (high 11 6 _ t (high 6 5 _ (0x0#1) (high 5 4 _ tx (high 4 3 _ rx (high 3 0 _ (0x0#3) (low (0xE#6 ++ r ++ 0x4#9) f) rfl) rfl) rfl) rfl) rfl)) (high 7 2 _ t (high 2 1 _ (0x0#1) (high 1 0 _ tx (low (0xE#6 ++ r ++ 0x4#9 ++ f ++ 0x0#3) rx) rfl) rfl) rfl)) (high 6 1 _ t (high 1 0 _ (0x0#1) (low (0xE#6 ++ r ++ 0x4#9 ++ f ++ 0x0#3 ++ rx) tx) rfl) rfl)) (low (0xE#6 ++ r ++ 0x4#9 ++ f ++ 0x0#3 ++ rx ++ tx ++ 0x0#1) t))

theorem InTable.fabs (r : BitVec 5) (fmt : BitVec 2) (t : BitVec 5) : InTable.Statement (.fabs r fmt t) :=
  of_index 219 _ rfl (unmasked t (masked (unmasked fmt (masked (unmasked r (rfl : 0xC#6 &&& 0x3F#6 = 0xC#6)) (rfl : 0x3#8 &&& 0xFF#8 = 0x3#8))) (rfl : 0x0#6 &&& 0x3F#6 = 0x0#6))) rfl rfl (congr (congr (congrArg Instr.fabs (high 21 16 _ t (high 16 10 _ (0x0#6) (high 10 8 _ fmt (high 8 0 _ (0x3#8) (low (0xC#6) r) rfl) rfl) rfl) rfl)) (high 11 6 _ t (high 6 0 _ (0x0#6) (low (0xC#6 ++ r ++ 0x3#8) fmt) rfl) rfl)) (low (0xC#6 ++ r ++ 0x3#8 ++ fmt ++ 0x0#6) t))

theorem InTable.fabsE (r : BitVec 5) (f : BitVec 1) (rx : BitVec 1) (tx : BitVec 1) (t : BitVec 5) : InTable.Statement (.fabsE r f rx tx t) :=
  of_index 220 _ rfl (unmasked t (masked (unmasked tx (unmasked rx (masked (unmasked f (masked (unmasked r (rfl : 0xE#6 &&& 0x3F#6 = 0xE#6)) (rfl : 0x6#9 &&& 0x1FF#9 = 0x6#9))) (rfl : 0x0#3 &&& 0x7#3 = 0x0#3)))) (rfl : 0x0#1 &&& 0x1#1 = 0x0#1))) rfl rfl (congr (congr (congr (congr (congrArg Instr.fabsE (high 21 16 _ t (high 16 15 _ (0x0#1) (high 15 14 _ tx (high 14 13 _ rx (high 13 10 _ (0x0#3) (high 10 9 _ f (high 9 0 _ (0x6#9) (low (0xE#6) r) rfl) rfl) rfl) rfl) rfl) rfl) rfl)) (high 11 6 _ t (high 6 5 _ (0x0#1) (high 5 4 _ tx (high 4 3 _ rx (high 3 0 _ (0x0#3) (low (0xE#6 ++ r ++ 0x6#9) f) rfl) rfl) rfl) rfl) rfl)) (high 7 2 _ t (high 2 1 _ (0x0#1) (high 1 0 _ tx (low (0xE#6 ++ r ++ 0x6#9 ++ f ++ 0x0#3) rx) rfl) rfl) rfl)) (high 6 1 _ t (high 1 0 _ (0x0#1) (low (0xE#6 ++ r ++ 0x6#9 ++ f ++ 0x0#3 ++ rx) tx) rfl) rfl)) (low (0xE#6 ++ r ++ 0x6#9 ++ f ++ 0x0#3 ++ rx ++ tx ++ 0x0#1) t))

theorem InTable.fsqrt (r : BitVec 5) (fmt : BitVec 2) (t : BitVec 5) : InTable.Statement (.fsqrt r fmt t) :=
  of_index 221 _ rfl (unmasked t (masked (unmasked fmt (masked (unmasked r (rfl : 0xC#6 &&& 0x3F#6 = 0xC#6)) (rfl : 0x4#8 &&& 0xFF#8 = 0x4#8))) (rfl : 0x0#6 &&& 0x3F#6 = 0x0#6))) rfl rfl (congr (congr (congrArg Instr.fsqrt (high 21 16 _ t (high 16 10 _ (0x0#6) (high 10 8 _ fmt (high 8 0 _ (0x4#8) (low (0xC#6) r) rfl) rfl) rfl) rfl)) (high 11 6 _ t (high 6 0 _ (0x0#6) (low (0xC#6 ++ r ++ 0x4#8) fmt) rfl) rfl)) (low (0xC#6 ++ r ++ 0x4#8 ++ fmt ++ 0x0#6) t))

theorem InTable.fsqrtE (r : BitVec 5) (f : BitVec 1) (rx : BitVec 1) (tx : BitVec 1) (t : BitVec 5) : InTable.Statement (.fsqrtE r f rx tx t) :=
  of_index 222 _ rfl (unmasked t (masked (unmasked tx (unmasked rx (masked (unmasked f (masked (unmasked r (rfl : 0xE#6 &&& 0x3F#6 = 0xE#6)) (rfl : 0x8#9 &&& 0x1FF#9 = 0x8#9))) (rfl : 0x0#3 &&& 0x7#3 = 0x0#3)))) (rfl : 0x0#1 &&& 0x1#1 = 0x0#1))) rfl rfl (congr (congr (congr (congr (congrArg Instr.fsqrtE (high 21 16 _ t (high 16 15 _ (0x0#1) (high 15 14 _ tx (high 14 13 _ rx (high 13 10 _ (0x0#3) (high 10 9 _ f (high 9 0 _ (0x8#9) (low (0xE#6) r) rfl) rfl) rfl) rfl) rfl) rfl) rfl)) (high 11 6 _ t (high 6 5 _ (0x0#1) (high 5 4 _ tx (high 4 3 _ rx (high 3 0 _ (0x0#3) (low (0xE#6 ++ r ++ 0x8#9) f) rfl) rfl) rfl) rfl) rfl)) (high 7 2 _ t (high 2 1 _ (0x0#1) (high 1 0 _ tx (low (0xE#6 ++ r ++ 0x8#9 ++ f ++ 0x0#3) rx) rfl) rfl) rfl)) (high 6 1 _ t (high 1 0 _ (0x0#1) (low (0xE#6 ++ r ++ 0x8#9 ++ f ++ 0x0#3 ++ rx) tx) rfl) rfl)) (low (0xE#6 ++ r ++ 0x8#9 ++ f ++ 0x0#3 ++ rx ++ tx ++ 0x0#1) t))

theorem InTable.frnd (r : BitVec 5) (fmt : BitVec 2) (t : BitVec 5) : InTable.Statement (.frnd r fmt t) :=
  of_index 223 _ rfl (unmasked t (masked (unmasked fmt (masked (unmasked r (rfl : 0xC#6 &&& 0x3F#6 = 0xC#6)) (rfl : 0x5#8 &&& 0xFF#8 = 0x5#8))) (rfl : 0x0#6 &&& 0x3F#6 = 0x0#6))) rfl rfl (congr (congr (congrArg Instr.frnd (high 21 16 _ t (high 16 10 _ (0x0#6) (high 10 8 _ fmt (high 8 0 _ (0x5#8) (low (0xC#6) r) rfl) rfl) rfl) rfl)) (high 11 6 _ t (high 6 0 _ (0x0#6) (low (0xC#6 ++ r ++ 0x5#8) fmt) rfl) rfl)) (low (0xC#6 ++ r ++ 0x5#8 ++ fmt ++ 0x0#6) t))

theorem InTable.frndE (r : BitVec 5) (f : BitVec 1) (rx : BitVec 1) (tx : BitVec 1) (t : BitVec 5) : InTable.Statement (.frndE r f rx tx t) :=
  of_index 224 _ rfl (unmasked t (masked (unmasked tx (unmasked rx (masked (unmasked f (masked (unmasked r (rfl : 0xE#6 &&& 0x3F#6 = 0xE#6)) (rfl : 0xA#9 &&& 0x1FF#9 = 0xA#9))) (rfl : 0x0#3 &&& 0x7#3 = 0x0#3)))) (rfl : 0x0#1 &&& 0x1#1 = 0x0#1))) rfl rfl (congr (congr (congr (congr (congrArg Instr.frndE (high 21 16 _ t (high 16 15 _ (0x0#1) (high 15 14 _ tx (high 14 13 _ rx (high 13 10 _ (0x0#3) (high 10 9 _ f (high 9 0 _ (0xA#9) (low (0xE#6) r) rfl) rfl) rfl) rfl) rfl) rfl) rfl)) (high 11 6 _ t (high 6 5 _ (0x0#1) (high 5 4 _ tx (high 4 3 _ rx (high 3 0 _ (0x0#3) (low (0xE#6 ++ r ++ 0xA#9) f) rfl) rfl) rfl) rfl) rfl)) (high 7 2 _ t (high 2 1 _ (0x0#1) (high 1 0 _ tx (low (0xE#6 ++ r ++ 0xA#9 ++ f ++ 0x0#3) rx) rfl) rfl) rfl)) (high 6 1 _ t (high 1 0 _ (0x0#1) (low (0xE#6 ++ r ++ 0xA#9 ++ f ++ 0x0#3 ++ rx) tx) rfl) rfl)) (low (0xE#6 ++ r ++ 0xA#9 ++ f ++ 0x0#3 ++ rx ++ tx ++ 0x0#1) t))

theorem InTable.fneg (r : BitVec 5) (fmt : BitVec 2) (t : BitVec 5) : InTable.Statement (.fneg r fmt t) :=
  of_index 225 _ rfl (unmasked t (masked (unmasked fmt (masked (unmasked r (rfl : 0xC#6 &&& 0x3F#6 = 0xC#6)) (rfl : 0x6#8 &&& 0xFF#8 = 0x6#8))) (rfl : 0x0#6 &&& 0x3F#6 = 0x0#6))) rfl rfl (congr (congr (congrArg Instr.fneg (high 21 16 _ t (high 16 10 _ (0x0#6) (high 10 8 _ fmt (high 8 0 _ (0x6#8) (low (0xC#6) r) rfl) rfl) rfl) rfl)) (high 11 6 _ t (high 6 0 _ (0x0#6) (low (0xC#6 ++ r ++ 0x6#8) fmt) rfl) rfl)) (low (0xC#6 ++ r ++ 0x6#8 ++ fmt ++ 0x0#6) t))

theorem InTable.fnegE (r : BitVec 5) (f : BitVec 1) (rx : BitVec 1) (tx : BitVec 1) (t : BitVec 5) : InTable.Statement (.fnegE r f rx tx t) :=
  of_index 226 _ rfl (unmasked t (masked (unmasked tx (unmasked rx (masked (unmasked f (masked (unmasked r (rfl : 0xE#6 &&& 0x3F#6 = 0xE#6)) (rfl : 0xC#9 &&& 0x1FF#9 = 0xC#9))) (rfl : 0x0#3 &&& 0x7#3 = 0x0#3)))) (rfl : 0x0#1 &&& 0x1#1 = 0x0#1))) rfl rfl (congr (congr (congr (congr (congrArg Instr.fnegE (high 21 16 _ t (high 16 15 _ (0x0#1) (high 15 14 _ tx (high 14 13 _ rx (high 13 10 _ (0x0#3) (high 10 9 _ f (high 9 0 _ (0xC#9) (low (0xE#6) r) rfl) rfl) rfl) rfl) rfl) rfl) rfl)) (high 11 6 _ t (high 6 5 _ (0x0#1) (high 5 4 _ tx (high 4 3 _ rx (high 3 0 _ (0x0#3) (low (0xE#6 ++ r ++ 0xC#9) f) rfl) rfl) rfl) rfl) rfl)) (high 7 2 _ t (high 2 1 _ (0x0#1) (high 1 0 _ tx (low (0xE#6 ++ r ++ 0xC#9 ++ f ++ 0x0#3) rx) rfl) rfl) rfl)) (high 6 1 _ t (high 1 0 _ (0x0#1) (low (0xE#6 ++ r ++ 0xC#9 ++ f ++ 0x0#3 ++ rx) tx) rfl) rfl)) (low (0xE#6 ++ r ++ 0xC#9 ++ f ++ 0x0#3 ++ rx ++ tx ++ 0x0#1) t))

theorem InTable.fnegabs (r : BitVec 5) (fmt : BitVec 2) (t : BitVec 5) : InTable.Statement (.fnegabs r fmt t) :=
  of_index 227 _ rfl (unmasked t (masked (unmasked fmt (masked (unmasked r (rfl : 0xC#6 &&& 0x3F#6 = 0xC#6)) (rfl : 0x7#8 &&& 0xFF#8 = 0x7#8))) (rfl : 0x0#6 &&& 0x3F#6 = 0x0#6))) rfl rfl (congr (congr (congrArg Instr.fnegabs (high 21 16 _ t (high 16 10 _ (0x0#6) (high 10 8 _ fmt (high 8 0 _ (0x7#8) (low (0xC#6) r) rfl) rfl) rfl) rfl)) (high 11 6 _ t (high 6 0 _ (0x0#6) (low (0xC#6 ++ r ++ 0x7#8) fmt) rfl) rfl)) (low (0xC#6 ++ r ++ 0x7#8 ++ fmt ++ 0x0#6) t))

theorem InTable.fnegabsE (r : BitVec 5) (f : BitVec 1) (rx : BitVec 1) (tx : BitVec 1) (t : BitVec 5) : InTable.Statement (.fnegabsE r f rx tx t) :=
  of_index 228 _ rfl (unmasked t (masked (unmasked tx (unmasked rx (masked (unmasked f (masked (unmasked r (rfl : 0xE#6 &&& 0x3F#6 = 0xE#6)) (rfl : 0xE#9 &&& 0x1FF#9 = 0xE#9))) (rfl : 0x0#3 &&& 0x7#3 = 0x0#3)))) (rfl : 0x0#1 &&& 0x1#1 = 0x0#1))) rfl rfl (congr (congr (congr (congr (congrArg Instr.fnegabsE (high 21 16 _ t (high 16 15 _ (0x0#1) (high 15 14 _ tx (high 14 13 _ rx (high 13 10 _ (0x0#3) (high 10 9 _ f (high 9 0 _ (0xE#9) (low (0xE#6) r) rfl) rfl) rfl) rfl) rfl) rfl) rfl)) (high 11 6 _ t (high 6 5 _ (0x0#1) (high 5 4 _ tx (high 4 3 _ rx (high 3 0 _ (0x0#3) (low (0xE#6 ++ r ++ 0xE#9) f) rfl) rfl) rfl) rfl) rfl)) (high 7 2 _ t (high 2 1 _ (0x0#1) (high 1 0 _ tx (low (0xE#6 ++ r ++ 0xE#9 ++ f ++ 0x0#3) rx) rfl) rfl) rfl)) (high 6 1 _ t (high 1 0 _ (0x0#1) (low (0xE#6 ++ r ++ 0xE#9 ++ f ++ 0x0#3 ++ rx) tx) rfl) rfl)) (low (0xE#6 ++ r ++ 0xE#9 ++ f ++ 0x0#3 ++ rx ++ tx ++ 0x0#1) t))

theorem InTable.fcnvFF (r : BitVec 5) (df : BitVec 2) (sf : BitVec 2) (t : BitVec 5) : InTable.Statement (.fcnvFF r df sf t) :=
  of_index 229 _ rfl (unmasked t (masked (unmasked sf (unmasked df (masked (unmasked r (rfl : 0xC#6 &&& 0x3F#6 = 0xC#6)) (rfl : 0x0#6 &&& 0x3F#6 = 0x0#6)))) (rfl : 0x10#6 &&& 0x3F#6 = 0x10#6))) rfl rfl (congr (congr (congr (congrArg Instr.fcnvFF (high 21 16 _ t (high 16 10 _ (0x10#6) (high 10 8 _ sf (high 8 6 _ df (high 6 0 _ (0x0#6) (low (0xC#6) r) rfl) rfl) rfl) rfl) rfl)) (high 13 8 _ t (high 8 2 _ (0x10#6) (high 2 0 _ sf (low (0xC#6 ++ r ++ 0x0#6) df) rfl) rfl) rfl)) (high 11 6 _ t (high 6 0 _ (0x10#6) (low (0xC#6 ++ r ++ 0x0#6 ++ df) sf) rfl) rfl)) (low (0xC#6 ++ r ++ 0x0#6 ++ df ++ sf ++ 0x10#6) t))

theorem InTable.fcnvFFE (r : BitVec 5) (df : BitVec 1) (sf : BitVec 1) (rx : BitVec 1) (tx : BitVec 1) (t : BitVec 5) : InTable.Statement (.fcnvFFE r df sf rx tx t) :=
  of_index 230 _ rfl (unmasked t (masked (unmasked tx (unmasked rx (masked (unmasked sf (masked (unmasked df (masked (unmasked r (rfl : 0xE#6 &&& 0x3F#6 = 0xE#6)) (rfl : 0x0#7 &&& 0x7F#7 = 0x0#7))) (rfl : 0x0#1 &&& 0x1#1 = 0x0#1))) (rfl : 0x2#3 &&& 0x7#3 = 0x2#3)))) (rfl : 0x0#1 &&& 0x1#1 = 0x0#1))) rfl rfl (congr (congr (congr (congr (congr (congrArg Instr.fcnvFFE (high 21 16 _ t (high 16 15 _ (0x0#1) (high 15 14 _ tx (high 14 13 _ rx (high 13 10 _ (0x2#3) (high 10 9 _ sf (high 9 8 _ (0x0#1) (high 8 7 _ df (high 7 0 _ (0x0#7) (low (0xE#6) r) rfl) rfl) rfl) rfl) rfl) rfl) rfl) rfl) rfl)) (high 13 8 _ t (high 8 7 _ (0x0#1) (high 7 6 _ tx (high 6 5 _ rx (high 5 2 _ (0x2#3) (high 2 1 _ sf (high 1 0 _ (0x0#1) (low (0xE#6 ++ r ++ 0x0#7) df) rfl) rfl) rfl) rfl) rfl) rfl) rfl)) (high 11 6 _ t (high 6 5 _ (0x0#1) (high 5 4 _ tx (high 4 3 _ rx (high 3 0 _ (0x2#3) (low (0xE#6 ++ r ++ 0x0#7 ++ df ++ 0x0#1) sf) rfl) rfl) rfl) rfl) rfl)) (high 7 2 _ t (high 2 1 _ (0x0#1) (high 1 0 _ tx (low (0xE#6 ++ r ++ 0x0#7 ++ df ++ 0x0#1 ++ sf ++ 0x2#3) rx) rfl) rfl) rfl)) (high 6 1 _ t (high 1 0 _ (0x0#1) (low (0xE#6 ++ r ++ 0x0#7 ++ df ++ 0x0#1 ++ sf ++ 0x2#3 ++ rx) tx) rfl) rfl)) (low (0xE#6 ++ r ++ 0x0#7 ++ df ++ 0x0#1 ++ sf ++ 0x2#3 ++ rx ++ tx ++ 0x0#1) t))

theorem InTable.fcnvXF (r : BitVec 5) (df : BitVec 2) (sf : BitVec 2) (t : BitVec 5) : InTable.Statement (.fcnvXF r df sf t) :=
  of_index 231 _ rfl (unmasked t (masked (unmasked sf (unmasked df (masked (unmasked r (rfl : 0xC#6 &&& 0x3F#6 = 0xC#6)) (rfl : 0x1#6 &&& 0x3F#6 = 0x1#6)))) (rfl : 0x10#6 &&& 0x3F#6 = 0x10#6))) rfl rfl (congr (congr (congr (congrArg Instr.fcnvXF (high 21 16 _ t (high 16 10 _ (0x10#6) (high 10 8 _ sf (high 8 6 _ df (high 6 0 _ (0x1#6) (low (0xC#6) r) rfl) rfl) rfl) rfl) rfl)) (high 13 8 _ t (high 8 2 _ (0x10#6) (high 2 0 _ sf (low (0xC#6 ++ r ++ 0x1#6) df) rfl) rfl) rfl)) (high 11 6 _ t (high 6 0 _ (0x10#6) (low (0xC#6 ++ r ++ 0x1#6 ++ df) sf) rfl) rfl)) (low (0xC#6 ++ r ++ 0x1#6 ++ df ++ sf ++ 0x10#6) t))

theorem InTable.fcnvXFE (r : BitVec 5) (df : BitVec 1) (sf : BitVec 1) (rx : BitVec 1) (tx : BitVec 1) (t : BitVec 5) : InTable.Statement (.fcnvXFE r df sf rx tx t) :=
  of_index 232 _ rfl (unmasked t (masked (unmasked tx (unmasked rx (masked (unmasked sf (masked (unmasked df (masked (unmasked r (rfl : 0xE#6 &&& 0x3F#6 = 0xE#6)) (rfl : 0x2#7 &&& 0x7F#7 = 0x2#7))) (rfl : 0x0#1 &&& 0x1#1 = 0x0#1))) (rfl : 0x2#3 &&& 0x7#3 = 0x2#3)))) (rfl : 0x0#1 &&& 0x1#1 = 0x0#1))) rfl rfl (congr (congr (congr (congr (congr (congrArg Instr.fcnvXFE (high 21 16 _ t (high 16 15 _ (0x0#1) (high 15 14 _ tx (high 14 13 _ rx (high 13 10 _ (0x2#3) (high 10 9 _ sf (high 9 8 _ (0x0#1) (high 8 7 _ df (high 7 0 _ (0x2#7) (low (0xE#6) r) rfl) rfl) rfl) rfl) rfl) rfl) rfl) rfl) rfl)) (high 13 8 _ t (high 8 7 _ (0x0#1) (high 7 6 _ tx (high 6 5 _ rx (high 5 2 _ (0x2#3) (high 2 1 _ sf (high 1 0 _ (0x0#1) (low (0xE#6 ++ r ++ 0x2#7) df) rfl) rfl) rfl) rfl) rfl) rfl) rfl)) (high 11 6 _ t (high 6 5 _ (0x0#1) (high 5 4 _ tx (high 4 3 _ rx (high 3 0 _ (0x2#3) (low (0xE#6 ++ r ++ 0x2#7 ++ df ++ 0x0#1) sf) rfl) rfl) rfl) rfl) rfl)) (high 7 2 _ t (high 2 1 _ (0x0#1) (high 1 0 _ tx (low (0xE#6 ++ r ++ 0x2#7 ++ df ++ 0x0#1 ++ sf ++ 0x2#3) rx) rfl) rfl) rfl)) (high 6 1 _ t (high 1 0 _ (0x0#1) (low (0xE#6 ++ r ++ 0x2#7 ++ df ++ 0x0#1 ++ sf ++ 0x2#3 ++ rx) tx) rfl) rfl)) (low (0xE#6 ++ r ++ 0x2#7 ++ df ++ 0x0#1 ++ sf ++ 0x2#3 ++ rx ++ tx ++ 0x0#1) t))

theorem InTable.fcnvFX (r : BitVec 5) (df : BitVec 2) (sf : BitVec 2) (t : BitVec 5) : InTable.Statement (.fcnvFX r df sf t) :=
  of_index 233 _ rfl (unmasked t (masked (unmasked sf (unmasked df (masked (unmasked r (rfl : 0xC#6 &&& 0x3F#6 = 0xC#6)) (rfl : 0x2#6 &&& 0x3F#6 = 0x2#6)))) (rfl : 0x10#6 &&& 0x3F#6 = 0x10#6))) rfl rfl (congr (congr (congr (congrArg Instr.fcnvFX (high 21 16 _ t (high 16 10 _ (0x10#6) (high 10 8 _ sf (high 8 6 _ df (high 6 0 _ (0x2#6) (low (0xC#6) r) rfl) rfl) rfl) rfl) rfl)) (high 13 8 _ t (high 8 2 _ (0x10#6) (high 2 0 _ sf (low (0xC#6 ++ r ++ 0x2#6) df) rfl) rfl) rfl)) (high 11 6 _ t (high 6 0 _ (0x10#6) (low (0xC#6 ++ r ++ 0x2#6 ++ df) sf) rfl) rfl)) (low (0xC#6 ++ r ++ 0x2#6 ++ df ++ sf ++ 0x10#6) t))

theorem InTable.fcnvFXE (r : BitVec 5) (df : BitVec 1) (sf : BitVec 1) (rx : BitVec 1) (tx : BitVec 1) (t : BitVec 5) : InTable.Statement (.fcnvFXE r df sf rx tx t) :=
  of_index 234 _ rfl (unmasked t (masked (unmasked tx (unmasked rx (masked (unmasked sf (masked (unmasked df (masked (unmasked r (rfl : 0xE#6 &&& 0x3F#6 = 0xE#6)) (rfl : 0x4#7 &&& 0x7F#7 = 0x4#7))) (rfl : 0x0#1 &&& 0x1#1 = 0x0#1))) (rfl : 0x2#3 &&& 0x7#3 = 0x2#3)))) (rfl : 0x0#1 &&& 0x1#1 = 0x0#1))) rfl rfl (congr (congr (congr (congr (congr (congrArg Instr.fcnvFXE (high 21 16 _ t (high 16 15 _ (0x0#1) (high 15 14 _ tx (high 14 13 _ rx (high 13 10 _ (0x2#3) (high 10 9 _ sf (high 9 8 _ (0x0#1) (high 8 7 _ df (high 7 0 _ (0x4#7) (low (0xE#6) r) rfl) rfl) rfl) rfl) rfl) rfl) rfl) rfl) rfl)) (high 13 8 _ t (high 8 7 _ (0x0#1) (high 7 6 _ tx (high 6 5 _ rx (high 5 2 _ (0x2#3) (high 2 1 _ sf (high 1 0 _ (0x0#1) (low (0xE#6 ++ r ++ 0x4#7) df) rfl) rfl) rfl) rfl) rfl) rfl) rfl)) (high 11 6 _ t (high 6 5 _ (0x0#1) (high 5 4 _ tx (high 4 3 _ rx (high 3 0 _ (0x2#3) (low (0xE#6 ++ r ++ 0x4#7 ++ df ++ 0x0#1) sf) rfl) rfl) rfl) rfl) rfl)) (high 7 2 _ t (high 2 1 _ (0x0#1) (high 1 0 _ tx (low (0xE#6 ++ r ++ 0x4#7 ++ df ++ 0x0#1 ++ sf ++ 0x2#3) rx) rfl) rfl) rfl)) (high 6 1 _ t (high 1 0 _ (0x0#1) (low (0xE#6 ++ r ++ 0x4#7 ++ df ++ 0x0#1 ++ sf ++ 0x2#3 ++ rx) tx) rfl) rfl)) (low (0xE#6 ++ r ++ 0x4#7 ++ df ++ 0x0#1 ++ sf ++ 0x2#3 ++ rx ++ tx ++ 0x0#1) t))

theorem InTable.fcnvFXT (r : BitVec 5) (df : BitVec 2) (sf : BitVec 2) (t : BitVec 5) : InTable.Statement (.fcnvFXT r df sf t) :=
  of_index 235 _ rfl (unmasked t (masked (unmasked sf (unmasked df (masked (unmasked r (rfl : 0xC#6 &&& 0x3F#6 = 0xC#6)) (rfl : 0x3#6 &&& 0x3F#6 = 0x3#6)))) (rfl : 0x10#6 &&& 0x3F#6 = 0x10#6))) rfl rfl (congr (congr (congr (congrArg Instr.fcnvFXT (high 21 16 _ t (high 16 10 _ (0x10#6) (high 10 8 _ sf (high 8 6 _ df (high 6 0 _ (0x3#6) (low (0xC#6) r) rfl) rfl) rfl) rfl) rfl)) (high 13 8 _ t (high 8 2 _ (0x10#6) (high 2 0 _ sf (low (0xC#6 ++ r ++ 0x3#6) df) rfl) rfl) rfl)) (high 11 6 _ t (high 6 0 _ (0x10#6) (low (0xC#6 ++ r ++ 0x3#6 ++ df) sf) rfl) rfl)) (low (0xC#6 ++ r ++ 0x3#6 ++ df ++ sf ++ 0x10#6) t))

theorem InTable.fcnvFXTE (r : BitVec 5) (df : BitVec 1) (sf : BitVec 1) (rx : BitVec 1) (tx : BitVec 1) (t : BitVec 5) : InTable.Statement (.fcnvFXTE r df sf rx tx t) :=
  of_index 236 _ rfl (unmasked t (masked (unmasked tx (unmasked rx (masked (unmasked sf (masked (unmasked df (masked (unmasked r (rfl : 0xE#6 &&& 0x3F#6 = 0xE#6)) (rfl : 0x6#7 &&& 0x7F#7 = 0x6#7))) (rfl : 0x0#1 &&& 0x1#1 = 0x0#1))) (rfl : 0x2#3 &&& 0x7#3 = 0x2#3)))) (rfl : 0x0#1 &&& 0x1#1 = 0x0#1))) rfl rfl (congr (congr (congr (congr (congr (congrArg Instr.fcnvFXTE (high 21 16 _ t (high 16 15 _ (0x0#1) (high 15 14 _ tx (high 14 13 _ rx (high 13 10 _ (0x2#3) (high 10 9 _ sf (high 9 8 _ (0x0#1) (high 8 7 _ df (high 7 0 _ (0x6#7) (low (0xE#6) r) rfl) rfl) rfl) rfl) rfl) rfl) rfl) rfl) rfl)) (high 13 8 _ t (high 8 7 _ (0x0#1) (high 7 6 _ tx (high 6 5 _ rx (high 5 2 _ (0x2#3) (high 2 1 _ sf (high 1 0 _ (0x0#1) (low (0xE#6 ++ r ++ 0x6#7) df) rfl) rfl) rfl) rfl) rfl) rfl) rfl)) (high 11 6 _ t (high 6 5 _ (0x0#1) (high 5 4 _ tx (high 4 3 _ rx (high 3 0 _ (0x2#3) (low (0xE#6 ++ r ++ 0x6#7 ++ df ++ 0x0#1) sf) rfl) rfl) rfl) rfl) rfl)) (high 7 2 _ t (high 2 1 _ (0x0#1) (high 1 0 _ tx (low (0xE#6 ++ r ++ 0x6#7 ++ df ++ 0x0#1 ++ sf ++ 0x2#3) rx) rfl) rfl) rfl)) (high 6 1 _ t (high 1 0 _ (0x0#1) (low (0xE#6 ++ r ++ 0x6#7 ++ df ++ 0x0#1 ++ sf ++ 0x2#3 ++ rx) tx) rfl) rfl)) (low (0xE#6 ++ r ++ 0x6#7 ++ df ++ 0x0#1 ++ sf ++ 0x2#3 ++ rx ++ tx ++ 0x0#1) t))

theorem InTable.fcnvUF (r : BitVec 5) (df : BitVec 2) (sf : BitVec 2) (t : BitVec 5) : InTable.Statement (.fcnvUF r df sf t) :=
  of_index 237 _ rfl (unmasked t (masked (unmasked sf (unmasked df (masked (unmasked r (rfl : 0xC#6 &&& 0x3F#6 = 0xC#6)) (rfl : 0x5#6 &&& 0x3F#6 = 0x5#6)))) (rfl : 0x10#6 &&& 0x3F#6 = 0x10#6))) rfl rfl (congr (congr (congr (congrArg Instr.fcnvUF (high 21 16 _ t (high 16 10 _ (0x10#6) (high 10 8 _ sf (high 8 6 _ df (high 6 0 _ (0x5#6) (low (0xC#6) r) rfl) rfl) rfl) rfl) rfl)) (high 13 8 _ t (high 8 2 _ (0x10#6) (high 2 0 _ sf (low (0xC#6 ++ r ++ 0x5#6) df) rfl) rfl) rfl)) (high 11 6 _ t (high 6 0 _ (0x10#6) (low (0xC#6 ++ r ++ 0x5#6 ++ df) sf) rfl) rfl)) (low (0xC#6 ++ r ++ 0x5#6 ++ df ++ sf ++ 0x10#6) t))

theorem InTable.fcnvUFE (r : BitVec 5) (df : BitVec 1) (sf : BitVec 1) (rx : BitVec 1) (tx : BitVec 1) (t : BitVec 5) : InTable.Statement (.fcnvUFE r df sf rx tx t) :=
  of_index 238 _ rfl (unmasked t (masked (unmasked tx (unmasked rx (masked (unmasked sf (masked (unmasked df (masked (unmasked r (rfl : 0xE#6 &&& 0x3F#6 = 0xE#6)) (rfl : 0xA#7 &&& 0x7F#7 = 0xA#7))) (rfl : 0x0#1 &&& 0x1#1 = 0x0#1))) (rfl : 0x2#3 &&& 0x7#3 = 0x2#3)))) (rfl : 0x0#1 &&& 0x1#1 = 0x0#1))) rfl rfl (congr (congr (congr (congr (congr (congrArg Instr.fcnvUFE (high 21 16 _ t (high 16 15 _ (0x0#1) (high 15 14 _ tx (high 14 13 _ rx (high 13 10 _ (0x2#3) (high 10 9 _ sf (high 9 8 _ (0x0#1) (high 8 7 _ df (high 7 0 _ (0xA#7) (low (0xE#6) r) rfl) rfl) rfl) rfl) rfl) rfl) rfl) rfl) rfl)) (high 13 8 _ t (high 8 7 _ (0x0#1) (high 7 6 _ tx (high 6 5 _ rx (high 5 2 _ (0x2#3) (high 2 1 _ sf (high 1 0 _ (0x0#1) (low (0xE#6 ++ r ++ 0xA#7) df) rfl) rfl) rfl) rfl) rfl) rfl) rfl)) (high 11 6 _ t (high 6 5 _ (0x0#1) (high 5 4 _ tx (high 4 3 _ rx (high 3 0 _ (0x2#3) (low (0xE#6 ++ r ++ 0xA#7 ++ df ++ 0x0#1) sf) rfl) rfl) rfl) rfl) rfl)) (high 7 2 _ t (high 2 1 _ (0x0#1) (high 1 0 _ tx (low (0xE#6 ++ r ++ 0xA#7 ++ df ++ 0x0#1 ++ sf ++ 0x2#3) rx) rfl) rfl) rfl)) (high 6 1 _ t (high 1 0 _ (0x0#1) (low (0xE#6 ++ r ++ 0xA#7 ++ df ++ 0x0#1 ++ sf ++ 0x2#3 ++ rx) tx) rfl) rfl)) (low (0xE#6 ++ r ++ 0xA#7 ++ df ++ 0x0#1 ++ sf ++ 0x2#3 ++ rx ++ tx ++ 0x0#1) t))

theorem InTable.fcnvFU (r : BitVec 5) (df : BitVec 2) (sf : BitVec 2) (t : BitVec 5) : InTable.Statement (.fcnvFU r df sf t) :=
  of_index 239 _ rfl (unmasked t (masked (unmasked sf (unmasked df (masked (unmasked r (rfl : 0xC#6 &&& 0x3F#6 = 0xC#6)) (rfl : 0x6#6 &&& 0x3F#6 = 0x6#6)))) (rfl : 0x10#6 &&& 0x3F#6 = 0x10#6))) rfl rfl (congr (congr (congr (congrArg Instr.fcnvFU (high 21 16 _ t (high 16 10 _ (0x10#6) (high 10 8 _ sf (high 8 6 _ df (high 6 0 _ (0x6#6) (low (0xC#6) r) rfl) rfl) rfl) rfl) rfl)) (high 13 8 _ t (high 8 2 _ (0x10#6) (high 2 0 _ sf (low (0xC#6 ++ r ++ 0x6#6) df) rfl) rfl) rfl)) (high 11 6 _ t (high 6 0 _ (0x10#6) (low (0xC#6 ++ r ++ 0x6#6 ++ df) sf) rfl) rfl)) (low (0xC#6 ++ r ++ 0x6#6 ++ df ++ sf ++ 0x10#6) t))

theorem InTable.fcnvFUE (r : BitVec 5) (df : BitVec 1) (sf : BitVec 1) (rx : BitVec 1) (tx : BitVec 1) (t : BitVec 5) : InTable.Statement (.fcnvFUE r df sf rx tx t) :=
  of_index 240 _ rfl (unmasked t (masked (unmasked tx (unmasked rx (masked (unmasked sf (masked (unmasked df (masked (unmasked r (rfl : 0xE#6 &&& 0x3F#6 = 0xE#6)) (rfl : 0xC#7 &&& 0x7F#7 = 0xC#7))) (rfl : 0x0#1 &&& 0x1#1 = 0x0#1))) (rfl : 0x2#3 &&& 0x7#3 = 0x2#3)))) (rfl : 0x0#1 &&& 0x1#1 = 0x0#1))) rfl rfl (congr (congr (congr (congr (congr (congrArg Instr.fcnvFUE (high 21 16 _ t (high 16 15 _ (0x0#1) (high 15 14 _ tx (high 14 13 _ rx (high 13 10 _ (0x2#3) (high 10 9 _ sf (high 9 8 _ (0x0#1) (high 8 7 _ df (high 7 0 _ (0xC#7) (low (0xE#6) r) rfl) rfl) rfl) rfl) rfl) rfl) rfl) rfl) rfl)) (high 13 8 _ t (high 8 7 _ (0x0#1) (high 7 6 _ tx (high 6 5 _ rx (high 5 2 _ (0x2#3) (high 2 1 _ sf (high 1 0 _ (0x0#1) (low (0xE#6 ++ r ++ 0xC#7) df) rfl) rfl) rfl) rfl) rfl) rfl) rfl)) (high 11 6 _ t (high 6 5 _ (0x0#1) (high 5 4 _ tx (high 4 3 _ rx (high 3 0 _ (0x2#3) (low (0xE#6 ++ r ++ 0xC#7 ++ df ++ 0x0#1) sf) rfl) rfl) rfl) rfl) rfl)) (high 7 2 _ t (high 2 1 _ (0x0#1) (high 1 0 _ tx (low (0xE#6 ++ r ++ 0xC#7 ++ df ++ 0x0#1 ++ sf ++ 0x2#3) rx) rfl) rfl) rfl)) (high 6 1 _ t (high 1 0 _ (0x0#1) (low (0xE#6 ++ r ++ 0xC#7 ++ df ++ 0x0#1 ++ sf ++ 0x2#3 ++ rx) tx) rfl) rfl)) (low (0xE#6 ++ r ++ 0xC#7 ++ df ++ 0x0#1 ++ sf ++ 0x2#3 ++ rx ++ tx ++ 0x0#1) t))

theorem InTable.fcnvFUT (r : BitVec 5) (df : BitVec 2) (sf : BitVec 2) (t : BitVec 5) : InTable.Statement (.fcnvFUT r df sf t) :=
  of_index 241 _ rfl (unmasked t (masked (unmasked sf (unmasked df (masked (unmasked r (rfl : 0xC#6 &&& 0x3F#6 = 0xC#6)) (rfl : 0x7#6 &&& 0x3F#6 = 0x7#6)))) (rfl : 0x10#6 &&& 0x3F#6 = 0x10#6))) rfl rfl (congr (congr (congr (congrArg Instr.fcnvFUT (high 21 16 _ t (high 16 10 _ (0x10#6) (high 10 8 _ sf (high 8 6 _ df (high 6 0 _ (0x7#6) (low (0xC#6) r) rfl) rfl) rfl) rfl) rfl)) (high 13 8 _ t (high 8 2 _ (0x10#6) (high 2 0 _ sf (low (0xC#6 ++ r ++ 0x7#6) df) rfl) rfl) rfl)) (high 11 6 _ t (high 6 0 _ (0x10#6) (low (0xC#6 ++ r ++ 0x7#6 ++ df) sf) rfl) rfl)) (low (0xC#6 ++ r ++ 0x7#6 ++ df ++ sf ++ 0x10#6) t))

theorem InTable.fcnvFUTE (r : BitVec 5) (df : BitVec 1) (sf : BitVec 1) (rx : BitVec 1) (tx : BitVec 1) (t : BitVec 5) : InTable.Statement (.fcnvFUTE r df sf rx tx t) :=
  of_index 242 _ rfl (unmasked t (masked (unmasked tx (unmasked rx (masked (unmasked sf (masked (unmasked df (masked (unmasked r (rfl : 0xE#6 &&& 0x3F#6 = 0xE#6)) (rfl : 0xE#7 &&& 0x7F#7 = 0xE#7))) (rfl : 0x0#1 &&& 0x1#1 = 0x0#1))) (rfl : 0x2#3 &&& 0x7#3 = 0x2#3)))) (rfl : 0x0#1 &&& 0x1#1 = 0x0#1))) rfl rfl (congr (congr (congr (congr (congr (congrArg Instr.fcnvFUTE (high 21 16 _ t (high 16 15 _ (0x0#1) (high 15 14 _ tx (high 14 13 _ rx (high 13 10 _ (0x2#3) (high 10 9 _ sf (high 9 8 _ (0x0#1) (high 8 7 _ df (high 7 0 _ (0xE#7) (low (0xE#6) r) rfl) rfl) rfl) rfl) rfl) rfl) rfl) rfl) rfl)) (high 13 8 _ t (high 8 7 _ (0x0#1) (high 7 6 _ tx (high 6 5 _ rx (high 5 2 _ (0x2#3) (high 2 1 _ sf (high 1 0 _ (0x0#1) (low (0xE#6 ++ r ++ 0xE#7) df) rfl) rfl) rfl) rfl) rfl) rfl) rfl)) (high 11 6 _ t (high 6 5 _ (0x0#1) (high 5 4 _ tx (high 4 3 _ rx (high 3 0 _ (0x2#3) (low (0xE#6 ++ r ++ 0xE#7 ++ df ++ 0x0#1) sf) rfl) rfl) rfl) rfl) rfl)) (high 7 2 _ t (high 2 1 _ (0x0#1) (high 1 0 _ tx (low (0xE#6 ++ r ++ 0xE#7 ++ df ++ 0x0#1 ++ sf ++ 0x2#3) rx) rfl) rfl) rfl)) (high 6 1 _ t (high 1 0 _ (0x0#1) (low (0xE#6 ++ r ++ 0xE#7 ++ df ++ 0x0#1 ++ sf ++ 0x2#3 ++ rx) tx) rfl) rfl)) (low (0xE#6 ++ r ++ 0xE#7 ++ df ++ 0x0#1 ++ sf ++ 0x2#3 ++ rx ++ tx ++ 0x0#1) t))

theorem InTable.fcmp (r1 : BitVec 5) (r2 : BitVec 5) (y : BitVec 3) (fmt : BitVec 2) (c : BitVec 5) : InTable.Statement (.fcmp r1 r2 y fmt c) :=
  of_index 243 _ rfl (unmasked c (masked (unmasked fmt (unmasked y (unmasked r2 (unmasked r1 (rfl : 0xC#6 &&& 0x3F#6 = 0xC#6))))) (rfl : 0x20#6 &&& 0x3F#6 = 0x20#6))) rfl rfl (congr (congr (congr (congr (congrArg Instr.fcmp (high 21 16 _ c (high 16 10 _ (0x20#6) (high 10 8 _ fmt (high 8 5 _ y (high 5 0 _ r2 (low (0xC#6) r1) rfl) rfl) rfl) rfl) rfl)) (high 16 11 _ c (high 11 5 _ (0x20#6) (high 5 3 _ fmt (high 3 0 _ y (low (0xC#6 ++ r1) r2) rfl) rfl) rfl) rfl)) (high 13 8 _ c (high 8 2 _ (0x20#6) (high 2 0 _ fmt (low (0xC#6 ++ r1 ++ r2) y) rfl) rfl) rfl)) (high 11 6 _ c (high 6 0 _ (0x20#6) (low (0xC#6 ++ r1 ++ r2 ++ y) fmt) rfl) rfl)) (low (0xC#6 ++ r1 ++ r2 ++ y ++ fmt ++ 0x20#6) c))

theorem InTable.fcmpE (r1 : BitVec 5) (r2 : BitVec 5) (y : BitVec 3) (x2 : BitVec 1) (f : BitVec 1) (x1 : BitVec 1) (c : BitVec 5) : InTable.Statement (.fcmpE r1 r2 y x2 f x1 c) :=
  of_index 244 _ rfl (unmasked c (masked (unmasked x1 (masked (unmasked f (unmasked x2 (unmasked y (unmasked r2 (unmasked r1 (rfl : 0xE#6 &&& 0x3F#6 = 0xE#6)))))) (rfl : 0x4#3 &&& 0x7#3 = 0x4#3))) (rfl : 0x0#2 &&& 0x3#2 = 0x0#2))) rfl rfl (congr (congr (congr (congr (congr (congr (congrArg Instr.fcmpE (high 21 16 _ c (high 16 14 _ (0x0#2) (high 14 13 _ x1 (high 13 10 _ (0x4#3) (high 10 9 _ f (high 9 8 _ x2 (high 8 5 _ y (high 5 0 _ r2 (low (0xE#6) r1) rfl) rfl) rfl) rfl) rfl) rfl) rfl) rfl)) (high 16 11 _ c (high 11 9 _ (0x0#2) (high 9 8 _ x1 (high 8 5 _ (0x4#3) (high 5 4 _ f (high 4 3 _ x2 (high 3 0 _ y (low (0xE#6 ++ r1) r2) rfl) rfl) rfl) rfl) rfl) rfl) rfl)) (high 13 8 _ c (high 8 6 _ (0x0#2) (high 6 5 _ x1 (high 5 2 _ (0x4#3) (high 2 1 _ f (high 1 0 _ x2 (low (0xE#6 ++ r1 ++ r2) y) rfl) rfl) rfl) rfl) rfl) rfl)) (high 12 7 _ c (high 7 5 _ (0x0#2) (high 5 4 _ x1 (high 4 1 _ (0x4#3) (high 1 0 _ f (low (0xE#6 ++ r1 ++ r2 ++ y) x2) rfl) rfl) rfl) rfl) rfl)) (high 11 6 _ c (high 6 4 _ (0x0#2) (high 4 3 _ x1 (high 3 0 _ (0x4#3) (low (0xE#6 ++ r1 ++ r2 ++ y ++ x2) f) rfl) rfl) rfl) rfl)) (high 7 2 _ c (high 2 0 _ (0x0#2) (low (0xE#6 ++ r1 ++ r2 ++ y ++ x2 ++ f ++ 0x4#3) x1) rfl) rfl)) (low (0xE#6 ++ r1 ++ r2 ++ y ++ x2 ++ f ++ 0x4#3 ++ x1 ++ 0x0#2) c))

theorem InTable.ftest (y : BitVec 3) (c : BitVec 5) : InTable.Statement (.ftest y c) :=
  of_index 245 _ rfl (unmasked c (masked (unmasked y (rfl : 0x3000#16 &&& 0xFFFF#16 = 0x3000#16)) (rfl : 0x21#8 &&& 0xFF#8 = 0x21#8))) rfl rfl (congr (congrArg Instr.ftest (high 13 8 _ c (high 8 0 _ (0x21#8) (low (0x3000#16) y) rfl) rfl)) (low (0x3000#16 ++ y ++ 0x21#8) c))

theorem InTable.fadd (r1 : BitVec 5) (r2 : BitVec 5) (fmt : BitVec 2) (t : BitVec 5) : InTable.Statement (.fadd r1 r2 fmt t) :=
  of_index 246 _ rfl (unmasked t (masked (unmasked fmt (masked (unmasked r2 (unmasked r1 (rfl : 0xC#6 &&& 0x3F#6 = 0xC#6))) (rfl : 0x0#3 &&& 0x7#3 = 0x0#3))) (rfl : 0x30#6 &&& 0x3F#6 = 0x30#6))) rfl rfl (congr (congr (congr (congrArg Instr.fadd (high 21 16 _ t (high 16 10 _ (0x30#6) (high 10 8 _ fmt (high 8 5 _ (0x0#3) (high 5 0 _ r2 (low (0xC#6) r1) rfl) rfl) rfl) rfl) rfl)) (high 16 11 _ t (high 11 5 _ (0x30#6) (high 5 3 _ fmt (high 3 0 _ (0x0#3) (low (0xC#6 ++ r1) r2) rfl) rfl) rfl) rfl)) (high 11 6 _ t (high 6 0 _ (0x30#6) (low (0xC#6 ++ r1 ++ r2 ++ 0x0#3) fmt) rfl) rfl)) (low (0xC#6 ++ r1 ++ r2 ++ 0x0#3 ++ fmt ++ 0x30#6) t))

theorem InTable.faddE (r1 : BitVec 5) (r2 : BitVec 5) (x2 : BitVec 1) (f : BitVec 1) (x1 : BitVec 1) (tx : BitVec 1) (t : BitVec 5) : InTable.Statement (.faddE r1 r2 x2 f x1 tx t) :=
  of_index 247 _ rfl (unmasked t (masked (unmasked tx (unmasked x1 (masked (unmasked f (unmasked x2 (masked (unmasked r2 (unmasked r1 (rfl : 0xE#6 &&& 0x3F#6 = 0xE#6))) (rfl : 0x0#3 &&& 0x7#3 = 0x0#3)))) (rfl : 0x6#3 &&& 0x7#3 = 0x6#3)))) (rfl : 0x0#1 &&& 0x1#1 = 0x0#1))) rfl rfl (congr (congr (congr (congr (congr (congr (congrArg Instr.faddE (high 21 16 _ t (high 16 15 _ (0x0#1) (high 15 14 _ tx (high 14 13 _ x1 (high 13 10 _ (0x6#3) (high 10 9 _ f (high 9 8 _ x2 (high 8 5 _ (0x0#3) (high 5 0 _ r2 (low (0xE#6) r1) rfl) rfl) rfl) rfl) rfl) rfl) rfl) rfl) rfl)) (high 16 11 _ t (high 11 10 _ (0x0#1) (high 10 9 _ tx (high 9 8 _ x1 (high 8 5 _ (0x6#3) (high 5 4 _ f (high 4 3 _ x2 (high 3 0 _ (0x0#3) (low (0xE#6 ++ r1) r2) rfl) rfl) rfl) rfl) rfl) rfl) rfl) rfl)) (high 12 7 _ t (high 7 6 _ (0x0#1) (high 6 5 _ tx (high 5 4 _ x1 (high 4 1 _ (0x6#3) (high 1 0 _ f (low (0xE#6 ++ r1 ++ r2 ++ 0x0#3) x2) rfl) rfl) rfl) rfl) rfl) rfl)) (high 11 6 _ t (high 6 5 _ (0x0#1) (high 5 4 _ tx (high 4 3 _ x1 (high 3 0 _ (0x6#3) (low (0xE#6 ++ r1 ++ r2 ++ 0x0#3 ++ x2) f) rfl) rfl) rfl) rfl) rfl)) (high 7 2 _ t (high 2 1 _ (0x0#1) (high 1 0 _ tx (low (0xE#6 ++ r1 ++ r2 ++ 0x0#3 ++ x2 ++ f ++ 0x6#3) x1) rfl) rfl) rfl)) (high 6 1 _ t (high 1 0 _ (0x0#1) (low (0xE#6 ++ r1 ++ r2 ++ 0x0#3 ++ x2 ++ f ++ 0x6#3 ++ x1) tx) rfl) rfl)) (low (0xE#6 ++ r1 ++ r2 ++ 0x0#3 ++ x2 ++ f ++ 0x6#3 ++ x1 ++ tx ++ 0x0#1) t))

theorem InTable.fsub (r1 : BitVec 5) (r2 : BitVec 5) (fmt : BitVec 2) (t : BitVec 5) : InTable.Statement (.fsub r1 r2 fmt t) :=
  of_index 248 _ rfl (unmasked t (masked (unmasked fmt (masked (unmasked r2 (unmasked r1 (rfl : 0xC#6 &&& 0x3F#6 = 0xC#6))) (rfl : 0x1#3 &&& 0x7#3 = 0x1#3))) (rfl : 0x30#6 &&& 0x3F#6 = 0x30#6))) rfl rfl (congr (congr (congr (congrArg Instr.fsub (high 21 16 _ t (high 16 10 _ (0x30#6) (high 10 8 _ fmt (high 8 5 _ (0x1#3) (high 5 0 _ r2 (low (0xC#6) r1) rfl) rfl) rfl) rfl) rfl)) (high 16 11 _ t (high 11 5 _ (0x30#6) (high 5 3 _ fmt (high 3 0 _ (0x1#3) (low (0xC#6 ++ r1) r2) rfl) rfl) rfl) rfl)) (high 11 6 _ t (high 6 0 _ (0x30#6) (low (0xC#6 ++ r1 ++ r2 ++ 0x1#3) fmt) rfl) rfl)) (low (0xC#6 ++ r1 ++ r2 ++ 0x1#3 ++ fmt ++ 0x30#6) t))

theorem InTable.fsubE (r1 : BitVec 5) (r2 : BitVec 5) (x2 : BitVec 1) (f : BitVec 1) (x1 : BitVec 1) (tx : BitVec 1) (t : BitVec 5) : InTable.Statement (.fsubE r1 r2 x2 f x1 tx t) :=
  of_index 249 _ rfl (unmasked t (masked (unmasked tx (unmasked x1 (masked (unmasked f (unmasked x2 (masked (unmasked r2 (unmasked r1 (rfl : 0xE#6 &&& 0x3F#6 = 0xE#6))) (rfl : 0x1#3 &&& 0x7#3 = 0x1#3)))) (rfl : 0x6#3 &&& 0x7#3 = 0x6#3)))) (rfl : 0x0#1 &&& 0x1#1 = 0x0#1))) rfl rfl (congr (congr (congr (congr (congr (congr (congrArg Instr.fsubE (high 21 16 _ t (high 16 15 _ (0x0#1) (high 15 14 _ tx (high 14 13 _ x1 (high 13 10 _ (0x6#3) (high 10 9 _ f (high 9 8 _ x2 (high 8 5 _ (0x1#3) (high 5 0 _ r2 (low (0xE#6) r1) rfl) rfl) rfl) rfl) rfl) rfl) rfl) rfl) rfl)) (high 16 11 _ t (high 11 10 _ (0x0#1) (high 10 9 _ tx (high 9 8 _ x1 (high 8 5 _ (0x6#3) (high 5 4 _ f (high 4 3 _ x2 (high 3 0 _ (0x1#3) (low (0xE#6 ++ r1) r2) rfl) rfl) rfl) rfl) rfl) rfl) rfl) rfl)) (high 12 7 _ t (high 7 6 _ (0x0#1) (high 6 5 _ tx (high 5 4 _ x1 (high 4 1 _ (0x6#3) (high 1 0 _ f (low (0xE#6 ++ r1 ++ r2 ++ 0x1#3) x2) rfl) rfl) rfl) rfl) rfl) rfl)) (high 11 6 _ t (high 6 5 _ (0x0#1) (high 5 4 _ tx (high 4 3 _ x1 (high 3 0 _ (0x6#3) (low (0xE#6 ++ r1 ++ r2 ++ 0x1#3 ++ x2) f) rfl) rfl) rfl) rfl) rfl)) (high 7 2 _ t (high 2 1 _ (0x0#1) (high 1 0 _ tx (low (0xE#6 ++ r1 ++ r2 ++ 0x1#3 ++ x2 ++ f ++ 0x6#3) x1) rfl) rfl) rfl)) (high 6 1 _ t (high 1 0 _ (0x0#1) (low (0xE#6 ++ r1 ++ r2 ++ 0x1#3 ++ x2 ++ f ++ 0x6#3 ++ x1) tx) rfl) rfl)) (low (0xE#6 ++ r1 ++ r2 ++ 0x1#3 ++ x2 ++ f ++ 0x6#3 ++ x1 ++ tx ++ 0x0#1) t))

theorem InTable.fmpy (r1 : BitVec 5) (r2 : BitVec 5) (fmt : BitVec 2) (t : BitVec 5) : InTable.Statement (.fmpy r1 r2 fmt t) :=
  of_index 250 _ rfl (unmasked t (masked (unmasked fmt (masked (unmasked r2 (unmasked r1 (rfl : 0xC#6 &&& 0x3F#6 = 0xC#6))) (rfl : 0x2#3 &&& 0x7#3 = 0x2#3))) (rfl : 0x30#6 &&& 0x3F#6 = 0x30#6))) rfl rfl (congr (congr (congr (congrArg Instr.fmpy (high 21 16 _ t (high 16 10 _ (0x30#6) (high 10 8 _ fmt (high 8 5 _ (0x2#3) (high 5 0 _ r2 (low (0xC#6) r1) rfl) rfl) rfl) rfl) rfl)) (high 16 11 _ t (high 11 5 _ (0x30#6) (high 5 3 _ fmt (high 3 0 _ (0x2#3) (low (0xC#6 ++ r1) r2) rfl) rfl) rfl) rfl)) (high 11 6 _ t (high 6 0 _ (0x30#6) (low (0xC#6 ++ r1 ++ r2 ++ 0x2#3) fmt) rfl) rfl)) (low (0xC#6 ++ r1 ++ r2 ++ 0x2#3 ++ fmt ++ 0x30#6) t))

theorem InTable.fmpyE (r1 : BitVec 5) (r2 : BitVec 5) (x2 : BitVec 1) (f : BitVec 1) (x1 : BitVec 1) (tx : BitVec 1) (t : BitVec 5) : InTable.Statement (.fmpyE r1 r2 x2 f x1 tx t) :=
  of_index 251 _ rfl (unmasked t (masked (unmasked tx (unmasked x1 (masked (unmasked f (unmasked x2 (masked (unmasked r2 (unmasked r1 (rfl : 0xE#6 &&& 0x3F#6 = 0xE#6))) (rfl : 0x2#3 &&& 0x7#3 = 0x2#3)))) (rfl : 0x6#3 &&& 0x7#3 = 0x6#3)))) (rfl : 0x0#1 &&& 0x1#1 = 0x0#1))) rfl rfl (congr (congr (congr (congr (congr (congr (congrArg Instr.fmpyE (high 21 16 _ t (high 16 15 _ (0x0#1) (high 15 14 _ tx (high 14 13 _ x1 (high 13 10 _ (0x6#3) (high 10 9 _ f (high 9 8 _ x2 (high 8 5 _ (0x2#3) (high 5 0 _ r2 (low (0xE#6) r1) rfl) rfl) rfl) rfl) rfl) rfl) rfl) rfl) rfl)) (high 16 11 _ t (high 11 10 _ (0x0#1) (high 10 9 _ tx (high 9 8 _ x1 (high 8 5 _ (0x6#3) (high 5 4 _ f (high 4 3 _ x2 (high 3 0 _ (0x2#3) (low (0xE#6 ++ r1) r2) rfl) rfl) rfl) rfl) rfl) rfl) rfl) rfl)) (high 12 7 _ t (high 7 6 _ (0x0#1) (high 6 5 _ tx (high 5 4 _ x1 (high 4 1 _ (0x6#3) (high 1 0 _ f (low (0xE#6 ++ r1 ++ r2 ++ 0x2#3) x2) rfl) rfl) rfl) rfl) rfl) rfl)) (high 11 6 _ t (high 6 5 _ (0x0#1) (high 5 4 _ tx (high 4 3 _ x1 (high 3 0 _ (0x6#3) (low (0xE#6 ++ r1 ++ r2 ++ 0x2#3 ++ x2) f) rfl) rfl) rfl) rfl) rfl)) (high 7 2 _ t (high 2 1 _ (0x0#1) (high 1 0 _ tx (low (0xE#6 ++ r1 ++ r2 ++ 0x2#3 ++ x2 ++ f ++ 0x6#3) x1) rfl) rfl) rfl)) (high 6 1 _ t (high 1 0 _ (0x0#1) (low (0xE#6 ++ r1 ++ r2 ++ 0x2#3 ++ x2 ++ f ++ 0x6#3 ++ x1) tx) rfl) rfl)) (low (0xE#6 ++ r1 ++ r2 ++ 0x2#3 ++ x2 ++ f ++ 0x6#3 ++ x1 ++ tx ++ 0x0#1) t))

theorem InTable.fdiv (r1 : BitVec 5) (r2 : BitVec 5) (fmt : BitVec 2) (t : BitVec 5) : InTable.Statement (.fdiv r1 r2 fmt t) :=
  of_index 252 _ rfl (unmasked t (masked (unmasked fmt (masked (unmasked r2 (unmasked r1 (rfl : 0xC#6 &&& 0x3F#6 = 0xC#6))) (rfl : 0x3#3 &&& 0x7#3 = 0x3#3))) (rfl : 0x30#6 &&& 0x3F#6 = 0x30#6))) rfl rfl (congr (congr (congr (congrArg Instr.fdiv (high 21 16 _ t (high 16 10 _ (0x30#6) (high 10 8 _ fmt (high 8 5 _ (0x3#3) (high 5 0 _ r2 (low (0xC#6) r1) rfl) rfl) rfl) rfl) rfl)) (high 16 11 _ t (high 11 5 _ (0x30#6) (high 5 3 _ fmt (high 3 0 _ (0x3#3) (low (0xC#6 ++ r1) r2) rfl) rfl) rfl) rfl)) (high 11 6 _ t (high 6 0 _ (0x30#6) (low (0xC#6 ++ r1 ++ r2 ++ 0x3#3) fmt) rfl) rfl)) (low (0xC#6 ++ r1 ++ r2 ++ 0x3#3 ++ fmt ++ 0x30#6) t))

theorem InTable.fdivE (r1 : BitVec 5) (r2 : BitVec 5) (x2 : BitVec 1) (f : BitVec 1) (x1 : BitVec 1) (tx : BitVec 1) (t : BitVec 5) : InTable.Statement (.fdivE r1 r2 x2 f x1 tx t) :=
  of_index 253 _ rfl (unmasked t (masked (unmasked tx (unmasked x1 (masked (unmasked f (unmasked x2 (masked (unmasked r2 (unmasked r1 (rfl : 0xE#6 &&& 0x3F#6 = 0xE#6))) (rfl : 0x3#3 &&& 0x7#3 = 0x3#3)))) (rfl : 0x6#3 &&& 0x7#3 = 0x6#3)))) (rfl : 0x0#1 &&& 0x1#1 = 0x0#1))) rfl rfl (congr (congr (congr (congr (congr (congr (congrArg Instr.fdivE (high 21 16 _ t (high 16 15 _ (0x0#1) (high 15 14 _ tx (high 14 13 _ x1 (high 13 10 _ (0x6#3) (high 10 9 _ f (high 9 8 _ x2 (high 8 5 _ (0x3#3) (high 5 0 _ r2 (low (0xE#6) r1) rfl) rfl) rfl) rfl) rfl) rfl) rfl) rfl) rfl)) (high 16 11 _ t (high 11 10 _ (0x0#1) (high 10 9 _ tx (high 9 8 _ x1 (high 8 5 _ (0x6#3) (high 5 4 _ f (high 4 3 _ x2 (high 3 0 _ (0x3#3) (low (0xE#6 ++ r1) r2) rfl) rfl) rfl) rfl) rfl) rfl) rfl) rfl)) (high 12 7 _ t (high 7 6 _ (0x0#1) (high 6 5 _ tx (high 5 4 _ x1 (high 4 1 _ (0x6#3) (high 1 0 _ f (low (0xE#6 ++ r1 ++ r2 ++ 0x3#3) x2) rfl) rfl) rfl) rfl) rfl) rfl)) (high 11 6 _ t (high 6 5 _ (0x0#1) (high 5 4 _ tx (high 4 3 _ x1 (high 3 0 _ (0x6#3) (low (0xE#6 ++ r1 ++ r2 ++ 0x3#3 ++ x2) f) rfl) rfl) rfl) rfl) rfl)) (high 7 2 _ t (high 2 1 _ (0x0#1) (high 1 0 _ tx (low (0xE#6 ++ r1 ++ r2 ++ 0x3#3 ++ x2 ++ f ++ 0x6#3) x1) rfl) rfl) rfl)) (high 6 1 _ t (high 1 0 _ (0x0#1) (low (0xE#6 ++ r1 ++ r2 ++ 0x3#3 ++ x2 ++ f ++ 0x6#3 ++ x1) tx) rfl) rfl)) (low (0xE#6 ++ r1 ++ r2 ++ 0x3#3 ++ x2 ++ f ++ 0x6#3 ++ x1 ++ tx ++ 0x0#1) t))

theorem InTable.xmpyu (r1 : BitVec 5) (r2 : BitVec 5) (x2 : BitVec 1) (x1 : BitVec 1) (t : BitVec 5) : InTable.Statement (.xmpyu r1 r2 x2 x1 t) :=
  of_index 254 _ rfl (unmasked t (masked (unmasked x1 (masked (unmasked x2 (masked (unmasked r2 (unmasked r1 (rfl : 0xE#6 &&& 0x3F#6 = 0xE#6))) (rfl : 0x2#3 &&& 0x7#3 = 0x2#3))) (rfl : 0x7#4 &&& 0xF#4 = 0x7#4))) (rfl : 0x0#2 &&& 0x3#2 = 0x0#2))) rfl rfl (congr (congr (congr (congr (congrArg Instr.xmpyu (high 21 16 _ t (high 16 14 _ (0x0#2) (high 14 13 _ x1 (high 13 9 _ (0x7#4) (high 9 8 _ x2 (high 8 5 _ (0x2#3) (high 5 0 _ r2 (low (0xE#6) r1) rfl) rfl) rfl) rfl) rfl) rfl) rfl)) (high 16 11 _ t (high 11 9 _ (0x0#2) (high 9 8 _ x1 (high 8 4 _ (0x7#4) (high 4 3 _ x2 (high 3 0 _ (0x2#3) (low (0xE#6 ++ r1) r2) rfl) rfl) rfl) rfl) rfl) rfl)) (high 12 7 _ t (high 7 5 _ (0x0#2) (high 5 4 _ x1 (high 4 0 _ (0x7#4) (low (0xE#6 ++ r1 ++ r2 ++ 0x2#3) x2) rfl) rfl) rfl) rfl)) (high 7 2 _ t (high 2 0 _ (0x0#2) (low (0xE#6 ++ r1 ++ r2 ++ 0x2#3 ++ x2 ++ 0x7#4) x1) rfl) rfl)) (low (0xE#6 ++ r1 ++ r2 ++ 0x2#3 ++ x2 ++ 0x7#4 ++ x1 ++ 0x0#2) t))

theorem InTable.fmpyadd (rm1 : BitVec 5) (rm2 : BitVec 5) (ta : BitVec 5) (ra : BitVec 5) (f : BitVec 1) (tm : BitVec 5) : InTable.Statement (.fmpyadd rm1 rm2 ta ra f tm) :=
  of_index 255 _ rfl (unmasked tm (unmasked f (unmasked ra (unmasked ta (unmasked rm2 (unmasked rm1 (rfl : 0x6#6 &&& 0x3F#6 = 0x6#6))))))) rfl rfl (congr (congr (congr (congr (congr (congrArg Instr.fmpyadd (high 21 16 _ tm (high 16 15 _ f (high 15 10 _ ra (high 10 5 _ ta (high 5 0 _ rm2 (low (0x6#6) rm1) rfl) rfl) rfl) rfl) rfl)) (high 16 11 _ tm (high 11 10 _ f (high 10 5 _ ra (high 5 0 _ ta (low (0x6#6 ++ rm1) rm2) rfl) rfl) rfl) rfl)) (high 11 6 _ tm (high 6 5 _ f (high 5 0 _ ra (low (0x6#6 ++ rm1 ++ rm2) ta) rfl) rfl) rfl)) (high 6 1 _ tm (high 1 0 _ f (low (0x6#6 ++ rm1 ++ rm2 ++ ta) ra) rfl) rfl)) (high 5 0 _ tm (low (0x6#6 ++ rm1 ++ rm2 ++ ta ++ ra) f) rfl)) (low (0x6#6 ++ rm1 ++ rm2 ++ ta ++ ra ++ f) tm))

theorem InTable.fmpysub (rm1 : BitVec 5) (rm2 : BitVec 5) (ta : BitVec 5) (ra : BitVec 5) (f : BitVec 1) (tm : BitVec 5) : InTable.Statement (.fmpysub rm1 rm2 ta ra f tm) :=
  of_index 256 _ rfl (unmasked tm (unmasked f (unmasked ra (unmasked ta (unmasked rm2 (unmasked rm1 (rfl : 0x26#6 &&& 0x3F#6 = 0x26#6))))))) rfl rfl (congr (congr (congr (congr (congr (congrArg Instr.fmpysub (high 21 16 _ tm (high 16 15 _ f (high 15 10 _ ra (high 10 5 _ ta (high 5 0 _ rm2 (low (0x26#6) rm1) rfl) rfl) rfl) rfl) rfl)) (high 16 11 _ tm (high 11 10 _ f (high 10 5 _ ra (high 5 0 _ ta (low (0x26#6 ++ rm1) rm2) rfl) rfl) rfl) rfl)) (high 11 6 _ tm (high 6 5 _ f (high 5 0 _ ra (low (0x26#6 ++ rm1 ++ rm2) ta) rfl) rfl) rfl)) (high 6 1 _ tm (high 1 0 _ f (low (0x26#6 ++ rm1 ++ rm2 ++ ta) ra) rfl) rfl)) (high 5 0 _ tm (low (0x26#6 ++ rm1 ++ rm2 ++ ta ++ ra) f) rfl)) (low (0x26#6 ++ rm1 ++ rm2 ++ ta ++ ra ++ f) tm))

theorem InTable.fmpyfadd (rm1 : BitVec 5) (rm2 : BitVec 5) (raHi : BitVec 3) (x2 : BitVec 1) (f : BitVec 1) (raLo : BitVec 3) (x1 : BitVec 1) (tx : BitVec 1) (t : BitVec 5) : InTable.Statement (.fmpyfadd rm1 rm2 raHi x2 f raLo x1 tx t) :=
  of_index 257 _ rfl (unmasked t (masked (unmasked tx (unmasked x1 (unmasked raLo (unmasked f (unmasked x2 (unmasked raHi (unmasked rm2 (unmasked rm1 (rfl : 0x2E#6 &&& 0x3F#6 = 0x2E#6))))))))) (rfl : 0x0#1 &&& 0x1#1 = 0x0#1))) rfl rfl (congr (congr (congr (congr (congr (congr (congr (congr (congrArg Instr.fmpyfadd (high 21 16 _ t (high 16 15 _ (0x0#1) (high 15 14 _ tx (high 14 13 _ x1 (high 13 10 _ raLo (high 10 9 _ f (high 9 8 _ x2 (high 8 5 _ raHi (high 5 0 _ rm2 (low (0x2E#6) rm1) rfl) rfl) rfl) rfl) rfl) rfl) rfl) rfl) rfl)) (high 16 11 _ t (high 11 10 _ (0x0#1) (high 10 9 _ tx (high 9 8 _ x1 (high 8 5 _ raLo (high 5 4 _ f (high 4 3 _ x2 (high 3 0 _ raHi (low (0x2E#6 ++ rm1) rm2) rfl) rfl) rfl) rfl) rfl) rfl) rfl) rfl)) (high 13 8 _ t (high 8 7 _ (0x0#1) (high 7 6 _ tx (high 6 5 _ x1 (high 5 2 _ raLo (high 2 1 _ f (high 1 0 _ x2 (low (0x2E#6 ++ rm1 ++ rm2) raHi) rfl) rfl) rfl) rfl) rfl) rfl) rfl)) (high 12 7 _ t (high 7 6 _ (0x0#1) (high 6 5 _ tx (high 5 4 _ x1 (high 4 1 _ raLo (high 1 0 _ f (low (0x2E#6 ++ rm1 ++ rm2 ++ raHi) x2) rfl) rfl) rfl) rfl) rfl) rfl)) (high 11 6 _ t (high 6 5 _ (0x0#1) (high 5 4 _ tx (high 4 3 _ x1 (high 3 0 _ raLo (low (0x2E#6 ++ rm1 ++ rm2 ++ raHi ++ x2) f) rfl) rfl) rfl) rfl) rfl)) (high 8 3 _ t (high 3 2 _ (0x0#1) (high 2 1 _ tx (high 1 0 _ x1 (low (0x2E#6 ++ rm1 ++ rm2 ++ raHi ++ x2 ++ f) raLo) rfl) rfl) rfl) rfl)) (high 7 2 _ t (high 2 1 _ (0x0#1) (high 1 0 _ tx (low (0x2E#6 ++ rm1 ++ rm2 ++ raHi ++ x2 ++ f ++ raLo) x1) rfl) rfl) rfl)) (high 6 1 _ t (high 1 0 _ (0x0#1) (low (0x2E#6 ++ rm1 ++ rm2 ++ raHi ++ x2 ++ f ++ raLo ++ x1) tx) rfl) rfl)) (low (0x2E#6 ++ rm1 ++ rm2 ++ raHi ++ x2 ++ f ++ raLo ++ x1 ++ tx ++ 0x0#1) t))

theorem InTable.fmpynfadd (rm1 : BitVec 5) (rm2 : BitVec 5) (raHi : BitVec 3) (x2 : BitVec 1) (f : BitVec 1) (raLo : BitVec 3) (x1 : BitVec 1) (tx : BitVec 1) (t : BitVec 5) : InTable.Statement (.fmpynfadd rm1 rm2 raHi x2 f raLo x1 tx t) :=
  of_index 258 _ rfl (unmasked t (masked (unmasked tx (unmasked x1 (unmasked raLo (unmasked f (unmasked x2 (unmasked raHi (unmasked rm2 (unmasked rm1 (rfl : 0x2E#6 &&& 0x3F#6 = 0x2E#6))))))))) (rfl : 0x1#1 &&& 0x1#1 = 0x1#1))) rfl rfl (congr (congr (congr (congr (congr (congr (congr (congr (congrArg Instr.fmpynfadd (high 21 16 _ t (high 16 15 _ (0x1#1) (high 15 14 _ tx (high 14 13 _ x1 (high 13 10 _ raLo (high 10 9 _ f (high 9 8 _ x2 (high 8 5 _ raHi (high 5 0 _ rm2 (low (0x2E#6) rm1) rfl) rfl) rfl) rfl) rfl) rfl) rfl) rfl) rfl)) (high 16 11 _ t (high 11 10 _ (0x1#1) (high 10 9 _ tx (high 9 8 _ x1 (high 8 5 _ raLo (high 5 4 _ f (high 4 3 _ x2 (high 3 0 _ raHi (low (0x2E#6 ++ rm1) rm2) rfl) rfl) rfl) rfl) rfl) rfl) rfl) rfl)) (high 13 8 _ t (high 8 7 _ (0x1#1) (high 7 6 _ tx (high 6 5 _ x1 (high 5 2 _ raLo (high 2 1 _ f (high 1 0 _ x2 (low (0x2E#6 ++ rm1 ++ rm2) raHi) rfl) rfl) rfl) rfl) rfl) rfl) rfl)) (high 12 7 _ t (high 7 6 _ (0x1#1) (high 6 5 _ tx (high 5 4 _ x1 (high 4 1 _ raLo (high 1 0 _ f (low (0x2E#6 ++ rm1 ++ rm2 ++ raHi) x2) rfl) rfl) rfl) rfl) rfl) rfl)) (high 11 6 _ t (high 6 5 _ (0x1#1) (high 5 4 _ tx (high 4 3 _ x1 (high 3 0 _ raLo (low (0x2E#6 ++ rm1 ++ rm2 ++ raHi ++ x2) f) rfl) rfl) rfl) rfl) rfl)) (high 8 3 _ t (high 3 2 _ (0x1#1) (high 2 1 _ tx (high 1 0 _ x1 (low (0x2E#6 ++ rm1 ++ rm2 ++ raHi ++ x2 ++ f) raLo) rfl) rfl) rfl) rfl)) (high 7 2 _ t (high 2 1 _ (0x1#1) (high 1 0 _ tx (low (0x2E#6 ++ rm1 ++ rm2 ++ raHi ++ x2 ++ f ++ raLo) x1) rfl) rfl) rfl)) (high 6 1 _ t (high 1 0 _ (0x1#1) (low (0x2E#6 ++ rm1 ++ rm2 ++ raHi ++ x2 ++ f ++ raLo ++ x1) tx) rfl) rfl)) (low (0x2E#6 ++ rm1 ++ rm2 ++ raHi ++ x2 ++ f ++ raLo ++ x1 ++ tx ++ 0x1#1) t))

theorem InTable.pushnom : InTable.Statement .pushnom :=
  of_index 43 _ rfl (rfl : 0xE8004001#32 &&& 0xFFFFFFFF#32 = 0xE8004001#32) rfl rfl rfl

theorem InTable.clrbts : InTable.Statement .clrbts :=
  of_index 45 _ rfl (rfl : 0xE8004005#32 &&& 0xFFFFFFFF#32 = 0xE8004005#32) rfl rfl rfl

theorem InTable.sync : InTable.Statement .sync :=
  of_index 141 _ rfl (rfl : 0x400#32 &&& 0xFC10FFFF#32 = 0x400#32) rfl rfl rfl

theorem InTable.syncdma : InTable.Statement .syncdma :=
  of_index 142 _ rfl (rfl : 0x100400#32 &&& 0xFC10FFFF#32 = 0x100400#32) rfl rfl rfl

theorem InTable.rfi : InTable.Statement .rfi :=
  of_index 143 _ rfl (rfl : 0xC00#32 &&& 0xFC001FFF#32 = 0xC00#32) rfl rfl rfl

theorem InTable.rfiR : InTable.Statement .rfiR :=
  of_index 144 _ rfl (rfl : 0xCA0#32 &&& 0xFC001FFF#32 = 0xCA0#32) rfl rfl rfl

theorem InTable.pmenb : InTable.Statement .pmenb :=
  of_index 182 _ rfl (rfl : 0x30000680#32 &&& 0xFC003FE0#32 = 0x30000680#32) rfl rfl rfl

theorem InTable.fid : InTable.Statement .fid :=
  of_index 216 _ rfl (rfl : 0x30000000#32 &&& 0xFFFFFFFF#32 = 0x30000000#32) rfl rfl rfl

end Sys2Proof.Laws
end

