-- ==== Sys2Proof/Tests/Slice0.lean ====
section
/-! SUPPORT. Tests: the decoding of a word of every instruction, each check of well-formedness refusing an ill-formed term, single
steps on small states, and states that meet the hypotheses of the statements. Words and results of the first three come from the
examples of the instruction pages and from 95_test_vectors.md (V<n>), or are written out from the formats of 30_encoding.md. -/

namespace Sys2Proof.Tests

set_option Elab.async false

open Machine

/-! ### Decoding: one word for every constructor -/

/-- Every word decodes to its instruction, and the instruction encodes to the word. -/
def decodesAll (l : List (BitVec 32 × Instr)) : Bool :=
  l.all fun p => (match decode p.1 with | .ok i => i == p.2 | .error _ => false) && encode p.2 == p.1

theorem test_decode_memory_reference_1 : decodesAll [
    (0x406400C8, .ldbLong 3 4 0 200),
    (0x44647FFD, .ldhLong 3 4 1 16381),
    (0x48640200, .ldwLong 3 4 0 512),
    (0x4C640080, .ldwLongMod 3 4 0 128),
    (0x606400C8, .stbLong 3 4 0 200),
    (0x646400C8, .sthLong 3 4 0 200),
    (0x6BC23F99, .stwLong 30 2 0 16281),
    (0x6C640080, .stwLongMod 3 4 0 128),
    (0x5C643F85, .ldwLong11 3 4 0 2032 1),
    (0x7C643F85, .stwLong11 3 4 0 2032 1),
    (0x50643F8D, .lddLong 3 4 0 1016 1 1 1),
    (0x70640108, .stdLong 3 4 0 16 1 0 0),
    (0x0C6A1004, .ldbShort 3 10 0 0 0 0 4),
    (0x0C650004, .ldbIndexed 3 5 0 0 0 0 4),
    (0x0C7D5044, .ldhShort 3 29 1 0 0 0 4),
    (0x0C652044, .ldhIndexed 3 5 0 1 0 0 4)] = true := by decide +kernel

theorem test_decode_memory_reference_2 : decodesAll [
    (0x0C6810A4, .ldwShort 3 8 0 0 0 1 4),
    (0x0C6520A4, .ldwIndexed 3 5 0 1 0 1 4),
    (0x0C7010C4, .lddShort 3 16 0 0 0 0 4),
    (0x0C6520C4, .lddIndexed 3 5 0 1 0 0 4),
    (0x0C701104, .lddaShort 3 16 0 0 0 4),
    (0x0C652104, .lddaIndexed 3 5 1 0 0 4),
    (0x0C601144, .ldcdShort 3 0 0 0 0 0 4),
    (0x0C652144, .ldcdIndexed 3 5 0 1 0 0 4),
    (0x0C601184, .ldwaShort 3 0 0 0 0 4),
    (0x0C650184, .ldwaIndexed 3 5 0 0 0 4),
    (0x0C6015C4, .ldcwShort 3 0 0 0 1 0 4),
    (0x0C6001C4, .ldcwIndexed 3 0 0 0 0 0 4),
    (0x0C64120A, .stbShort 3 4 0 0 0 0 10),
    (0x0C641244, .sthShort 3 4 0 0 0 0 4),
    (0x0C641290, .stwShort 3 4 0 0 0 0 16),
    (0x0C6412D0, .stdShort 3 4 0 0 0 0 16)] = true := by decide +kernel

theorem test_decode_memory_reference_3 : decodesAll [
    (0x0C643306, .stby 3 4 0 1 0 0 6),
    (0x0C64334A, .stdby 3 4 0 1 0 0 10),
    (0x0C641380, .stwa 3 4 0 0 0 0),
    (0x0C6413C0, .stda 3 4 0 0 0 0)] = true := by decide +kernel

theorem test_decode_immediate : decodesAll [
    (0x34050034, .ldo 0 5 0 52),
    (0x20A26246, .ldil 5 156230),
    (0x2B601000, .addil 27 4096)] = true := by decide +kernel

theorem test_decode_branch_1 : decodesAll [
    (0xE81F1FF7, .bl17 0 31 2045 1 1),
    (0xE8402042, .bGate 2 0 16 1 0),
    (0xEBFF97F7, .blPush 31 31 1533 1 1),
    (0xE800A800, .bl22 0 0 512 0 0),
    (0xE8054001, .pushbts 5),
    (0xE8004015, .popbts 2),
    (0xE8054000, .blr 0 5 0),
    (0xE840C000, .bv 2 0 0),
    (0xE840D000, .bve 2 0 0),
    (0xEAC0F000, .bveL 22 0 0),
    (0xE2A02020, .be 21 0 1 8 0 0),
    (0xE420E022, .beL 1 0 7 8 1 0),
    (0xA0832012, .addbT 4 3 1 4 1 0),
    (0xA800E00A, .addbF 0 0 7 2 1 0),
    (0xA4BF3FED, .addibT 5 31 1 2043 0 1),
    (0xACBF7FF7, .addibF 5 31 3 2045 1 1)] = true := by decide +kernel

theorem test_decode_branch_2 : decodesAll [
    (0x80832012, .cmpbT 4 3 1 4 1 0),
    (0x88832012, .cmpbF 4 3 1 4 1 0),
    (0x9C832012, .cmpbDT 4 3 1 4 1 0),
    (0xBC832012, .cmpbDF 4 3 1 4 1 0),
    (0x848A2000, .cmpibT 4 10 1 0 0 0),
    (0x8CA02000, .cmpibF 5 0 1 0 0 0),
    (0xEC9F2010, .cmpibD 4 31 1 4 0 0),
    (0xC8838008, .movb 4 3 4 2 0 0),
    (0xCCDF8000, .movib 6 31 4 0 0 0),
    (0xC4A74020, .bbFixed 5 7 0 0 8 0 0),
    (0xC0074020, .bbSar 7 0 0 8 0 0),
    (0xE8004001, .pushnom),
    (0xE8004005, .clrbts)] = true := by decide +kernel

theorem test_decode_computation_1 : decodesAll [
    (0x08A40606, .add 5 4 0 0 0 6),
    (0x08A40726, .addC 5 4 0 0 1 6),
    (0x08A40A06, .addL 5 4 0 0 0 6),
    (0x08A40E06, .addTsv 5 4 0 0 0 6),
    (0x08A40F06, .addCTsv 5 4 0 0 0 6),
    (0x08A40406, .sub 5 4 0 0 0 6),
    (0x08A404C6, .subTc 5 4 0 0 0 6),
    (0x08A40526, .subB 5 4 0 0 1 6),
    (0x08A40C06, .subTsv 5 4 0 0 0 6),
    (0x08A40CC6, .subTsvTc 5 4 0 0 0 6),
    (0x08A40D06, .subBTsv 5 4 0 0 0 6),
    (0x08A40206, .and 5 4 0 0 0 6),
    (0x08A40006, .andcm 5 4 0 0 0 6),
    (0x08050246, .or 0 5 0 0 0 6),
    (0x08A40286, .xor 5 4 0 0 0 6),
    (0x08A40886, .cmpclr 5 4 0 0 0 6)] = true := by decide +kernel

theorem test_decode_computation_2 : decodesAll [
    (0x08A40386, .uxor 5 4 0 0 0 6),
    (0x08E40986, .uaddcm 7 4 0 0 0 6),
    (0x08A409C6, .uaddcmTc 5 4 0 0 0 6),
    (0x08A40686, .shladd 5 4 0 0 2 0 6),
    (0x08A40AC6, .shladdL 5 4 0 0 3 0 6),
    (0x08A40E46, .shladdTsv 5 4 0 0 1 0 6),
    (0x08A40446, .ds 5 4 0 0 6),
    (0x08C00B86, .dcor 6 0 0 0 6),
    (0x08800BC6, .dcorI 4 0 0 0 6),
    (0xB4860802, .addi 4 6 0 0 1 2),
    (0xB0860802, .addiTc 4 6 0 0 1 2),
    (0x948607FF, .subi 4 6 0 0 0 2047),
    (0x9080200A, .cmpiclr 4 0 1 0 0 10)] = true := by decide +kernel

theorem test_decode_shift_extract_deposit : decodesAll [
    (0xD0A00006, .shrpwSar 5 0 0 6),
    (0xD0A00206, .shrpdSar 5 0 0 6),
    (0xD0A40AE6, .shrpwFixed 5 4 0 23 6),
    (0xD0A40EE6, .shrpdFixed 5 4 0 1 23 6),
    (0xD0851016, .extrwSar 4 5 0 0 22),
    (0xD0851700, .extrdSar 4 5 0 1 1 0),
    (0xD0851AF8, .extrwFixed 4 5 0 0 23 24),
    (0xD8851B0E, .extrdFixed 4 5 0 1 1 0 24 14),
    (0xD4A40416, .depwSar 5 4 0 1 22),
    (0xD4A40618, .depdSar 5 4 0 1 0 24),
    (0xD4C50884, .depwFixed 6 5 0 0 4 4),
    (0xD4B21416, .depwiSar 5 18 0 1 22),
    (0xD4B21618, .depdiSar 5 18 0 1 0 24),
    (0xD4EA1A1C, .depwiFixed 7 10 0 0 16 28),
    (0xF0A414EE, .depdFixed 5 4 0 1 0 1 7 14),
    (0xF4BF0418, .depdiFixed 5 31 0 0 0 1 0 24)] = true := by decide +kernel

theorem test_decode_halfword_1 : decodesAll [
    (0x08A403C6, .hadd 5 4 6),
    (0x08A40346, .haddSs 5 4 6),
    (0x08A40306, .haddUs 5 4 6),
    (0x08A401C6, .hsub 5 4 6),
    (0x08A40146, .hsubSs 5 4 6),
    (0x08A40106, .hsubUs 5 4 6),
    (0x08A402C6, .havg 5 4 6),
    (0x08A40786, .hshladd 5 4 2 6),
    (0x08A40546, .hshradd 5 4 1 6),
    (0xF80488C6, .hshl 4 3 6),
    (0xF880C8C6, .hshrU 4 3 6),
    (0xF880CCC6, .hshrS 4 3 6),
    (0xF8A48406, .mixhL 5 4 6),
    (0xF8A4C406, .mixhR 5 4 6),
    (0xF8A48006, .mixwL 5 4 6),
    (0xF8A4C006, .mixwR 5 4 6)] = true := by decide +kernel

theorem test_decode_halfword_2 : decodesAll [
    (0xF8846906, .permh 4 4 3 2 1 0 6)] = true := by decide +kernel

theorem test_decode_system_control : decodesAll [
    (0x00010004, .brk 8 4),
    (0x00010D64, .ssm 1 4),
    (0x00010E64, .rsm 1 4),
    (0x00041860, .mtsm 4),
    (0x006010A4, .ldsid 3 0 4),
    (0x00045820, .mtsp 4 2),
    (0x000024A5, .mfsp 1 5),
    (0x01641840, .mtctl 11 4),
    (0x016418C0, .mtsarcm 4),
    (0x020008A4, .mfctl 16 0 4),
    (0x000014A4, .mfia 4),
    (0x14000000, .diag 0),
    (0x00000400, .sync),
    (0x00100400, .syncdma),
    (0x00000C00, .rfi),
    (0x00000CA0, .rfiR)] = true := by decide +kernel

theorem test_decode_cache_tlb_1 : decodesAll [
    (0x04A40800, .iitlbt 5 4),
    (0x04602200, .pitlb 3 0 1 0),
    (0x04604600, .pitlbL 3 0 2 0),
    (0x04602240, .pitlbe 3 0 1 0),
    (0x046442A0, .ficExplicit 3 4 2 1),
    (0x046442E0, .fice 3 4 2 1),
    (0x04A41800, .idtlbt 5 4),
    (0x04645220, .pdtlb 3 4 1 1),
    (0x04601600, .pdtlbL 3 0 0 0),
    (0x04601240, .pdtlbe 3 0 0 0),
    (0x046412A0, .fdcIndexed 3 4 0 1),
    (0x04703280, .fdcShort 3 16 0),
    (0x046412E0, .fdce 3 4 0 1),
    (0x0464D3A0, .pdc 3 4 3 1),
    (0x046013C0, .ficImplicit 3 0 0 0),
    (0x04641185, .probeR 3 4 0 5)] = true := by decide +kernel

theorem test_decode_cache_tlb_2 : decodesAll [
    (0x046491C5, .probeW 3 4 2 5),
    (0x04627187, .probeiR 3 2 1 7),
    (0x046071C7, .probeiW 3 0 1 7),
    (0x04645365, .lpa 3 4 1 1 5),
    (0x04601305, .lci 3 0 0 5)] = true := by decide +kernel

theorem test_decode_assist_1 : decodesAll [
    (0x100008E1, .spop0 1 3 1 1),
    (0x100002C5, .spop1 0 3 0 5),
    (0x108004C0, .spop2 4 0 3 0 0),
    (0x10A406C0, .spop3 5 4 0 3 0 0),
    (0x30000280, .pmdis 0),
    (0x30000040, .copr1 0 0 0),
    (0x300000C0, .copr3 0 0 0),
    (0x30000100, .copr4to7 0 0 0 0),
    (0x24652087, .cldwIndexed2 3 5 0 1 0 0 0 7),
    (0x247010C7, .cldwShort2 3 16 0 0 0 1 0 7),
    (0x24652107, .cldwIndexed4 3 5 0 1 0 0 0 7),
    (0x24701107, .cldwShort4 3 16 0 0 0 0 0 7),
    (0x246522A7, .cstwIndexed2 3 5 0 1 0 0 1 7),
    (0x247012C7, .cstwShort2 3 16 0 0 0 1 0 7),
    (0x24652327, .cstwIndexed4 3 5 0 1 0 0 1 7),
    (0x24701307, .cstwShort4 3 16 0 0 0 0 0 7)] = true := by decide +kernel

theorem test_decode_assist_2 : decodesAll [
    (0x2C650087, .clddIndexed2 3 5 0 0 0 0 0 7),
    (0x2C7010C7, .clddShort2 3 16 0 0 0 1 0 7),
    (0x2C650107, .clddIndexed4 3 5 0 0 0 0 0 7),
    (0x2C713127, .clddShort4 3 17 0 1 0 0 1 7),
    (0x2C600287, .cstdIndexed2 3 0 0 0 0 0 0 7),
    (0x2C7012E7, .cstdShort2 3 16 0 0 0 1 1 7),
    (0x2C600307, .cstdIndexed4 3 0 0 0 0 0 0 7),
    (0x2C701327, .cstdShort4 3 16 0 0 0 0 1 7),
    (0x30000680, .pmenb)] = true := by decide +kernel

theorem test_decode_fp_load_store : decodesAll [
    (0x5C650042, .fldwLong 3 5 0 8 1 0),
    (0x58653FC5, .fldwLongMod 3 5 0 2040 1 0 1),
    (0x24681066, .fldwShort 3 8 0 0 0 1 1 6),
    (0x24652047, .fldwIndexed 3 5 0 1 0 1 0 7),
    (0x7C650042, .fstwLong 3 5 0 8 1 0),
    (0x78653FC5, .fstwLongMod 3 5 0 2040 1 0 1),
    (0x24681266, .fstwShort 3 8 0 0 0 1 1 6),
    (0x24652227, .fstwIndexed 3 5 0 1 0 0 1 7),
    (0x50653F8F, .flddLong 3 5 0 1016 1 1 1),
    (0x2C701804, .flddShort 3 16 0 0 2 0 4),
    (0x2C652007, .flddIndexed 3 5 0 1 0 0 7),
    (0x7065008A, .fstdLong 3 5 0 8 1 0 0),
    (0x2C701224, .fstdShort 3 16 0 0 0 1 4),
    (0x2C652207, .fstdIndexed 3 5 0 1 0 0 7)] = true := by decide +kernel

theorem test_decode_fp_operation_1 : decodesAll [
    (0x30A04806, .fcpy 5 1 6),
    (0x38A04086, .fcpyE 5 0 1 0 6),
    (0x30806807, .fabs 4 1 7),
    (0x38806047, .fabsE 4 0 0 1 7),
    (0x31008809, .fsqrt 8 1 9),
    (0x39008809, .fsqrtE 8 1 0 0 9),
    (0x3100A009, .frnd 8 0 9),
    (0x3900A809, .frndE 8 1 0 0 9),
    (0x3140C80B, .fneg 10 1 11),
    (0x3940C0CB, .fnegE 10 0 1 1 11),
    (0x3180E80D, .fnegabs 12 1 13),
    (0x3980E08D, .fnegabsE 12 0 1 0 13),
    (0x30802205, .fcnvFF 4 1 0 5),
    (0x38802285, .fcnvFFE 4 1 0 1 0 5),
    (0x3080A205, .fcnvXF 4 1 0 5),
    (0x3880A285, .fcnvXFE 4 1 0 1 0 5)] = true := by decide +kernel

theorem test_decode_fp_operation_2 : decodesAll [
    (0x30A10A06, .fcnvFX 5 0 1 6),
    (0x38A10A46, .fcnvFXE 5 0 1 0 1 6),
    (0x30A18A06, .fcnvFXT 5 0 1 6),
    (0x38A18A46, .fcnvFXTE 5 0 1 0 1 6),
    (0x3082A205, .fcnvUF 4 1 0 5),
    (0x3882A285, .fcnvUFE 4 1 0 1 0 5),
    (0x30A32A06, .fcnvFU 5 1 1 6),
    (0x38A32A46, .fcnvFUE 5 1 1 0 1 6),
    (0x30A38206, .fcnvFUT 5 0 0 6),
    (0x38A38286, .fcnvFUTE 5 0 0 1 0 6),
    (0x30850C09, .fcmp 4 5 0 1 9),
    (0x3885049A, .fcmpE 4 5 0 0 0 1 26),
    (0x30002420, .ftest 1 0),
    (0x30850E06, .fadd 4 5 1 6),
    (0x38851646, .faddE 4 5 1 0 0 1 6),
    (0x30852E06, .fsub 4 5 1 6)] = true := by decide +kernel

theorem test_decode_fp_operation_3 : decodesAll [
    (0x38853646, .fsubE 4 5 1 0 0 1 6),
    (0x30854E06, .fmpy 4 5 1 6),
    (0x38855646, .fmpyE 4 5 1 0 0 1 6),
    (0x30856E06, .fdiv 4 5 1 6),
    (0x38856E06, .fdivE 4 5 0 1 0 0 6),
    (0x38855706, .xmpyu 4 5 1 0 6),
    (0x188541C6, .fmpyadd 4 5 8 7 0 6),
    (0x988541C6, .fmpysub 4 5 8 7 0 6),
    (0xB8852C07, .fmpyfadd 4 5 1 0 1 4 0 0 7),
    (0xB8852C27, .fmpynfadd 4 5 1 0 1 4 0 0 7),
    (0x30000000, .fid)] = true := by decide +kernel

/-- Words of undefined encodings are refused by name: undefined major opcodes (95_test_vectors.md V178), a logical condition 4
(43_computation.md R540), an undefined and a reserved floating-point sub-opcode (50_fp_instructions.md R912), an undefined performance
monitor sub-opcode (48_assist_sfu_copr.md R770). -/
theorem test_decode_refuses :
    decode 0x1C000000 = .error .illegal ∧ decode 0xFC000000 = .error .illegal ∧ decode 0x3C000000 = .error .illegal ∧
    decode 0x08A48206 = .error .illegal ∧ decode 0x30002000 = .error .fpUndefined ∧ decode 0x30008600 = .error .fpReserved ∧
    decode 0x300000A0 = .error .pmUndefined := by decide +kernel

/-! ### Well-formedness: an ill-formed term for each check -/

theorem test_wellFormed_logical : (Instr.and 5 4 4 0 0 6).wellFormed = false ∧ (Instr.andcm 5 4 5 0 1 6).wellFormed = false ∧
    (Instr.or 5 4 6 1 0 6).wellFormed = false ∧ (Instr.xor 5 4 4 0 0 6).wellFormed = false := by decide
theorem test_wellFormed_unit : (Instr.uaddcm 5 4 1 0 0 6).wellFormed = false ∧ (Instr.uaddcmTc 5 4 5 0 0 6).wellFormed = false ∧
    (Instr.dcor 4 5 0 0 6).wellFormed = false ∧ (Instr.dcorI 4 1 0 0 6).wellFormed = false := by decide
theorem test_wellFormed_uxor : (Instr.uxor 5 4 4 0 1 6).wellFormed = false ∧ (Instr.uxor 5 4 1 0 0 6).wellFormed = false := by decide
theorem test_wellFormed_shladd : (Instr.shladd 5 4 0 0 0 0 6).wellFormed = false ∧ (Instr.shladdL 5 4 0 0 0 0 6).wellFormed = false ∧
    (Instr.shladdTsv 5 4 0 0 0 0 6).wellFormed = false ∧ (Instr.hshladd 5 4 0 6).wellFormed = false ∧
    (Instr.hshradd 5 4 0 6).wellFormed = false := by decide
theorem test_wellFormed_bts : (Instr.pushbts 0).wellFormed = false ∧ (Instr.popbts 0).wellFormed = false := by decide
theorem test_wellFormed_format : (Instr.fcpy 5 2 6).wellFormed = false ∧ (Instr.fadd 4 5 2 6).wellFormed = false ∧
    (Instr.fcmp 4 5 0 2 9).wellFormed = false ∧ (Instr.fcnvXF 4 2 0 5).wellFormed = false ∧
    (Instr.fcnvFX 4 0 2 5).wellFormed = false := by decide
theorem test_wellFormed_fcnv : (Instr.fcnvFF 4 1 1 5).wellFormed = false ∧ (Instr.fcnvFFE 4 0 0 0 0 5).wellFormed = false := by decide
theorem test_wellFormed_ftest : (Instr.ftest 1 3).wellFormed = false ∧ (Instr.ftest 0 1).wellFormed = false := by decide

/-! ### Single steps -/

/-- The next state of an outcome. -/
def after (o : Host.Outcome State Fault Refusal) : State := match o with | .next t => t | _ => State.reset

/-- Is the outcome a next state? -/
def goes (o : Host.Outcome State Fault Refusal) : Bool := match o with | .next _ => true | _ => false

/-- Is the outcome this refusal? -/
def refuses (o : Host.Outcome State Fault Refusal) (r : Refusal) : Bool := match o with | .refused q => q == r | _ => false

/-- A state with these general registers. -/
def regs (s : State) (l : List (BitVec 5 × Dword)) : State := l.foldl (fun s p => s.writeGr p.1 p.2) s

/-- A state with these floating-point registers, the floating-point coprocessor enabled. -/
def fps (l : List (BitVec 5 × Dword)) : State := l.foldl (fun s p => s.writeFpr p.1 p.2) { State.reset with ccr := 0xC0 }

/-- The memory picture of 40_memory_reference.md R409 and its registers. -/
def picture : State :=
  regs { State.reset with
    mem := Memory.setBytes [] 0x1000 ([0x00, 0x11, 0x22, 0x33, 0x44, 0x55, 0x66, 0x77, 0x88, 0x99, 0xAA, 0xBB, 0xCC, 0xDD, 0xEE, 0xFF] : List Byte) }
    [(3, 0x1000), (4, 0x0123456789ABCDEF), (5, 2)]

/-- One step from `s` at which the word `w` is fetched. -/
def run (w : Nat) (s : State) : State := after (step (s.withFetchWord 32 w))

/-- The bytes of memory from `a` on. -/
def bytesAt (s : State) (a n : Nat) : List Byte := (List.range n).map fun k => s.mem.get (a + k)

/-- V20, V22 to V26, V28: loads. -/
theorem test_loads :
    (run 0x0C6A1004 picture).readGr 4 = 0x55 ∧ (run 0x0C652044 picture).readGr 4 = 0x4455 ∧
    (run 0x0C701084 picture).readGr 4 = 0x8899AABB ∧ (run 0x0C701084 (picture.setFlag Psw.E true)).readGr 4 = 0xBBAA9988 ∧
    (run 0x0C6810A4 picture).readGr 4 = 0x00112233 ∧ (run 0x0C6810A4 picture).readGr 3 = 0x1004 ∧
    (run 0x0C7930A4 (regs picture [(3, 0x1008)])).readGr 4 = 0x44556677 ∧
    (run 0x0C7930A4 (regs picture [(3, 0x1008)])).readGr 3 = 0x1004 ∧
    (run 0x0C6520A4 picture).readGr 3 = 0x1008 ∧ (run 0x0C7010C4 picture).readGr 4 = 0x8899AABBCCDDEEFF := by decide +kernel

/-- V30 to V33, V37 to V41: stores. -/
theorem test_stores :
    (run 0x0C64120A picture).mem.get 0x1005 = 0xEF ∧ bytesAt (run 0x0C641244 picture) 0x1001 4 = [0x11, 0xCD, 0xEF, 0x44] ∧
    bytesAt (run 0x0C641290 (picture.setFlag Psw.E true)) 0x1008 4 = [0xEF, 0xCD, 0xAB, 0x89] ∧
    bytesAt (run 0x0C6412D0 picture) 0x1008 8 = [0x01, 0x23, 0x45, 0x67, 0x89, 0xAB, 0xCD, 0xEF] ∧
    bytesAt (run 0x0C641302 picture) 0x1000 5 = [0x00, 0xAB, 0xCD, 0xEF, 0x44] ∧
    bytesAt (run 0x0C643306 picture) 0x1000 4 = [0x89, 0xAB, 0xCD, 0x33] ∧
    bytesAt (run 0x0C641346 picture) 0x1002 6 = [0x22, 0x67, 0x89, 0xAB, 0xCD, 0xEF] ∧
    bytesAt (run 0x0C64334A picture) 0x1000 6 = [0x01, 0x23, 0x45, 0x67, 0x89, 0x55] := by decide +kernel

/-- V34 to V36, V42: absolute loads and semaphores. -/
theorem test_absolute_and_semaphore :
    (run 0x0C601184 picture).readGr 4 = 0x00112233 ∧ (run 0x0C6011C4 picture).readGr 4 = 0x00112233 ∧
    bytesAt (run 0x0C6011C4 picture) 0x1000 5 = [0, 0, 0, 0, 0x44] ∧ (run 0x0C601144 picture).readGr 4 = 0x0011223344556677 ∧
    refuses (step (picture.withFetchWord 32 0x0C650184)) .unalignedAbsolute = true := by decide +kernel

/-- V50, V51, V53 to V56: immediates. -/
theorem test_immediates :
    (run 0x34050034 picture).readGr 5 = 26 ∧ (run 0x34053FFF picture).readGr 5 = 0xFFFFFFFFFFFFFFFF ∧
    (run 0x20A26246 picture).readGr 5 = 0x12345000 ∧ (run 0x20BFFFFF picture).readGr 5 = 0xFFFFFFFFFFFFF800 ∧
    (run 0x20A00001 picture).readGr 5 = 0xFFFFFFFF80000000 ∧ (run 0x28826246 (regs picture [(4, 0x1000)])).readGr 1 = 0x12346000 := by
  decide +kernel

/-- V60 to V65 at 0x1000, V67, V69 to V74: branches. -/
theorem test_branches :
    let at0 : State := { regs State.reset [(2, 0x2003), (5, 2)] with iaoqFront := 0x1000, iaoqBack := 0x1004 }
    (run 0xE800A800 at0).readGr 2 = 0x1008 ∧ (run 0xE800A800 at0).iaoqFront = 0x1004 ∧ (run 0xE800A800 at0).iaoqBack = 0x1408 ∧
    (run 0xE800A800 at0).flag Psw.B = true ∧ (run 0xE81F1FF7 at0).iaoqBack = 0x1000 ∧ (run 0xE81F1FF7 at0).flag Psw.N = true ∧
    (run 0xE8054000 at0).iaoqBack = 0x1018 ∧ (run 0xE840C000 at0).iaoqBack = 0x2003 ∧
    (run 0xACBF3FED (regs at0 [(5, 1)])).flag Psw.B = false ∧ (run 0xACBF3FED (regs at0 [(5, 5)])).readGr 5 = 4 ∧
    (run 0xACBF3FED (regs at0 [(5, 5)])).iaoqBack = 0xFFC ∧ (run 0xA800E00A at0).flag Psw.B = true ∧
    (run 0xA800E00A (at0.setFlag Psw.W true)).flag Psw.B = false ∧ (run 0xC4A74020 (regs at0 [(7, 0x04000000)])).iaoqBack = 0x1018 ∧
    (run 0xC4A74020 (regs at0 [(7, 0x02000000)])).flag Psw.B = false := by decide +kernel

/-- V80 to V85 (but V80's C/B, where R532 and 10_state.md R57 are followed), V90, V91: arithmetic. -/
theorem test_computation :
    let add (a b : Dword) := after (exec (.add 5 4 0 0 0 6) (regs State.reset [(4, a), (5, b)]))
    (add 0x7FFFFFFF 1).readGr 6 = 0x80000000 ∧ (add 0x7FFFFFFF 1).carryBorrow = 0x007F ∧
    (run 0xB4860002 (regs State.reset [(4, 0xFFFFFFFFFFFFFFFF)])).carryBorrow = 0xFFFF ∧
    (run 0x08A40686 (regs State.reset [(4, 5), (5, 3)])).readGr 6 = 23 ∧
    (run 0x08A40406 (regs State.reset [(4, 5), (5, 7)])).readGr 6 = 0xFFFFFFFFFFFFFFFE ∧
    (run 0x08A40406 (regs State.reset [(4, 5), (5, 7)])).carryBorrow = 0 ∧
    (run 0x08A40446 ((regs State.reset [(4, 3), (5, 5)]).setCarryBorrow 0x0080)).readGr 6 = 0xC ∧
    (run 0x08A42886 (regs State.reset [(4, 7), (5, 0x100000007)])).flag Psw.N = true ∧
    (run 0x08A428A6 (regs State.reset [(4, 7), (5, 0x100000007)])).flag Psw.N = false := by decide +kernel

/-- V80's trap, P5: packed decimal addition's last two instructions. -/
theorem test_trap_and_decimal :
    (run 0x08A40E06 (regs { State.reset with iva := 0x8000 } [(4, 0x7FFFFFFF), (5, 1)])).iaoqFront = 0x8180 ∧
    (run 0x08A60606 (regs State.reset [(6, 0x666666666666789A), (5, 0x5678)])).readGr 6 = 0x666666666666CF12 ∧
    (run 0x08A60606 (regs State.reset [(6, 0x666666666666789A), (5, 0x5678)])).carryBorrow = 0x0003 ∧
    (run 0x08C00B86 ((regs State.reset [(6, 0x666666666666CF12)]).setCarryBorrow 0x0003)).readGr 6 = 0x6912 := by decide +kernel

/-- V100 to V107: shifts, extracts and deposits (of the word forms, whose upper half is free, the function that gives the lower). -/
theorem test_fields :
    let x : Dword := 0x0123456789ABCDEF
    let y : Dword := 0xFEDCBA9876543210
    let s := regs State.reset [(4, x), (5, y)]
    (run 0xD0A40EE6 s).readGr 6 = 0xEFFEDCBA98765432 ∧ low32 (shiftPairWord x y 8) = 0xEF765432 ∧
    (run 0xD8851B0E s).readGr 5 = 0x0002468ACF13579B ∧ low32 (extractField 32 false x 23 8) = 0xCD ∧
    (run 0xF0A414EE (regs State.reset [(5, 0xFFFFFFFFFFFFFFFF)])).readGr 5 = 0xFE0000000000007F ∧
    (run 0xF4BF0418 s).readGr 5 = 0xFEDCBA98765432FF ∧ low32 (depositField 32 0 0x12345678 27 28) = 0x23456780 ∧
    low32 (depositField 32 0 5 15 4) = 0x00050000 := by decide +kernel

/-- V120 to V129: halfwords. -/
theorem test_halfwords :
    let s := regs State.reset [(4, 0x7FFF8000FFFF0001), (5, 0x00018000FFFF7FFF)]
    let m := regs State.reset [(4, 0x1111222233334444), (5, 0xAAAABBBBCCCCDDDD)]
    (run 0x08A403C6 s).readGr 6 = 0x80000000FFFE8000 ∧ (run 0x08A40346 s).readGr 6 = 0x7FFF8000FFFE7FFF ∧
    (run 0x08A40306 s).readGr 6 = 0x80000000FFFE8000 ∧ (run 0x08A401C6 s).readGr 6 = 0x7FFE000000008002 ∧
    (run 0x08A40106 s).readGr 6 = 0x7FFEFFFFFFFF0000 ∧ (run 0x08A402C6 s).readGr 6 = 0x40008000FFFF4000 ∧
    (run 0x08A40786 (regs s [(4, 0x2000E0004000FFFF), (5, 0x0001000180000001)])).readGr 6 = 0x7FFF80017FFFFFFD ∧
    (run 0x08A40546 s).readGr 6 = 0x40008000FFFE7FFF ∧ (run 0xF80488C6 s).readGr 6 = 0xFFF80000FFF80008 ∧
    (run 0xF880CCC6 s).readGr 6 = 0x0FFFF000FFFF0000 ∧ (run 0xF8A48406 m).readGr 6 = 0x1111AAAA3333CCCC ∧
    (run 0xF8A4C406 m).readGr 6 = 0x2222BBBB4444DDDD ∧ (run 0xF8A48006 m).readGr 6 = 0x11112222AAAABBBB ∧
    (run 0xF8844346 m).readGr 6 = 0x3333111144442222 := by decide +kernel

/-- V130, V132 to V141, V143: system control. -/
theorem test_system_control :
    let q : State := { State.reset with psw := 0x8, iva := 0x8000, sar := 37, eirr := 0xF0 }
    let u : State := { q with iaoqFront := 3, iaoqBack := 7 }
    (run 0x00010004 q).iaoqFront = 0x8120 ∧ (run 0x00010004 q).iir = 0x00010004 ∧ (run 0x14000000 u).iaoqFront = 0x8140 ∧
    (run 0x006010A4 ((regs q [(3, 0xC0001000)]).writeSr 7 0x1234)).readGr 4 = 0x1234 ∧ (run 0x00047820 u).iaoqFront = 0x8160 ∧
    (run 0x01641840 (regs q [(4, 0xFFFFFFFFFFFFFFC5)])).sar = 5 ∧ (run 0x02E41840 (regs q [(4, 0x30)])).eirr = 0xC0 ∧
    (run 0x016418C0 (regs q [(4, 0x47)])).sar = 56 ∧ (run 0x016048A4 q).readGr 4 = 37 ∧ (run 0x016008A4 q).readGr 4 = 5 ∧
    (run 0x000014A4 { q with iaoqFront := 0x4013 }).readGr 4 = 0x4010 ∧ (run 0x00010D64 { q with psw := 0x0E }).readGr 4 = 0x0E ∧
    (run 0x00010D64 { q with psw := 0x0E }).psw = 0x0F ∧ (run 0x00041860 (regs q [(4, 0x0800000F)])).psw = 0x0800000F := by
  decide +kernel

/-- V144: a return from interruption. -/
theorem test_return :
    let s : State := { State.reset with ipsw := 0x4000F, iiaoqFront := 0x4003, iiaoqBack := 0x4007, iiasqFront := 0x22, iiasqBack := 0x22 }
    (run 0x00000C00 s).psw = 0x4000F ∧ (run 0x00000C00 s).iasqFront = 0x22 ∧ (run 0x00000C00 s).iaoqFront = 0x4003 ∧
    (run 0x00000C00 s).iaoqBack = 0x4007 := by decide +kernel

/-- The data TLB of V151: the entry that IDTLBT inserts, with SR 1 the space and GR 3 the address. -/
def translated : State :=
  let s : State := { regs State.reset [(3, 0x40001ABC), (4, 0xABCDE0), (5, 0x1100000000000000)] with isr := 0x123, ior := 0x40001ABC }
  ((run 0x04A41800 s).writeSr 1 0x123).writeSr 5 0x123

/-- V151 to V154: insertion, LPA, the probes, a purge. -/
theorem test_tlb :
    (translated.dtlb.map fun e => (e.ppn, e.size, e.rights, e.d)) = [(0x55E6F, 0, 0b0010000, true)] ∧
    (run 0x04605345 translated).readGr 5 = 0x55E6FABC ∧ (run 0x04645185 (regs translated [(4, 0)])).readGr 5 = 1 ∧
    (run 0x046451C5 (regs translated [(4, 3)])).readGr 5 = 0 ∧
    (run 0x04605200 (regs translated [(3, 0x40012002)])).dtlb.length = 1 ∧
    (run 0x04605200 (regs translated [(3, 0x40002002)])).dtlb = [] := by decide +kernel

/-- V160 to V163: assist emulation traps, and the performance monitor with its configuration bit 1. -/
theorem test_assists :
    let q : State := { picture with psw := 0x8, iva := 0x8000 }
    (run 0x100002C5 q).iaoqFront = 0x82C0 ∧ (run 0x100002C5 q).iir = 0x100002C5 ∧ (run 0x30000100 q).iaoqFront = 0x82C0 ∧
    (run 0x24701107 q).iaoqFront = 0x82C0 ∧ (run 0x30000280 q).iaoqFront = 0x82C0 ∧
    (run 0x30000680 { q with ccr := 0x20 }).measurementEnabled = true ∧
    (run 0x300002A0 { q with ccr := 0x20, measurementEnabled := true }).flag Psw.N = true ∧
    (run 0x300002A0 { q with ccr := 0x20 }).flag Psw.N = false := by decide +kernel

/-- V170, V171: an unaligned data reference trap, with PSW[Q] = 1 and 0. -/
theorem test_interruption :
    let e : TlbEntry := { gva := 0x0000000000000022#64 ++ 0x00005000#32, ppn := 5, size := 0, rights := 0b0011111, accessId := 0, t := false,
                          d := true, b := false, u := false, o := false, p := false }
    let c : TlbEntry := { e with gva := 0x0000000000000022#64 ++ 0x00004000#32, ppn := 4, rights := 0b0101100 }
    let s : State := { (regs State.reset [(1, 1), (3, 0x5002), (25, 25)]).writeSr 4 0x22 with
                       psw := 0x4000F, iva := 0x100000, iaoqFront := 0x4003, iaoqBack := 0x4007, iasqFront := 0x22, iasqBack := 0x22, dtlb := [e],
                       itlb := [c] }
    let t := run 0x48640000 s
    let t' := run 0x48640000 { s with psw := 0x40007 }
    t.ipsw = 0x4000F ∧ t.psw = 0 ∧ t.iiasqFront = 0x22 ∧ t.iiaoqFront = 0x4003 ∧ t.iiaoqBack = 0x4007 ∧ t.iir = 0x48640000 ∧ t.isr = 0x22 ∧
    t.ior = 0x5002 ∧ t.shr[0] = 1 ∧ t.shr[6] = 25 ∧ t.iaoqFront = 0x100380 ∧ t.iaoqBack = 0x100384 ∧
    t'.ipsw = 0x40007 ∧ t'.iir = 0 ∧ t'.isr = 0 ∧ t'.iaoqFront = 0x100380 := by decide +kernel

/-- V172, V173, V175, V178, V179: the recovery counter, the interval timer, an illegal word, a nullified instruction. -/
theorem test_interruption_sources :
    (run 0x08000240 { State.reset with psw := 0x10, rctr := 1 }).rctr = 0 ∧
    (run 0x08000240 { State.reset with psw := 0x10, rctr := 0xFFFFFFFF, iva := 0x8000 }).iaoqFront = 0x8060 ∧
    (run 0x08000240 { State.reset with itmrCompare := 1 }).eirr = 0x80000000 ∧
    (run 0xFC000000 { State.reset with psw := 0x8, iva := 0x8000 }).iaoqFront = 0x8100 ∧
    (after (step (State.reset.setFlag Psw.N true))).iaoqFront = 4 ∧
    (run 0x08000240 { State.reset with eirr := 0x4000000, eiem := 0xFFFFFFFFFFFFFFFF, psw := 1, iva := 0x8000 }).iaoqFront = 0x8080 := by
  decide +kernel

/-- V190 to V194: floating-point loads and stores. -/
theorem test_fp_memory :
    let s : State := { picture with ccr := 0xC0 }
    (run 0x24701006 (s.writeFpr 6 0x0123456789ABCDEF)).readFpr 6 = 0x8899AABB89ABCDEF ∧ (run 0x2C60101F s).readFpr 31 = 0x0011223344556677 ∧
    (run 0x2C71303E s).readGr 3 = 0x0FF8 ∧ bytesAt (run 0x24681266 (s.writeFpr 6 0x0123456789ABCDEF)) 0x1000 5 = [0x89, 0xAB, 0xCD, 0xEF, 0x44] ∧
    bytesAt (run 0x2C701224 (s.writeFpr 4 0x0123456789ABCDEF)) 0x1000 9 = [0x01, 0x23, 0x45, 0x67, 0x89, 0xAB, 0xCD, 0xEF, 0x88] := by
  decide +kernel

/-- V195 to V199: the unary operations. -/
theorem test_fp_unary :
    (run 0x30004808 (fps [(8, 5)])).readFpr 8 = 0 ∧ (run 0x30806807 (fps [(4, 0xFFF8000000000001)])).readFpr 7 = 0x7FF8000000000001 ∧
    (run 0x3140C80B (fps [(10, 0x3FF0000000000000)])).readFpr 11 = 0xBFF0000000000000 ∧
    (run 0x31008809 (fps [(8, 0x4000000000000000)])).readFpr 9 = 0x3FF6A09E667F3BCD ∧
    (run 0x31008809 (fps [(8, 0xBFF0000000000000)])).readFpr 9 = 0x7FF4000000000000 ∧
    (run 0x3100A009 (fps [(8, 0x4020000000000000)])).readFpr 9 = 0x4000000000000000 := by decide +kernel

/-- V200 to V206: conversions. -/
theorem test_fp_conversions :
    (run 0x30802205 (fps [(4, 0x7FA0000100000000)])).readFpr 5 = 0x7FF4000020000000 ∧
    (run 0x30A00A04 (fps [(5, 0x3FB999999999999A)])).readFpr 4 = 0x3DCCCCCD00000000 ∧
    (run 0x3080A205 (fps [(4, 0xFFFFFFFF00000000)])).readFpr 5 = 0xBFF0000000000000 ∧
    (run 0x30A10A06 (fps [(5, 0x400C000000000000)])).readFpr 6 = 0x0000000400000000 ∧
    (run 0x30A18A06 (fps [(5, 0xC004000000000000)])).readFpr 6 = 0xFFFFFFFE00000000 ∧
    (run 0x3082A205 (fps [(4, 0xFFFFFFFF00000000)])).readFpr 5 = 0x41EFFFFFFFE00000 ∧
    (run 0x30A32A06 (fps [(5, 0x4004000000000000)])).readFpr 6 = 2 := by decide +kernel

/-- V207, V208: compare and test. -/
theorem test_fp_compare :
    (run 0x30850C09 (fps [(4, 0x3FF0000000000000), (5, 0x4000000000000000)])).readFpr 0 = 0x0400000000000000 ∧
    (run 0x30850C09 (fps [(4, 0x4000000000000000), (5, 0x4000000000000000)])).readFpr 0 = 0 ∧
    (run 0x30850C09 (fps [(4, 0x7FF4000000000000), (5, 0x4000000000000000)])).readFpr 0 = 0x8000000000000000 ∧
    (run 0x30002420 (fps [(0, 0x0400000000000000)])).flag Psw.N = true := by decide +kernel

/-- V209 to V213: the binary operations, in the rounding modes 0, 2 and 3. -/
theorem test_fp_arithmetic :
    (run 0x30850E06 (fps [(4, 0x3FF0000000000000), (5, 0x4000000000000000)])).readFpr 6 = 0x4008000000000000 ∧
    (run 0x30850E06 (fps [(4, 0x4340000000000000), (5, 0x3FF0000000000000)])).readFpr 6 = 0x4340000000000000 ∧
    (run 0x30850E06 (fps [(0, 0x0000040000000000), (4, 0x4340000000000000), (5, 0x3FF0000000000000)])).readFpr 6 = 0x4340000000000001 ∧
    (run 0x30850E06 (fps [(0, 0x0000060000000000), (4, 0x3FF0000000000000), (5, 0xBFF0000000000000)])).readFpr 6 = 0x8000000000000000 ∧
    (run 0x30852E06 (fps [(4, 0x4008000000000000), (5, 0x3FF0000000000000)])).readFpr 6 = 0x4000000000000000 ∧
    (run 0x30854E06 (fps [(4, 0x7FEFFFFFFFFFFFFF), (5, 0x4000000000000000)])).readFpr 6 = 0x7FF0000000000000 ∧
    (run 0x30854E06 (fps [(4, 0x7FEFFFFFFFFFFFFF), (5, 0x4000000000000000)])).readFpr 0 = 0x2800000000000000 ∧
    (run 0x30856E06 (fps [(4, 0x3FF0000000000000), (5, 0x4008000000000000)])).readFpr 6 = 0x3FD5555555555555 ∧
    (run 0x30856E06 (fps [(4, 0x3FF0000000000000), (5, 0x8000000000000000)])).readFpr 6 = 0xFFF0000000000000 ∧
    (run 0x38855706 (fps [(4, 0xFFFFFFFF00000000), (5, 0xFFFFFFFF)])).readFpr 6 = 0xFFFFFFFE00000001 := by decide +kernel

/-- V214 to V217: multiple and fused operations. -/
theorem test_fp_multiple_and_fused :
    let s := fps [(4, 0x401C000000000000), (5, 0x4018000000000000), (7, 0x3FF0000000000000), (8, 0x4000000000000000), (6, 0x3FF0000000000000)]
    (run 0x188541C6 s).readFpr 6 = 0x4045000000000000 ∧ (run 0x188541C6 s).readFpr 8 = 0x4008000000000000 ∧
    (run 0x988541C6 s).readFpr 8 = 0x3FF0000000000000 ∧ (run 0xB8852C07 s).readFpr 7 = 0x4045800000000000 ∧
    (run 0xB8852C27 s).readFpr 7 = 0xC044800000000000 := by decide +kernel

/-- V211's trapped overflow, V219: exception register 1 and the T bit (bit 25 of the Status Register), then the delayed trap. -/
theorem test_fp_trap :
    let s := fps [(0, 0x0000000800000000), (4, 0x3FF0000000000000), (5, 0)]
    let t := run 0x30856E06 s
    (t.readFpr 0).getMsbD 25 = true ∧ ((t.readFpr 0).extractLsb' 26 6) = 0b010000#6 ∧ t.iaoqFront = 4 ∧
    (run 0x30850E06 { t with iva := 0x8000 }).iaoqFront = 0x81C0 ∧
    (run 0x30854E06 (fps [(0, 0x0000000400000000), (4, 0x7FEFFFFFFFFFFFFF), (5, 0x4000000000000000)])).readFpr 6 = 0x1FFFFFFFFFFFFFFF := by
  decide +kernel

/-! ### States and operands that meet the hypotheses of the statements -/

/-- `Plain` as a test. -/
def plainB (s : State) : Bool := !s.atEndOfSpace && !s.flag Psw.L && !s.flag Psw.H && !s.flag Psw.T

theorem plain_of {s : State} (h : plainB s = true) : Plain s := by
  simpa [plainB, Plain, and_assoc] using h

/-- `Reaches` as a test. -/
def reachesB (s : State) (k : RefKind) (e : Ea) (n pa : Nat) : Bool :=
  match e.resolve s with
  | .ok a =>
    match s.check k a n with
    | .ok p => region p.pa == .memory && p.pa.toNat == pa
    | .error _ => false
  | .error _ => false

theorem reaches_of {s : State} {k : RefKind} {e : Ea} {n pa : Nat} (h : reachesB s k e n pa = true) : Reaches s k e n pa := by
  unfold reachesB at h
  split at h
  · next a ha =>
    split at h
    · next p hp => exact ⟨a, p, ha, hp, by simpa using h⟩
    · cases h
  · cases h

/-- A page at 0x5000 of space 0. -/
def page (rights : BitVec 7) (d b t : Bool) : TlbEntry :=
  { gva := 0x5000, ppn := 5, size := 0, rights := rights, accessId := 0, t := t, d := d, b := b, u := false, o := false, p := false }

/-- Data translation enabled, these pages, and a base register. -/
def virt (tlb : List TlbEntry) (base : Dword) : State := regs { State.reset with psw := 2, dtlb := tlb } [(3, base)]

/-- Code translation enabled at 0x5000 with these pages. -/
def code (tlb : List TlbEntry) : State := { State.reset with psw := 0x40000, itlb := tlb, iaoqFront := 0x5000, iaoqBack := 0x5004 }

/-- Privilege level 3. -/
def user : State := { State.reset with iaoqFront := 3, iaoqBack := 7 }

/-- PSW[W] = 1. -/
def wide (s : State) : State := s.setFlag Psw.W true

theorem plain_reset : Plain State.reset := plain_of (by decide +kernel)

theorem witness_DecodeOfEncode : (Instr.shladd 5 4 0 0 3 0 6).wellFormed = true ∧ (Instr.popbts 511).wellFormed = true ∧
    (Instr.ftest 1 17).wellFormed = true := by decide

/-- The fields of a word that the statement names: op, uid, class, the subopcodes of classes 0, 2, 3 and of class 1, the format. -/
def fields (w : Word) : Word × BitVec 3 × BitVec 2 × BitVec 3 × BitVec 3 × BitVec 2 :=
  (w >>> 26, w.extractLsb' 6 3, w.extractLsb' 9 2, w.extractLsb' 13 3, w.extractLsb' 15 3, w.extractLsb' 11 2)

/-- One word for each clause, the unassigned ones first, by opcode. -/
theorem witness_UndefinedOpcodes :
    (¬Assigned 0x1C000000 ∧ ¬Assigned 0x30002000 ∧ ¬Assigned 0x38000000 ∧ ¬Assigned 0x2C000040 ∧ ¬Assigned 0x300006A0) ∧
    ((fields 0x10000000).1 = 0x04 ∧ (fields 0x27FFFFFF).1 = 0x09 ∧ (fields 0xDBFFFFFF).1 = 0x36 ∧ (fields 0xF3FFFFFF).1 = 0x3C ∧ (fields 0xF4000000).1 = 0x3D) ∧
    ((fields 0x1C000000).1 = 0x07 ∧ (fields 0x57FFFFFF).1 = 0x15 ∧ (fields 0x74000000).1 = 0x1D ∧ (fields 0xDC000000).1 = 0x37 ∧
     (fields 0xFFFFFFFF).1 = 0x3F ∧ (fields 0x3C000000).1 = 0x0F) ∧
    ((fields 0x00000020).1 = 0x00 ∧ (0x00000020#32).extractLsb' 5 8 = 0x01#8) ∧
    ((fields 0x00001841).1 = 0x00 ∧ (0x00001841#32).extractLsb' 5 8 = 0xC2#8 ∧ (0x00001841#32).extractLsb' 0 5 ≠ 0#5) ∧
    ((fields 0x04000300).1 = 0x01 ∧ (0x04000300#32).extractLsb' 12 1 = 0#1 ∧ (0x04000300#32).extractLsb' 6 7 = 0x0C#7) ∧
    ((fields 0x04001000).1 = 0x01 ∧ (0x04001000#32).extractLsb' 12 1 = 1#1 ∧ (0x04001000#32).extractLsb' 6 8 = 0x40#8) ∧
    ((fields 0x08000040).1 = 0x02 ∧ (0x08000040#32).extractLsb' 6 6 = 0x01#6) ∧
    ((fields 0x08008200).1 = 0x02 ∧ (0x08008200#32).extractLsb' 6 6 = 0x08#6 ∧ (fields 0x08008200).2.2.2.1 = 4#3) ∧
    ((fields 0x0800A980).1 = 0x02 ∧ (0x0800A980#32).extractLsb' 6 6 = 0x26#6 ∧ (0x0800A980#32).extractLsb' 5 1 = 0#1 ∧ (fields 0x0800A980).2.2.2.1 = 5#3) ∧
    ((fields 0x0800E3A0).1 = 0x02 ∧ (0x0800E3A0#32).extractLsb' 6 6 = 0x0E#6 ∧ (fields 0x0800E3A0).2.2.2.1 = 7#3) ∧
    ((fields 0x080003E0).1 = 0x02 ∧ (0x080003E0#32).extractLsb' 6 6 = 0x0F#6 ∧ (0x080003E0#32).extractLsb' 5 1 = 1#1) ∧
    ((fields 0x0C000200).1 = 0x03 ∧ (0x0C000200#32).extractLsb' 12 1 = 0#1 ∧ (0x0C000200#32).extractLsb' 9 1 = 1#1) ∧
    ((fields 0xD0000100).1 = 0x34 ∧ (0xD0000100#32).extractLsb' 10 3 = 0#3 ∧ (0xD0000100#32).extractLsb' 5 4 ≠ 0#4) ∧
    ((fields 0xD0001100).1 = 0x34 ∧ (0xD0001100#32).extractLsb' 11 2 = 2#2 ∧ (0xD0001100#32).extractLsb' 8 2 = 1#2) ∧
    ((fields 0xD4000020).1 = 0x35 ∧ (0xD4000020#32).extractLsb' 11 1 = 0#1 ∧ (0xD4000020#32).extractLsb' 5 3 ≠ 0#3) ∧
    ((fields 0xE8006000).1 = 0x3A ∧ (fields 0xE8006000).2.2.2.1 = 3#3 ∧ (fields 0xE800E000).2.2.2.1 = 7#3 ∧ (0xE800E000#32).extractLsb' 12 1 = 0#1) ∧
    ((fields 0xF800A000).1 = 0x3E ∧ (0xF800A000#32).extractLsb' 15 1 = 1#1 ∧ (0xF800A000#32).extractLsb' 13 1 = 1#1) := by
  refine ⟨by unfold Assigned; decide +kernel, ?_, ?_, ?_, ?_, ?_, ?_, ?_, ?_, ?_, ?_, ?_, ?_, ?_, ?_, ?_, ?_, ?_⟩ <;> decide +kernel

/-- The same of the floating-point and performance monitor words. -/
theorem witness_UndefinedOpcodes_assists :
    fields 0x30002000 = (0x0C, 0, 0, 1, 0, 0) ∧ fields 0x30001000 = (0x0C, 0, 0, 0, 0, 2) ∧ fields 0x30000200 = (0x0C, 0, 1, 0, 0, 0) ∧
    (fields 0x30004421 = (0x0C, 0, 2, 2, 0, 0) ∧ (0x30004421#32).extractLsb' 5 1 = 1#1 ∧ (0x30004421#32).extractLsb' 0 5 ≠ 0#5) ∧
    ((fields 0x38000000).1 = 0x0E ∧ (fields 0x38000000).2.2.1 = 0#2 ∧ (fields 0x38000000).2.2.2.1.toNat < 2) ∧
    ((fields 0x2C000040).1 = 0x0B ∧ (fields 0x2C000040).2.1 = 1#3) ∧
    (fields 0x30008600 = (0x0C, 0, 3, 4, 1, 0) ∧ (0x30008600#32).extractLsb' 5 1 = 0#1) ∧
    ((fields 0x3800A600).1 = 0x0E ∧ (fields 0x3800A600).2.2.1 = 3#2 ∧ (fields 0x3800A600).2.2.2.1 = 5#3 ∧
     (0x3800A600#32).extractLsb' 8 1 = 0#1 ∧ (0x3800A600#32).extractLsb' 5 1 = 0#1) ∧
    ((fields 0x30000080).1 = 0x0C ∧ (fields 0x30000080).2.1 = 2#3 ∧ (0x30000080#32).extractLsb' 9 5 ≠ 1#5 ∧ (0x30000080#32).extractLsb' 9 5 ≠ 3#5) := by
  refine ⟨?_, ?_, ?_, ?_, ?_, ?_, ?_, ?_, ?_⟩ <;> decide +kernel

/-- The rows of the decoder are those of the table. -/
theorem test_assigned_rows :
    (opcodeTable.all fun r => assignedWords.any fun g => g.1 == r.mask && g.2.contains r.bits) = true ∧
    opcodeTable.length = (assignedWords.map fun g => g.2.length).sum := by decide +kernel

/-- The configuration bits, and a reference allowed and not. -/
theorem witness_UndefinedOpcodes_states :
    (let s : State := { State.reset with ccr := 0xC0 }
     s.coprEnabled 0#3 = true ∧ s.coprEnabled 1#3 = true ∧ s.fpSequence ≠ .identified ∧ s.fpPending = false) ∧
    (let s : State := { State.reset with ccr := 0x80 }
     s.coprEnabled 0#3 ≠ s.coprEnabled 1#3) ∧
    (State.reset.coprEnabled 0#3 = false ∧ State.reset.coprEnabled 1#3 = false ∧ State.reset.ccr.getMsbD 2 = false ∧
     ({ State.reset with ccr := 0xFF } : State).ccr.getMsbD 2 = true) ∧
    (let s := picture.latch 0x2C601040
     (s.undefinedEa 0x2C601040).resolve s = .ok ⟨0, 0x1000, 0x1000⟩ ∧ s.check .load ⟨0, 0x1000, 0x1000⟩ 8 = .ok ⟨0x1000, false⟩) ∧
    (let s := (virt [] 0x5000).latch 0x2C601240
     (s.undefinedEa 0x2C601240).resolve s = .ok ⟨0, 0x5000, 0x5000⟩ ∧
     s.check .store ⟨0, 0x5000, 0x5000⟩ 8 = .error (.trap .dataTlbMiss (.data ⟨0, 0x5000, 0x5000⟩))) := by decide +kernel

theorem witness_StepRunsDecoded : let r : State := { State.reset.withFetchWord 32 0x34050034 with removals := [[⟨true, 0⟩]] }
    let s := r.passTime
    pendingInterruption s = none ∧ s.flag Psw.N = false ∧ s.fetch = .ok 0x34050034 ∧ decode 0x34050034 = .ok (.ldo 0 5 0 52) := by
  decide +kernel

/-- Two pages in each TLB, of which the next removals name one of the data TLB's. -/
def removing : State :=
  let l := [page 0b0011111 true false false, { page 0b0011111 true false false with gva := 0x7000, ppn := 7 }]
  { State.reset with dtlb := l, itlb := l, removals := [[⟨false, 0x5ABC⟩], [⟨true, 0x7000⟩]] }

/-- A data translation relied upon, whose removal comes, before the word `w`. -/
def reliedUponWord (w : Nat) : State :=
  { (virt [page 0b0011111 true false false] 0x5FFF).withFetchWord 32 w with
    removals := [[⟨false, 0x5ABC⟩]], relied := ⟨some 0x5000, none, none, false⟩ }

/-- The same before the instruction `i`. -/
def reliedUpon (i : Instr) : State := reliedUponWord (encode i).toNat

/-- Code translation and PSW[Q] on, in the middle of a page, seven instructions after a system mask instruction, before the instruction `i`. -/
def clearing (i : Instr) : State :=
  ({ code [page 0b0101100 true false false] with
      psw := 0x40008, iaoqFront := 0x5040, iaoqBack := 0x5044, relied := ⟨none, none, some (7, 0x503C), false⟩ } : State).withFetchWord 32 (encode i).toNat

theorem witness_HardwareRemovals :
    removing.removals.headD [] = [⟨false, 0x5ABC⟩] ∧ State.reset.removals = [] ∧ TlbOk removing.dtlb ∧
    tlbLookup removing.dtlb 0x5004 = some (page 0b0011111 true false false) ∧ (page 0b0011111 true false false).covers 0x5ABC = true ∧
    (tlbLookup removing.dtlb 0x7004).map (·.covers 0x5ABC) = some false ∧ tlbLookup removing.dtlb 0x9000 = none ∧ removing.keptData = none ∧
    (let s := reliedUpon (.ldo 0 5 0 52)
     s.removals.headD [] = [⟨false, 0x5ABC⟩] ∧ s.keptData = some 0x5000 ∧ s.coming = .executed 0x34050034 ∧ decode 0x34050034 = .ok (.ldo 0 5 0 52) ∧
     s.flag Psw.C = false ∧ majorOpcode 0x34050034 ≠ 0x01 ∧ majorOpcode 0x34050034 ≠ 0x05 ∧ s.virtualReference (.ldo 0 5 0 52) = none) ∧
    (let s := reliedUpon (.lpa 3 0 0 0 5)
     s.coming = .executed (encode (.lpa 3 0 0 0 5)) ∧ decode (encode (.lpa 3 0 0 0 5)) = .ok (.lpa 3 0 0 0 5) ∧ s.flag Psw.C = false ∧
     majorOpcode (encode (.lpa 3 0 0 0 5)) = 0x01 ∧ (s.indexedEa 3 0 0 0#1 0 0).resolveVirtual s = .ok ⟨0, 0x5FFF, 0x5FFF⟩ ∧
     tlbLookup s.dtlb 0x5000 = some (page 0b0011111 true false false) ∧ (page 0b0011111 true false false).covers (s.gva 0 0x5FFF) = true) :=
  ⟨by decide, by decide, ⟨by decide, by decide +kernel⟩, by decide +kernel⟩

/-- The premises about the instruction translation: an RSM of PSW[Q], and an instruction on its page after it. -/
theorem witness_HardwareRemovals_code :
    (let s := clearing (.rsm 8 0)
     s.coming = .executed (encode (.rsm 8 0)) ∧ decode (encode (.rsm 8 0)) = .ok (.rsm 8 0) ∧ s.flag Psw.Q = true ∧ (8#10).getLsbD 3 = true ∧
     s.flag Psw.C = true ∧ s.quietAhead = true ∧ s.relied.between = some (7, 0x503C) ∧ s.fetchEntry = some (page 0b0101100 true false false) ∧
     (page 0b0101100 true false false).covers 0x503C = true ∧ 8 ≤ (s.wordOnPage (page 0b0101100 true false false)).1) ∧
    (let s := clearing (.ldo 0 5 0 52)
     s.coming = .executed 0x34050034 ∧ s.flag Psw.C = true ∧ s.virtualReference (.ldo 0 5 0 52) = none ∧ s.quietAhead = true ∧
     onPage s.itlb 0x5040 s.here = true ∧ s.keptCode = none ∧ ({ s with relied := ⟨none, some 0x5040, none, false⟩ } : State).keptCode = some 0x5040) ∧
    Interruption.dataMemoryBreak.number = 19 ∧ Interruption.unalignedDataReference.number = 28 ∧ Interruption.breakInstruction.number = 9 ∧
    Interruption.lowPriorityMachineCheck.number = 5 ∧ ((State.reset.setFlag Psw.D true).flag Psw.D = true) := by
  decide +kernel

/-- A nullified memory management instruction refers to nothing: both windows outlive it. -/
theorem witness_HardwareRemovals_nullified :
    (let s := (reliedUpon (.fdcIndexed 3 0 0 0)).setFlag Psw.N true
     s.coming = .nullified (encode (.fdcIndexed 3 0 0 0)) ∧ decode (encode (.fdcIndexed 3 0 0 0)) = .ok (.fdcIndexed 3 0 0 0) ∧
     s.virtualReference (.fdcIndexed 3 0 0 0) = none ∧ s.flag Psw.C = false ∧ s.passTime.dtlb.map (·.ppn) = [5] ∧
     (reliedUpon (.fdcIndexed 3 0 0 0)).passTime.dtlb = []) ∧
    (let s := (clearing (.fdcIndexed 3 0 0 0)).setFlag Psw.N true
     s.coming = .nullified (encode (.fdcIndexed 3 0 0 0)) ∧ s.virtualReference (.fdcIndexed 3 0 0 0) = none ∧ s.flag Psw.C = true ∧
     onPage s.itlb 0x5040 s.here = true) := by decide +kernel

/-- A reserved floating-point word ends no window, an undefined one both. -/
theorem witness_HardwareRemovals_words :
    (let s := reliedUponWord 0x30008600
     s.coming = .executed 0x30008600 ∧ decode 0x30008600 = .error .fpReserved ∧ s.flag Psw.C = false ∧ s.passTime.dtlb.map (·.ppn) = [5]) ∧
    (let s := reliedUponWord 0x1C000000
     s.coming = .executed 0x1C000000 ∧ decode 0x1C000000 = .error .illegal ∧ s.passTime.dtlb = []) ∧
    (let s := (clearing (.diag 0)).withFetchWord 32 0x30008600
     s.coming = .executed 0x30008600 ∧ s.flag Psw.C = true ∧ s.quietAhead = true ∧ onPage s.itlb 0x5040 s.here = true) := by decide +kernel

/-- A data translation relied upon outlives its removal while an instruction that refers to nothing comes, and not under a DIAG. -/
theorem test_relied_data :
    (reliedUpon (.ldo 0 5 0 52)).passTime.dtlb.map (·.ppn) = [5] ∧ (reliedUpon (.diag 0)).passTime.dtlb = [] ∧
    (reliedUpon (.diag 0)).passTime.relied.data = none := by decide +kernel

/-- An RSM that clears PSW[Q] opens the window of its page; with too few instructions since the last system mask instruction it does not. -/
theorem test_relied_code :
    (after (step (clearing (.rsm 8 0)))).relied.code = some 0x5040 ∧
    (after (step { clearing (.rsm 8 0) with relied := ⟨none, none, some (6, 0x503C), false⟩ })).relied.code = none ∧
    (after (step (clearing (.ssm 0 0)))).relied.mask = true := by decide +kernel

/-- A removal takes the entry out of the one TLB, and the list of removals moves on. -/
theorem test_removal :
    (removing.passTime.dtlb.map (·.ppn), removing.passTime.itlb.map (·.ppn), removing.passTime.removals.length) = ([7], [5, 7], 1) ∧
    removing.passTime.passTime.itlb.map (·.ppn) = [5] := by decide +kernel

theorem witness_Fetch_absolute :
    (let s : State := { State.reset with iaoqFront := 0xEFFFFFFC }
     s.flag Psw.C = false ∧ s.flag Psw.W = false ∧ 0xEFFFFFFC < 0xF0000000 ∧ 0xEFFFFFFC = (low32 s.fetchOffset).toNat ∧
     s.flag Psw.E = false ∧ (s.setFlag Psw.E true).flag Psw.E = true ∧ (s.setFlag Psw.E true).flag Psw.C = false ∧
     (s.setFlag Psw.E true).flag Psw.W = false) ∧
    (let s : State := wide { State.reset with iaoqFront := 0x3BFFFFFFFFFFFFFC }
     s.flag Psw.C = false ∧ s.flag Psw.W = true ∧ s.fetchOffset.extractLsb' 58 4 ≠ 0xF#4 ∧
     0x3BFFFFFFFFFFFFFC = (s.fetchOffset.extractLsb' 0 62).toNat ∧ s.flag Psw.E = false) := by decide +kernel

theorem witness_Fetch_translated :
    (code [] = (code []).passTime ∧ pendingInterruption (code []) = none ∧ (code []).flag Psw.N = false ∧ (code []).flag Psw.C = true ∧ (code []).fetchEntry = none) ∧
    (let e := page 0b0001100 true false false
     code [e] = (code [e]).passTime ∧ pendingInterruption (code [e]) = none ∧ (code [e]).flag Psw.N = false ∧ (code [e]).flag Psw.C = true ∧ (code [e]).fetchEntry = some e ∧
     (rightsOk e.rights .execute (code [e]).priv && (code [e]).pidOk e.accessId .execute) = false) ∧
    (let e := page 0b0101100 true false false
     let s := code [e]
     s = s.passTime ∧ pendingInterruption s = none ∧ s.flag Psw.N = false ∧ s.flag Psw.C = true ∧ s.fetchEntry = some e ∧
     rightsOk e.rights .execute s.priv = true ∧ s.pidOk e.accessId .execute = true ∧
     region (e.translate (s.usedOffset s.fetchOffset)) = .memory ∧ 0x5000 = (e.translate (s.usedOffset s.fetchOffset)).toNat ∧
     s.flag Psw.E = false ∧ (s.setFlag Psw.E true).fetchEntry = some e ∧ (s.setFlag Psw.E true).flag Psw.E = true) := by decide +kernel

/-- A nullified instruction before one of its own, a lower and a higher privilege level, and one at the end of its space. -/
theorem witness_NullifiedStep :
    (let s := State.reset.setFlag Psw.N true
     s = s.passTime ∧ pendingInterruption s = none ∧ s.flag Psw.N = true ∧ s.atEndOfSpace = false ∧
     ¬(s.priv < s.iaoqBack.extractLsb' 0 2) ∧ ¬(s.iaoqBack.extractLsb' 0 2 < s.priv)) ∧
    (let s : State := { (State.reset.setFlag Psw.N true).setFlag Psw.L true with iaoqBack := 5 }
     s = s.passTime ∧ pendingInterruption s = none ∧ s.flag Psw.N = true ∧ s.atEndOfSpace = false ∧ s.priv < s.iaoqBack.extractLsb' 0 2 ∧
     s.flag Psw.L = true) ∧
    (let s : State := { (State.reset.setFlag Psw.N true).setFlag Psw.H true with iaoqFront := 3, iaoqBack := 0xFFFFFFFA }
     s = s.passTime ∧ pendingInterruption s = none ∧ s.flag Psw.N = true ∧ s.atEndOfSpace = false ∧ s.iaoqBack.extractLsb' 0 2 < s.priv ∧
     s.flag Psw.H = true) ∧
    (let s : State := { State.reset.setFlag Psw.N true with iaoqBack := 0xFFFFFFFC }
     s = s.passTime ∧ pendingInterruption s = none ∧ s.flag Psw.N = true ∧ s.atEndOfSpace = true) := by decide +kernel

/-- The transfer trap comes after the nullified delay slot instruction and saves the target at the front of the queue; a taken branch trap does not
(60_exceptions.md R1004). -/
theorem test_nullified_transfer :
    let s := ((State.reset.setFlag Psw.N true).setFlag Psw.L true).setFlag Psw.T true
    ((after (step { s with psw := s.psw ||| bitMask Psw.Q, iaoqBack := 0x103 })).iiaoqFront,
     (after (step { s with psw := s.psw ||| bitMask Psw.Q, iaoqBack := 0x103 })).iaoqFront) = (0x103, 32 * 24) ∧
    (after (step { s with iaoqBack := 0x100 })).iaoqFront = 0x100 := by decide +kernel

theorem witness_PendingOrder :
    (let s : State := { State.reset with hpmcPending := true }
     s = s.passTime ∧ s.hpmcPending = true ∧ s.flag Psw.M = false) ∧
    (let s : State := { State.reset with powerFailPending := true, psw := 1 }
     (s.hpmcPending && !(s.flag Psw.M)) = false ∧ s.powerFailPending = true ∧ s.flag Psw.I = true) ∧
    (let s : State := { State.reset with rctr := 0x80000000, psw := 0x10 }
     (s.hpmcPending && !(s.flag Psw.M)) = false ∧ (s.powerFailPending && s.flag Psw.I) = false ∧ s.flag Psw.R = true ∧ s.rctr.msb = true) ∧
    (let s : State := { State.reset with psw := 1, eirr := 1, eiem := 1, lpmcPending := true }
     (s.flag Psw.R && s.rctr.msb) = false ∧ s.flag Psw.I = true ∧ s.eirr &&& s.eiem ≠ 0) ∧
    (let s : State := { State.reset with psw := 1, eirr := 1, eiem := 2, lpmcPending := true }
     (s.flag Psw.R && s.rctr.msb) = false ∧ s.flag Psw.I = true ∧ s.eirr &&& s.eiem = 0 ∧ s.lpmcPending = true) ∧
    (let s : State := { State.reset with psw := 0x20, eirr := 1, eiem := 1, perfMonPending := true }
     (s.flag Psw.R && s.rctr.msb) = false ∧ s.flag Psw.I = false ∧ s.flag Psw.F = true ∧ s.perfMonPending = true) ∧
    (let s : State := { State.reset with psw := 0x21, perfMonPending := true }
     s.flag Psw.I = true ∧ s.eirr &&& s.eiem = 0 ∧ s.lpmcPending = false ∧ s.flag Psw.F = true ∧ s.perfMonPending = true) ∧
    (let s : State := { State.reset with itmr := 0x1FFFFFFFF, itmrCompare := 0 }
     s.itmr.extractLsb' 0 32 + 1#32 = s.itmrCompare ∧ s.flag Psw.W = false ∧ (wide s).flag Psw.W = true ∧
     (wide s).itmr.extractLsb' 0 32 + 1#32 = (wide s).itmrCompare) ∧
    State.reset.itmr.extractLsb' 0 32 + 1#32 ≠ State.reset.itmrCompare := by decide +kernel

/-- An instruction that completes as the timer reaches the comparison value sets the timer's request, and one that completes before does not. -/
theorem test_timer_request :
    (after (exec (.ldo 0 5 0 52) { State.reset with itmr := 0xFFFFFFFF, itmrCompare := 0, eirr := 1 })).eirr = 0x80000001 ∧
    (after (exec (.ldo 0 5 0 52) (wide { State.reset with itmr := 0xFFFFFFFF, itmrCompare := 0, eirr := 1 }))).eirr = 0x8000000000000001 ∧
    (after (exec (.ldo 0 5 0 52) { State.reset with itmr := 0xFFFFFFFE, itmrCompare := 0, eirr := 1 })).eirr = 1 := by decide +kernel

theorem witness_StepKeepsInv : let s : State := { State.reset with mem := [(0x1000, 0x55)], dtlb := [page 0b0011111 true false false], psw := 8 }
    Inv s ∧ ∃ t, step s = .next t := by
  refine ⟨⟨by decide, by decide, by decide, by decide, by decide, ⟨?_, ?_⟩, ⟨?_, ?_⟩, rfl, by decide⟩, ⟨_, rfl⟩⟩ <;> simp [page, State.reset]

theorem witness_InterruptionEntry : (0x00008000#64) &&& 0x7FF#64 = 0 := by decide

theorem witness_InterruptionSaves :
    (let s : State := { State.reset with psw := 0x4000A }
     s.flag Psw.Q = true ∧ Interruption.breakInstruction ≠ .highPriorityMachineCheck ∧ s.flag Psw.C = true ∧ s.flag Psw.W = false ∧
     s.flag Psw.D = true ∧ (wide s).flag Psw.Q = true ∧ (wide s).flag Psw.C = true ∧ (wide s).flag Psw.W = true ∧ (wide s).flag Psw.D = true) ∧
    (let s : State := { State.reset with psw := 8 }
     s.flag Psw.Q = true ∧ s.flag Psw.C = false ∧ s.flag Psw.D = false ∧ s.flag Psw.W = false ∧ (wide s).flag Psw.Q = true ∧ (wide s).flag Psw.D = false ∧
     (wide s).flag Psw.W = true) ∧ State.reset.flag Psw.Q = false := by decide +kernel

theorem witness_ReturnFromInterruption :
    (let s : State := { State.reset with ipsw := 0x4000F, iiaoqFront := 0x4003, iiaoqBack := 0x4007, iiasqFront := 0x22, iiasqBack := 0x22 }
     s.priv = 0#2 ∧ s.flag Psw.Q = false ∧ s.flag Psw.I = false ∧ s.flag Psw.R = false ∧ s.flag Psw.L = false ∧
     s.ipsw &&& ~~~Psw.defined = 0 ∧ bitAt s.ipsw Psw.B = false ∧ s.iiaoqBack = s.iiaoqFront + 4 ∧ bitAt s.ipsw Psw.C = true ∧
     s.iiasqFront &&& ~~~(s.iiaoqFront >>> 32) &&& ~~~(s.iiaoqBack >>> 32) =
       s.iiasqBack &&& ~~~(s.iiaoqFront >>> 32) &&& ~~~(s.iiaoqBack >>> 32)) ∧
    (let s : State := { State.reset with psw := 0x400000, iiaoqBack := 4 }
     s.priv = 0#2 ∧ s.flag Psw.L = true ∧ s.iiaoqFront.extractLsb' 0 2 = 0#2 ∧ s.ipsw &&& ~~~Psw.defined = 0 ∧ bitAt s.ipsw Psw.C = false ∧
     s.iiaoqBack = s.iiaoqFront + 4 ∧ ({ s with iiaoqFront := 3 } : State).iiaoqFront.extractLsb' 0 2 ≠ 0#2) ∧
    (let s : State := { State.reset with ipsw := 0x80000, iiaoqFront := 0x4000, iiaoqBack := 0x8003 }
     s.flag Psw.L = false ∧ s.ipsw &&& ~~~Psw.defined = 0 ∧ bitAt s.ipsw Psw.B = true ∧ bitAt 0#64 Psw.B = false ∧
     s.iiaoqBack ≠ s.iiaoqFront + 4) ∧
    ((State.reset.setFlag Psw.Q true).priv = 0#2 ∧ (State.reset.setFlag Psw.Q true).flag Psw.Q = true) ∧
    (let s : State := { code [] with psw := 0x40008 }
     Interruption.external ≠ .highPriorityMachineCheck ∧ s.flag Psw.Q = true ∧ s.flag Psw.C = true ∧ s.psw &&& ~~~Psw.defined = 0 ∧
     s.iasqFront &&& (s.iaoqFront >>> 32) = 0 ∧ s.iasqBack &&& (s.iaoqBack >>> 32) = 0 ∧ s.flag Psw.W = false ∧
     low32 s.iaoqFront = s.iaoqFront ∧ low32 s.iaoqBack = s.iaoqBack) := by decide +kernel

theorem witness_GroupFourTraps :
    (let s : State := { State.reset.setFlag Psw.L true with iaoqBack := 7 }
     s.atEndOfSpace = false ∧ s.priv < s.iaoqBack.extractLsb' 0 2 ∧ s.flag Psw.L = true) ∧
    (let s : State := { State.reset.setFlag Psw.H true with iaoqFront := 1 }
     s.atEndOfSpace = false ∧ s.iaoqBack.extractLsb' 0 2 < s.priv ∧ s.flag Psw.H = true) ∧
    (State.reset.atEndOfSpace = false ∧ ¬(State.reset.priv < State.reset.iaoqBack.extractLsb' 0 2) ∧
     ¬(State.reset.iaoqBack.extractLsb' 0 2 < State.reset.priv)) ∧
    ({ State.reset with iaoqBack := 0xFFFFFFFC } : State).atEndOfSpace = true ∧
    ({ State.reset with iaoqBack := 0xFFFFFFF8 } : State).atEndOfSpace = false ∧
    (let s := State.reset.setFlag Psw.T true
     s.flag Psw.L = false ∧ s.flag Psw.H = false ∧ s.flag Psw.T = true ∧ s.pastEnd (s.readGr 2) (s.readGr 5 <<< 3) 0 = false ∧
     shiftCondition 4#3 false (lowSignExt 31#5) = true ∧ s.pastEnd s.iaoqFront ((assemble12 4 0).signExtend 64 <<< 2) 8 = false) ∧
    (goes (exec (.ldo 0 5 0 52) State.reset) = true ∧ Instr.ldo 0 5 0 52 ≠ .rfi) := by decide +kernel

theorem witness_PrivilegedTraps :
    user.priv ≠ 0#2 ∧ ({ State.reset with iaoqFront := 1 } : State).priv ≠ 0#2 ∧ (assemble3 3).toNat = 5 ∧ (assemble3 7).toNat = 7 ∧
    (8 ≤ (31#5).toNat ∧ (31#5) ≠ 11#5) ∧ (8 ≤ (8#5).toNat ∧ (8#5) ≠ 11#5) ∧ (user.setFlag Psw.S true).flag Psw.S = true ∧
    (user.setFlag Psw.S true).priv ≠ 0#2 ∧ (8 ≤ (16#5).toNat ∧ (16#5) ≠ 11#5 ∧ (16#5) ≠ 26#5 ∧ (16#5) ≠ 27#5) := by decide +kernel

theorem witness_UserModeConfined : user.priv ≠ 0#2 ∧ ∃ t, exec (.ldo 0 5 0 52) user = .next t := ⟨by decide +kernel, _, rfl⟩

theorem witness_MemoryBytes : let m : Memory := [(0x1000, 0x11), (0x1007, 0x22)]
    m.wf = true ∧ 8 ≤ 8 ∧ 7 < 8 ∧ 0xFFF < 0x1000 ∧ 0x1000 + 8 ≤ 0x1008 := by decide

theorem witness_AbsoluteAddresses :
    (State.reset.flag Psw.W = false ∧ (low32 0xEFFFFFFF).toNat < 0xF0000000) ∧
    0xF1000000 ≤ (low32 0xF1000000).toNat ∧ (0xF0000000 ≤ (low32 0xF0FFFFFF).toNat ∧ (low32 0xF0FFFFFF).toNat < 0xF1000000) ∧
    ((wide State.reset).flag Psw.W = true ∧ (0x3BFFFFFFFFFFFFFF#64).extractLsb' 58 4 ≠ 0xF#4) ∧
    (0x3C00000000000000#64).extractLsb' 54 8 = 0xF0#8 ∧
    ((0x3C40000000000000#64).extractLsb' 58 4 = 0xF#4 ∧ (0x3C40000000000000#64).extractLsb' 54 8 ≠ 0xF0#8) := by decide +kernel

theorem witness_EffectiveAddresses :
    State.reset.flag Psw.W = false ∧ (wide State.reset).flag Psw.W = true ∧ (0x3FFF#14).extractLsb' 0 1 = 1#1 ∧
    (wide State.reset).disp14 3 0x1FFE = (0x6FFF : Dword) := by decide +kernel

theorem witness_SpaceSelection :
    State.reset.flag Psw.W = false ∧ (wide State.reset).flag Psw.W = true ∧ (wide State.reset).priv = 0#2 ∧ (1#2) ≠ 0#2 ∧
    (wide user).flag Psw.W = true ∧ (wide user).priv ≠ 0#2 ∧ State.reset.flag Psw.D = false ∧
    (State.reset.shortEa 3 0 0 0 0).resolve State.reset = .ok ⟨0, 0, 0⟩ := by decide +kernel

theorem witness_DataReferenceTraps :
    (let s := virt [] 0x5000
     s.flag Psw.D = true ∧ (s.shortEa 3 0 0 0 0).resolve s = .ok ⟨0, 0x5000, 0x5000⟩ ∧ tlbLookup s.dtlb (s.gva 0 0x5000) = none) ∧
    (let e := page 0b1001111 true false false
     let s := virt [e] 0x5000
     s.flag Psw.D = true ∧ (s.shortEa 3 0 0 0 0).resolve s = .ok ⟨0, 0x5000, 0x5000⟩ ∧ tlbLookup s.dtlb (s.gva 0 0x5000) = some e ∧
     rightsOk e.rights .read s.priv = false ∧ rightsOk e.rights .write s.priv = false) ∧
    (let e : TlbEntry := { page 0b0011111 true false false with accessId := 9 }
     let s := (virt [e] 0x5000).setFlag Psw.P true
     s.flag Psw.D = true ∧ (s.shortEa 3 0 0 0 0).resolve s = .ok ⟨0, 0x5000, 0x5000⟩ ∧ tlbLookup s.dtlb (s.gva 0 0x5000) = some e ∧
     rightsOk e.rights .read s.priv = true ∧ s.pidOk e.accessId .read = false ∧ rightsOk e.rights .write s.priv = true ∧
     s.pidOk e.accessId .write = false) ∧
    (let e := page 0b0011111 true false false
     let s := virt [e] 0x5FFF
     s.flag Psw.D = true ∧ (s.shortEa 3 0 0 0 0).resolve s = .ok ⟨0, 0x5FFF, 0x5FFF⟩ ∧ tlbLookup s.dtlb (s.gva 0 0x5FFF) = some e ∧
     rightsOk e.rights .read s.priv = true ∧ s.pidOk e.accessId .read = true ∧ rightsOk e.rights .write s.priv = true ∧
     s.pidOk e.accessId .write = true ∧ (s.usedOffset 0x5FFF).toNat % 4 ≠ 0) ∧
    (∀ e ∈ [page 0b0011111 false true false, page 0b0011111 false false false, page 0b0011111 true false true],
     let s := virt [e] 0x5FFC
     s.flag Psw.D = true ∧ s.flag Psw.X = false ∧ (s.shortEa 3 0 0 0 0).resolve s = .ok ⟨0, 0x5FFC, 0x5FFC⟩ ∧
     tlbLookup s.dtlb (s.gva 0 0x5FFC) = some e ∧ rightsOk e.rights .read s.priv = true ∧ s.pidOk e.accessId .read = true ∧
     rightsOk e.rights .write s.priv = true ∧ s.pidOk e.accessId .write = true ∧ (s.usedOffset 0x5FFC).toNat % 4 = 0) := by decide +kernel

/-- The premises about a semaphore and every size: an unaligned load or store, a semaphore on any alignment, a break, a clean page, a page
reference, I/O pages that are cacheable and not, and the same without rights or a protection identifier. -/
theorem witness_DataReferenceTraps_kinds :
    (let e : TlbEntry := { page 0b0011111 true true true with ppn := 0xFFFFFFFFF1000, u := false }
     let s := virt [e] 0x5007
     tlbLookup s.dtlb (s.gva 0 0x5007) = some e ∧ rightsOk e.rights .read s.priv = true ∧ rightsOk e.rights .write s.priv = true ∧
     s.pidOk e.accessId .read = true ∧ s.pidOk e.accessId .write = true ∧ (s.usedOffset 0x5007).toNat % 8 ≠ 0 ∧ (s.usedOffset 0x5007).toNat % 16 ≠ 0 ∧
     e.b = true ∧ s.flag Psw.X = false ∧ (s.setFlag Psw.X true).flag Psw.X = true ∧ e.d = true ∧ e.t = true ∧
     region (e.translate (s.usedOffset 0x5007)) = .io ∧ e.u = false ∧ (s.shortEa 3 0 0 0 0).resolve s = .ok ⟨0, 0x5007, 0x5007⟩) ∧
    (∀ k : RefKind, (virt [] 0x5000).check k ⟨0, 0x5000, 0x5000⟩ 8 = .error (.trap .dataTlbMiss (.data ⟨0, 0x5000, 0x5000⟩))) ∧
    (let s := virt [] 0x5000
     (s.partialEa 4 3 0 0 0#1 0).resolve s = .ok ⟨0, 0x5000, 0x5000⟩ ∧ (s.partialEa 8 3 0 0 0#1 0).resolve s = .ok ⟨0, 0x5000, 0x5000⟩ ∧
     (s.usedOffset 0x5000).toNat % 16 = 0) := by
  refine ⟨by decide +kernel, fun k => ?_, by decide +kernel⟩
  cases k <;> decide +kernel

/-- A reference of every address format that the check stops, by a trap and by a refusal. -/
theorem witness_DataReferenceTraps_formats :
    (let s := virt [] 0x5000
     let ok (e : Ea) (k : RefKind) (n : Nat) : Bool := match e.resolve s with
       | .ok d => match s.check k d n with | .error (.trap .dataTlbMiss _) => true | _ => false
       | .error _ => false
     ok (s.longEa 3 0 0) .load 1 ∧ ok (s.longModifyEa 3 0 0) .store 4 ∧ ok (s.long11Ea 3 0 0 0) .load 4 ∧ ok (s.long10Ea 3 0 0 0 0 0) .store 8 ∧
     ok (s.shortEa 3 0 0 0 0) .load 2 ∧ ok (s.indexedEa 3 0 0 0 0 1) .load 2 ∧ ok (s.indexedEa 3 0 0 0 0 3) .semaphore 4 ∧ ok (s.partialEa 4 3 0 0 0#1 0) .store 1) ∧
    (let e : TlbEntry := { page 0b0011111 true false false with ppn := 0xFFFFFFFFF1000 }
     let s := virt [e] 0x5000
     (s.longEa 3 0 0).resolve s = .ok ⟨0, 0x5000, 0x5000⟩ ∧ s.check .load ⟨0, 0x5000, 0x5000⟩ 4 = .error (.refuse .cacheableIoPage) ∧
     s.check .semaphore ⟨0, 0x5000, 0x5000⟩ 4 = .error (.refuse .cacheableIoPage)) := by decide +kernel

/-- A semaphore takes the break before the dirty bit, and both before the page reference; a load takes neither of the first two. -/
theorem test_reference_order :
    let at5 := fun (k : RefKind) (d b t : Bool) => (virt [page 0b0011111 d b t] 0x5000).check k ⟨0, 0x5000, 0x5000⟩ 4
    at5 .semaphore false true true = .error (.trap .dataMemoryBreak (.data ⟨0, 0x5000, 0x5000⟩)) ∧
    at5 .semaphore false false true = .error (.trap .tlbDirtyBit (.data ⟨0, 0x5000, 0x5000⟩)) ∧
    at5 .load false true true = .error (.trap .pageReference (.data ⟨0, 0x5000, 0x5000⟩)) := by decide +kernel

theorem witness_DataReferencePlace :
    (State.reset.flag Psw.D = false ∧ (State.reset.usedOffset 0x1000).toNat % 8 = 0 ∧ (State.reset.usedOffset 0x1001).toNat % 2 ≠ 0) ∧
    (let e := page 0b0011111 true false false
     let s := virt [e] 0x5FF8
     s.flag Psw.D = true ∧ tlbLookup s.dtlb (s.gva 0 0x5FF8) = some e ∧
     (∀ x ∈ RefKind.semaphore.accesses, rightsOk e.rights x s.priv = true ∧ s.pidOk e.accessId x = true) ∧
     (s.usedOffset 0x5FF8).toNat % 8 = 0 ∧ e.t = false ∧ (e.d = true ∧ e.b = false) ∧
     region (e.translate (s.usedOffset 0x5FF8)) = .memory) := by decide +kernel

/-- Every address format of the loads and stores reaches memory, with data translation off and, for the short format, on. -/
theorem witness_Loads : Plain picture ∧ (4#5) ≠ 0#5 ∧ ∀ k : RefKind,
    Reaches picture k (picture.longEa 3 0 0) 1 0x1000 ∧ Reaches picture k (picture.longEa 3 0 4) 2 0x1002 ∧
    Reaches picture k (picture.longEa 3 0 8) 4 0x1004 ∧ Reaches picture k (picture.longModifyEa 3 0 8) 4 0x1000 ∧
    Reaches picture k (picture.long11Ea 3 0 1 0) 4 0x1004 ∧ Reaches picture k (picture.long10Ea 3 0 1 1 1 0) 8 0x1008 ∧
    Reaches picture k (picture.shortEa 3 30 0 1 1) 1 0x100F ∧ Reaches picture k (picture.shortEa 3 0 0 0 0) 2 0x1000 ∧
    Reaches picture k (picture.shortEa 3 8 0 0 1) 4 0x1000 ∧ Reaches picture k (picture.shortEa 3 16 0 0 0) 8 0x1008 ∧
    Reaches picture k (picture.indexedEa 3 5 0 0 0 0) 1 0x1002 ∧ Reaches picture k (picture.indexedEa 3 5 0 1 0 1) 2 0x1004 ∧
    Reaches picture k (picture.indexedEa 3 5 0 1 0 2) 4 0x1008 ∧ Reaches picture k (picture.indexedEa 3 5 0 1 1 3) 8 0x1000 ∧
    Reaches (virt [page 0b0011111 true false false] 0x5FF8) k ((virt [page 0b0011111 true false false] 0x5FF8).shortEa 3 0 0 0 0) 8 0x5FF8 := by
  refine ⟨plain_of (by decide +kernel), by decide, fun k => ?_⟩
  cases k <;> refine ⟨?_, ?_, ?_, ?_, ?_, ?_, ?_, ?_, ?_, ?_, ?_, ?_, ?_, ?_, ?_⟩ <;> exact reaches_of (by decide +kernel)

theorem witness_StoresComplete : picture.mem.wf = true := by decide +kernel

/-! ### A word store to IO_EIR -/

/-- A page that maps page 0 of space 0 onto the page of `a`, uncacheable. -/
def ioEntry (a : Dword) : TlbEntry := { page 0b0011111 true false false with gva := 0, ppn := a.extractLsb' 12 52, u := true }

/-- Data translation over that page, the base register holding `a`'s place on it. -/
def ioState (a : Dword) : State := virt [ioEntry a] (a &&& 0xFFF#64)

theorem ioMask_bit (i : Nat) (hi : i < 64) : (0xFFF#64).getLsbD i = decide (i < 12) := by interval_cases i <;> rfl

theorem usedOffset_page (a : Dword) (s : State) : s.usedOffset (a &&& 0xFFF#64) = a &&& 0xFFF#64 := by
  unfold State.usedOffset low32
  split
  · rfl
  · rw [BitVec.and_assoc]; rfl

theorem ioEntry_covers (a : Dword) (s : State) : (ioEntry a).covers (s.gva 0#64 (a &&& 0xFFF#64)) = true := by
  suffices h : s.gva 0#64 (a &&& 0xFFF#64) >>> 12 = 0#96 by
    rw [TlbEntry.covers, show pageBits (ioEntry a).size = 12 from rfl, h, show (ioEntry a).gva = 0#96 from rfl]; decide
  simp only [State.gva, usedOffset_page]
  apply BitVec.eq_of_getLsbD_eq
  intro i hi
  simp only [BitVec.getLsbD_ushiftRight, BitVec.getLsbD_append, BitVec.getLsbD_or, BitVec.getLsbD_and, BitVec.getLsbD_extractLsb', BitVec.getLsbD_zero]
  split
  · by_cases h : 12 + i < 64
    · simp [ioMask_bit (12 + i) h]
    · simp; omega
  · by_cases h : 32 + (12 + i - 32) < 64
    · simp [ioMask_bit _ h, show ¬ 32 + (12 + i - 32) < 12 by omega]
    · rw [BitVec.getLsbD_of_ge (0xFFF#64) _ (by omega)]; simp

theorem ioEntry_translate (a : Dword) : (ioEntry a).translate (a &&& 0xFFF#64) = a := by
  have hm : ((1 : Dword) <<< pageBits (ioEntry a).size) - 1 = 0xFFF#64 := by
    rw [show pageBits (ioEntry a).size = 12 from rfl]; decide
  simp only [TlbEntry.translate, hm, show (ioEntry a).ppn = a.extractLsb' 12 52 from rfl]
  apply BitVec.eq_of_getLsbD_eq
  intro i hi
  simp only [BitVec.getLsbD_append, BitVec.getLsbD_or, BitVec.getLsbD_and, BitVec.getLsbD_extractLsb', BitVec.getLsbD_not, hi, ioMask_bit i hi]
  by_cases h : i < 12
  · simp [h]
  · simp [h, show 12 + (i - 12) = i by omega]; omega

/-- Wherever in I/O space IO_EIR is, a word-aligned address is reached through a page that maps it. -/
theorem witness_ReachesIoEir (h : region Config.ioEirAddress = .io) (h4 : Config.ioEirAddress.toNat % 4 = 0) :
    let s := ioState Config.ioEirAddress
    Plain s ∧ ReachesIoEir s (s.shortEa 3#5 0#5 1#2 0#1 0#1) := by
  generalize ha : Config.ioEirAddress = a at *
  have hD : (ioState a).flag Psw.D = true := show (virt [] 0).flag Psw.D = true by decide +kernel
  have hW : (ioState a).flag Psw.W = false := show (virt [] 0).flag Psw.W = false by decide +kernel
  have hP : (ioState a).flag Psw.P = false := show (virt [] 0).flag Psw.P = false by decide +kernel
  have hr : (ioState a).priv = 0#2 := show (virt [] 0).priv = 0#2 by decide +kernel
  have hs : (ioState a).readSr 1#3 = 0#64 := show (virt [] 0).readSr 1#3 = 0#64 by decide +kernel
  have hg : (ioState a).readGr 3#5 = a &&& 0xFFF#64 := by
    simp [ioState, virt, regs, State.readGr, State.writeGr]
  have hl : tlbLookup (ioState a).dtlb ((ioState a).gva 0#64 (a &&& 0xFFF#64)) = some (ioEntry a) :=
    List.find?_cons_of_pos (ioEntry_covers a _)
  have hm : (a &&& 0xFFF#64).toNat % 4 = 0 := by
    rw [BitVec.toNat_and]; exact (congrArg (· % 4) (Nat.and_two_pow_sub_one_eq_mod a.toNat 12)).trans (by simp; omega)
  refine ⟨plain_of (show plainB (virt [] 0) = true by decide +kernel), ⟨0#64, a &&& 0xFFF#64, a &&& 0xFFF#64⟩, ⟨a, true⟩, ?_, ?_, h, ha.symm⟩
  · simp [State.shortEa, State.ea, shortModify, lowSignExt, hg, Ea.resolve, hD, hW, State.spaceSelect, hs, bind, Except.bind]
  · simp only [State.check, hD, State.checkVirtual, hl, usedOffset_page, ioEntry_translate, h, hr, hm]
    simp [RefKind.accesses, State.pidOk, hP, ioEntry, page, rightsOk, field]

/-- The same of STWA, which reaches it in wide mode where the absolute address space does (R161). -/
theorem witness_absoluteIoEir (h : region Config.ioEirAddress = .io) (h4 : Config.ioEirAddress.toNat % 4 = 0)
    (h6 : field Config.ioEirAddress 0 5 = 0x3F#6) (h8 : field Config.ioEirAddress 2 9 ≠ 0xF0#8) :
    let s := regs { State.reset with psw := 0x8000000 } [(3, Config.ioEirAddress)]
    let off := s.usedOffset (s.shortEa 3#5 0#5 0#2 0#1 0#1).offset
    Plain s ∧ s.priv = 0#2 ∧ off.toNat % 4 = 0 ∧ region (s.absolute off) = .io ∧ s.absolute off = Config.ioEirAddress := by
  generalize Config.ioEirAddress = a at *
  intro s off
  have hW : s.flag Psw.W = true := show (regs { State.reset with psw := 0x8000000 } [(3, 0)]).flag Psw.W = true by decide +kernel
  have hg : s.readGr 3#5 = a := by simp [s, regs, State.readGr, State.writeGr]
  have ho : off = a := by simp [off, State.usedOffset, hW, State.shortEa, State.ea, shortModify, lowSignExt, hg]
  have hb : ∀ i < 6, a.getLsbD (58 + i) = true := fun i hi => by
    have := congrArg (·.getLsbD i) h6
    simp only [field, BitVec.getLsbD_extractLsb', hi] at this
    interval_cases i <;> simpa using this
  have h2 : field a 2 5 = 0xF#4 := by
    apply BitVec.eq_of_getLsbD_eq
    intro i hi
    have := hb i (by omega)
    simp only [field, BitVec.getLsbD_extractLsb', hi]
    interval_cases i <;> simpa using this
  have ha : s.absolute a = a := by
    simp only [State.absolute, hW, h8, h2, if_true, if_false]
    apply BitVec.eq_of_getLsbD_eq
    intro i hi
    rw [BitVec.getLsbD_append]
    split
    · next hl => simp [field, hl]
    · next hl =>
      obtain rfl | rfl : i = 62 ∨ i = 63 := by omega
      · simpa using (hb 4 (by omega)).symm
      · simpa using (hb 5 (by omega)).symm
  exact ⟨plain_of (show plainB (regs { State.reset with psw := 0x8000000 } [(3, 0)]) = true by decide +kernel),
    show (regs { State.reset with psw := 0x8000000 } [(3, 0)]).priv = 0#2 by decide +kernel, by rw [ho, h4], by rw [ho, ha, h], by rw [ho, ha]⟩

/-! ### The other memory references, and the rest -/

theorem witness_AbsoluteLoadsStores : let s := regs picture [(6, 0xEFFFFFF8), (7, 0x1004), (8, 0x1002)]
    Plain s ∧ s.mem.wf = true ∧ s.priv = 0#2 ∧ (s.usedOffset (s.shortEa 7 0 0#2 0 0).offset).toNat % 4 = 0 ∧
    s.absolute (s.usedOffset (s.shortEa 7 0 0#2 0 0).offset) = BitVec.ofNat 64 0x1004 ∧ (s.usedOffset (s.shortEa 6 0 0#2 0 0).offset).toNat % 8 = 0 ∧
    s.absolute (s.usedOffset (s.shortEa 6 0 0#2 0 0).offset) = BitVec.ofNat 64 0xEFFFFFF8 ∧ 0xEFFFFFF8 < 0xF000000000000000 ∧
    (s.usedOffset (s.indexedEa 3 5 0#2 1 0 2).offset).toNat % 4 = 0 ∧
    s.absolute (s.usedOffset (s.indexedEa 3 5 0#2 1 0 2).offset) = BitVec.ofNat 64 0x1008 ∧
    (s.usedOffset (s.indexedEa 3 0 0#2 1 0 3).offset).toNat % 8 = 0 ∧
    s.absolute (s.usedOffset (s.indexedEa 3 0 0#2 1 0 3).offset) = BitVec.ofNat 64 0x1000 ∧
    (s.usedOffset (s.shortEa 8 0 0#2 0 0).offset).toNat % 4 ≠ 0 ∧ (s.usedOffset (s.shortEa 7 0 0#2 0 0).offset).toNat % 8 ≠ 0 ∧
    (s.usedOffset (s.indexedEa 8 0 0#2 0 0 2).offset).toNat % 4 ≠ 0 ∧ (s.usedOffset (s.indexedEa 7 0 0#2 0 0 3).offset).toNat % 8 ≠ 0 :=
  ⟨plain_of (by decide +kernel), by decide +kernel⟩

/-- A store and a load at a word address that is no doubleword address (R146 b, R421, R423). -/
theorem test_absolute_unaligned : let s := regs picture [(7, 0x1004)]
    refuses (exec (.stda 7 5 0 0 0 0) s) .unalignedAbsolute = true ∧ refuses (exec (.lddaIndexed 7 0 0 0 0 5) s) .unalignedAbsolute = true ∧
    goes (exec (.stwa 7 5 0 0 0 0) s) = true := by decide +kernel

theorem witness_Semaphores : Plain picture ∧ picture.mem.wf = true ∧ (picture.usedOffset 0x1000).toNat % 16 = 0 ∧
    region 0x1000 = .memory ∧ (picture.shortEa 3 0 0 0 0).resolve picture = .ok ⟨0, 0x1000, 0x1000⟩ ∧
    (picture.indexedEa 3 0 0 0 0 3).resolve picture = .ok ⟨0, 0x1000, 0x1000⟩ ∧
    picture.check .semaphore ⟨0, 0x1000, 0x1000⟩ 4 = .ok ⟨0x1000, false⟩ ∧
    picture.check .semaphore ⟨0, 0x1000, 0x1000⟩ 8 = .ok ⟨0x1000, false⟩ ∧ picture.semaphores.lookup 0x1000 = none ∧
    (let s : State := { picture with semaphores := [(0x1000, 1)] }
     s.semaphores.lookup 0x1000 = some 1 ∧ (1#2) ≠ 0#2 ∧ (s.shortEa 3 0 0 0 0).resolve s = .ok ⟨0, 0x1000, 0x1000⟩ ∧
     (s.indexedEa 3 0 0 0 0 3).resolve s = .ok ⟨0, 0x1000, 0x1000⟩ ∧ s.check .semaphore ⟨0, 0x1000, 0x1000⟩ 4 = .ok ⟨0x1000, false⟩ ∧
     s.check .semaphore ⟨0, 0x1000, 0x1000⟩ 8 = .ok ⟨0x1000, false⟩) :=
  ⟨plain_of (by decide +kernel), by decide +kernel⟩

/-- A semaphore first used with no hint may be used with a Reserved one, which is none (R403), and is undefined with another. -/
theorem test_semaphore_hints : let s := run 0x0C6011C4 picture
    s.semaphores = [(0x1000, 0)] ∧ goes (exec (.ldcwShort 3 0 0 0 0 0 4) s) = true ∧
    goes (exec (.ldcwShort 3 0 0 0 2 0 4) s) = true ∧ goes (exec (.ldcwShort 3 0 0 0 3 0 4) s) = true ∧
    refuses (exec (.ldcwShort 3 0 0 0 1 0 4) s) .mixedSemaphoreHints = true := by decide +kernel

theorem witness_StoreBytes : Plain picture ∧ picture.mem.wf = true ∧ picture.flag Psw.E = false ∧ region 0x1003 = .memory ∧
    picture.check .store ⟨0, 0x1003, 0x1000⟩ 1 = .ok ⟨0x1003, false⟩ ∧
    (picture.partialEa 4 3 6 0 0#1 0).resolve picture = .ok ⟨0, 0x1003, 0x1000⟩ ∧
    (picture.partialEa 4 3 6 0 1#1 0).resolve picture = .ok ⟨0, 0x1003, 0x1000⟩ ∧
    (picture.partialEa 8 3 6 0 0#1 0).resolve picture = .ok ⟨0, 0x1003, 0x1000⟩ ∧
    (picture.partialEa 8 3 6 0 1#1 0).resolve picture = .ok ⟨0, 0x1003, 0x1000⟩ ∧
    picture.check .store ⟨0, 0x1000, 0x1000⟩ 1 = .ok ⟨0x1000, false⟩ ∧
    (picture.partialEa 8 3 0 0 1#1 0).resolve picture = .ok ⟨0, 0x1000, 0x1000⟩ ∧
    (let s := picture.setFlag Psw.E true
     s.flag Psw.E = true ∧ s.check .store ⟨0, 0x1003, 0x1000⟩ 1 = .ok ⟨0x1003, false⟩ ∧
     (s.partialEa 8 3 6 0 0#1 0).resolve s = .ok ⟨0, 0x1003, 0x1000⟩) ∧
    (let s := regs picture [(3, 0xF1000000)]
     (s.partialEa 4 3 0 0 1#1 0).resolve s = .ok ⟨0, 0xF1000000, 0xF1000000⟩ ∧
     s.check .store ⟨0, 0xF1000000, 0xF1000000⟩ 1 = .ok ⟨0xFFFFFFFFF1000000, false⟩) :=
  ⟨plain_of (by decide +kernel), by decide +kernel⟩

/-- STBY,E and STDBY,E that store nothing complete where nothing could be stored (R435, R436); those that store do not. -/
theorem test_store_nothing : let s := regs picture [(3, 0xF1000000), (6, 0xF1000001)]
    goes (exec (.stby 3 4 0 1 0 0 0) s) = true ∧ goes (exec (.stdby 3 4 0 1 0 0 0) s) = true ∧ goes (exec (.stby 6 4 0 1 0 0 0) s) = false ∧
    goes (exec (.stby 3 4 0 0 0 0 0) s) = false := by decide +kernel

/-- Also of Immediates, AddSubtract, TrappingArithmetic, ShiftAndDivideStep, LogicalAndUnit and Halfwords, whose other premises name
values. A target within its space and one past its end, at the boundary. -/
theorem witness_VectoredBranches : Plain (code []) ∧ (code []).flag Psw.C = true ∧ Plain State.reset ∧ State.reset.flag Psw.C = false ∧
    State.reset.pastEnd 0xFFFFFFF8 4 0 = false ∧ State.reset.pastEnd 0xFFFFFFF8 8 0 = true :=
  ⟨plain_of (by decide +kernel), by decide +kernel, plain_reset, by decide +kernel⟩

theorem witness_RelativeBranches :
    (let s : State := { State.reset with iaoqFront := 0xFFFFFF00, iaoqBack := 0xFFFFFF04 }
     Plain s ∧ s.pastEnd s.iaoqFront 0xF4 8 = false ∧ s.pastEnd s.iaoqFront 0xF8 8 = true) ∧
    (let s : State := { wide State.reset with iaoqFront := 0xFFFFFFFFFFFFFF00, iaoqBack := 0xFFFFFFFFFFFFFF04 }
     Plain s ∧ s.flag Psw.W = true ∧ s.pastEnd s.iaoqFront 0xF4 8 = false ∧ s.pastEnd s.iaoqFront 0xF8 8 = true ∧
     s.pastEnd s.iaoqFront (-4) 8 = false ∧ s.pastEnd 0 (-4) 0 = false) :=
  ⟨⟨plain_of (by decide +kernel), by decide +kernel⟩, plain_of (by decide +kernel), by decide +kernel⟩

theorem witness_BranchTargetStack : let l : List (BitVec 63) := [3, 5, 7, 9]
    Plain State.reset ∧ 1 + 2 < l.length ∧ (3 < l.length ∧ l.length ≤ 3 + 1 ∧ l.getLast? = some 9) :=
  ⟨plain_reset, by decide⟩

/-- POPBTS of two entries, and a branch past the end of the space. -/
theorem test_branch_ends :
    (run 0xE8004015 { State.reset with bts := [3, 5, 7, 9] }).bts = [7, 9, 8, 8] ∧
    refuses (step ({ regs State.reset [(2, 0xFFFFFFF8), (5, 1)] with iaoqFront := 0x1000, iaoqBack := 0x1004 }.withFetchWord 32 0xE845C000))
      .endOfSpace = true := by decide +kernel

theorem witness_GateBranch :
    (State.reset.setFlag Psw.B true).flag Psw.B = true ∧ Plain (State.reset.setFlag Psw.B true) ∧
    State.reset.flag Psw.B = false ∧ State.reset.flag Psw.C = false ∧
    (let e := page 0b0101100 true false false
     (code [e]).flag Psw.B = false ∧ (code [e]).flag Psw.C = true ∧ (code [e]).fetchEntry = some e ∧ e.rights.extractLsb' 6 1 = 0#1) ∧
    (let e := page 0b1001100 true false false
     (code [e]).fetchEntry = some e ∧ (code [e]).priv.toNat ≤ (e.rights.extractLsb' 4 2).toNat) ∧
    (let e := page 0b1001100 true false false
     let s : State := { code [e] with iaoqFront := 0x5003, iaoqBack := 0x5007 }
     s.flag Psw.C = true ∧ s.fetchEntry = some e ∧ e.rights.extractLsb' 6 1 = 1#1 ∧ (e.rights.extractLsb' 4 2).toNat < s.priv.toNat) := by
  refine ⟨by decide +kernel, plain_of (by decide +kernel), by decide +kernel⟩

theorem witness_ConditionalBranches : Plain State.reset ∧ State.reset.pastEnd State.reset.iaoqFront 8 8 = false ∧ (assemble12 4 0).signExtend 64 <<< 2 = (8 : Dword) ∧
    (assemble12 0x7FF 1).signExtend 64 <<< 2 = (-4 : Dword) := ⟨plain_reset, by decide +kernel, by decide +kernel⟩

theorem witness_ShiftAndDivideStep : (3 : Nat) < 4 ∧ (3#2).toNat = 3 := by decide

theorem witness_ShiftsExtractsDeposits :
    (32 * (0#1).toNat + 32 - (31#5).toNat ≤ 32 * (0#1).toNat + (0#5).toNat + 1) ∧
    (32 * (0#1).toNat + (0#5).toNat + 1 < 32 * (0#1).toNat + 32 - (30#5).toNat) ∧
    (32 * (1#1).toNat + 32 - (0#5).toNat ≤ 32 * (1#1).toNat + (31#5).toNat + 1) ∧
    (32 - (0#5).toNat ≤ (31#5).toNat + 1) ∧ ((30#5).toNat + 1 < 32 - (0#5).toNat) ∧
    (32 * (0#1).toNat + 32 - (31#5).toNat ≤ 63 - (32 * (1#1).toNat + (31#5).toNat) + 1) ∧
    (63 - (32 * (1#1).toNat + (31#5).toNat) + 1 < 32 * (0#1).toNat + 32 - (30#5).toNat) ∧
    (32 - (31#5).toNat ≤ 31 - (31#5).toNat + 1) ∧ (31 - (31#5).toNat + 1 < 32 - (30#5).toNat) := by decide

theorem witness_ShiftFields : (63 : Nat) < 64 ∧ 1 ≤ 64 ∧ 64 = min 64 (63 + 1) ∧ 1 = min 64 (0 + 1) ∧ (31 : Nat) < 32 := by decide

theorem witness_Halfwords : (3 : Nat) < 4 ∧ (4#5) ≠ 5#5 := by decide

theorem witness_RegisterMoves :
    State.reset.spaceSelect 1 0 false = .ok 0 ∧ (wide user).spaceSelect 1 0 false = .error (.refuse .explicitSpace) ∧ Plain (wide user) ∧
    State.reset.priv = 0#2 ∧ State.reset.flag Psw.W = false ∧ (wide State.reset).flag Psw.W = true ∧ (4#3).toNat < 5 ∧
    ((0xE0#64).extractLsb' 8 8 &&& ~~~Config.sfusPresent = 0 ∧ (0xE0#64).extractLsb' 0 8 &&& ~~~Config.coprocessorsPresent = 0) ∧
    (0x10#64).extractLsb' 0 8 &&& ~~~Config.coprocessorsPresent ≠ 0 ∧ (31#5).toNat = 24 + 7 ∧ State.reset.flag Psw.R = false ∧
    (State.reset.setFlag Psw.R true).flag Psw.R = true ∧ Plain (State.reset.setFlag Psw.R true) ∧ State.reset.flag Psw.Q = false ∧
    (State.reset.setFlag Psw.Q true).flag Psw.Q = true ∧ Plain (State.reset.setFlag Psw.Q true) ∧ (1 ≤ (1#5).toNat ∧ (7#5).toNat ≤ 7) ∧
    (19 ≤ (19#5).toNat ∧ (22#5).toNat ≤ 22) ∧ State.reset.flag Psw.S = false ∧ ((8#5) ≠ 11#5 ∧ 8 ≤ (8#5).toNat) ∧
    ((0x8000#64).extractLsb' 0 11 = 0 ∧ (0x8400#64).extractLsb' 0 11 ≠ 0 ∧ (0xE0#64).extractLsb' 16 48 = 0 ∧
      (0x10000#64).extractLsb' 16 48 ≠ 0 ∧ 0x4000F#64 &&& ~~~0x000000FFCFFFFFFF#64 = 0 ∧ 0x10000000#64 &&& ~~~0x000000FFCFFFFFFF#64 = 0 ∨
      0x30000000#64 &&& ~~~0x000000FFCFFFFFFF#64 ≠ 0) := by
  refine ⟨by decide +kernel, by decide +kernel, plain_of (by decide +kernel), by decide +kernel, by decide +kernel, by decide +kernel,
    by decide, by decide, by decide, by decide, by decide +kernel, by decide +kernel, plain_of (by decide +kernel), by decide +kernel,
    by decide +kernel, plain_of (by decide +kernel), by decide, by decide, by decide +kernel, by decide, by decide⟩

/-- MTCTL to CR 0 loads the recovery counter, which does not count with PSW[R] = 0, and RFI counts the interval timer (R62, R1055). -/
theorem test_counters : let s := regs { State.reset with itmr := 7 } [(4, 0x123456789)]
    (after (exec (.mtctl 0 4) s)).rctr = 0x23456789 ∧ (after (exec (.mtctl 0 4) s)).itmr = 8 ∧
    (after (exec .rfi { s with iiaoqBack := 4 })).itmr = 8 := by decide +kernel

/-- A one written to a reserved bit, and a return to queues that no interruption saves. -/
theorem test_reserved_and_inconsistent :
    refuses (exec (.mtctl 14 4) (regs State.reset [(4, 0x8400)])) .reservedBits = true ∧
    refuses (exec (.mtctl 22 4) (regs State.reset [(4, 0x30000000)])) .reservedBits = true ∧
    refuses (exec .rfi { State.reset with iiaoqFront := 0x4000, iiaoqBack := 0x4008 }) .inconsistentQueues = true ∧
    goes (exec .rfi { State.reset with iiaoqFront := 0x4000, iiaoqBack := 0x4008, ipsw := 0x80000 }) = true := by decide +kernel

theorem witness_SystemMask : let q := State.reset.setFlag Psw.Q true
    Plain q ∧ q.priv = 0#2 ∧ q.flag Psw.Q = true ∧ State.reset.flag Psw.Q = false ∧ (8#10).getLsbD 3 = true ∧ (0#10).getLsbD 3 = false ∧
    (0x8#64).getMsbD 60 = true ∧ (0#64).getMsbD 60 = false :=
  ⟨plain_of (by decide +kernel), by decide +kernel⟩

theorem witness_CacheControl :
    (State.reset.indexedEa 3 0 0 0#1 0 0).resolveVirtual State.reset = .ok ⟨0, 0, 0⟩ ∧ State.reset.flag Psw.D = false ∧
    (let s := virt [page 0b0011111 true false false] 0x5000
     Plain s ∧ (s.indexedEa 3 0 0 0#1 0 0).resolveVirtual s = .ok ⟨0, 0x5000, 0x5000⟩ ∧
     (s.ea 3 (lowSignExt (0 : BitVec 5)) .none 0 false).resolveVirtual s = .ok ⟨0, 0x5000, 0x5000⟩ ∧
     tlbLookup s.dtlb (s.gva 0 0x5000) ≠ none) ∧
    (let s := virt [] 0x5000
     Plain s ∧ s.flag Psw.D = true ∧ (s.indexedEa 3 0 0 0#1 0 0).resolveVirtual s = .ok ⟨0, 0x5000, 0x5000⟩ ∧
     tlbLookup s.dtlb (s.gva 0 0x5000) = none) :=
  ⟨by decide +kernel, by decide +kernel, ⟨plain_of (by decide +kernel), by decide +kernel⟩, plain_of (by decide +kernel), by decide +kernel⟩

theorem witness_TlbInsertPurge :
    State.reset.priv = 0#2 ∧ State.reset.flag Psw.Q = false ∧ ((0xABCDE7#64).extractLsb' 0 4).toNat < 8 ∧
    (State.reset.setFlag Psw.Q true).flag Psw.Q = true ∧ (State.reset.setFlag Psw.Q true).priv = 0#2 ∧
    8 ≤ ((0x5008#64).extractLsb' 0 4).toNat ∧
    (let s := regs State.reset [(4, 8)]
     s.priv = 0#2 ∧ s.flag Psw.Q = false ∧ 8 ≤ ((s.readGr 4).extractLsb' 0 4).toNat ∧
      refuses (exec (.idtlbt 5 4) s) .reservedPageSize = true) ∧
    (let s := virt [page 0b0011111 true false false] 0x5000
     (s.indexedEa 3 0 0 0#1 0 0).resolveVirtual s = .ok ⟨0, 0x5000, 0x5000⟩ ∧ ((s.readGr 3).extractLsb' 0 4).toNat < 8) ∧
    (let e := page 0b0011111 true false false
     e.covers 0x5FFF = true ∧ e.covers 0x6000 = false ∧ tlbLookup [] 0x6000 = none ∧ tlbLookup [e] 0x5000 = some e ∧
     overlaps 0x6000 0 e = false ∧ (0x4000#96) >>> 14 = (0x7FFF#96) >>> 14) := by decide +kernel

theorem witness_Probes :
    (let s := virt [] 0x5000
     Plain s ∧ (s.ea 3 0 .none 0 false).resolveVirtual s = .ok ⟨0, 0x5000, 0x5000⟩ ∧ tlbLookup s.dtlb (s.gva 0 0x5000) = none ∧
     s.priv = 0#2 ∧ (s.indexedEa 3 0 0 0#1 0 0).resolveVirtual s = .ok ⟨0, 0x5000, 0x5000⟩) ∧
    (let e := page 0b0011111 true false false
     let s := virt [e] 0x5000
     Plain s ∧ (s.ea 3 0 .none 0 false).resolveVirtual s = .ok ⟨0, 0x5000, 0x5000⟩ ∧ tlbLookup s.dtlb (s.gva 0 0x5000) = some e ∧
     s.priv = 0#2 ∧ (s.indexedEa 3 0 0 0#1 0 0).resolveVirtual s = .ok ⟨0, 0x5000, 0x5000⟩) :=
  ⟨⟨plain_of (by decide +kernel), by decide +kernel⟩, plain_of (by decide +kernel), by decide +kernel⟩

/-- LCI completes with no entry in the data TLB (R722). -/
theorem test_lci : goes (exec (.lci 3 0 0 5) (virt [] 0x5000)) = true := by decide +kernel

/-- Units whose state has no exception to report (that a unit does report one is a premise on the model's opaque functions). -/
def quiet : State :=
  { picture with scr := 0xFF, ccr := 0xFF, sfu := Vector.replicate 8 0, copr := Vector.replicate 8 0 }

theorem witness_Assists :
    Plain quiet ∧ State.reset.scr.getMsbD 7 = false ∧ quiet.scr.getMsbD 7 = true ∧ sfuRaises (quiet.sfuCall 0 7 0 0 0) = false ∧
    sfuRaises (quiet.sfuCall 1 7 0 0 0) = false ∧ sfuRaises (quiet.sfuCall 2 7 0 1 0) = false ∧ sfuRaises (quiet.sfuCall 3 7 0 1 2) = false ∧
    quiet.ccr.getMsbD 3 = true ∧ State.reset.ccr.getMsbD 3 = false ∧
    coprRaises ⟨3, 0, 0, quiet.priv, quiet.coprRegs 3, quiet.coprFitted 3⟩ = false ∧
    coprRaises ⟨7, 1, 0, quiet.priv, quiet.coprRegs 7, quiet.coprFitted 7⟩ = false ∧ (7#3) = 1#1 ++ 3#2 ∧
    ((0#17) ++ (1#5) ≠ 0 ∨ (0#1) = 1) ∧ (quiet.ccr.getMsbD 0 = true ∧ quiet.ccr.getMsbD 1 = true) ∧
    (let s : State := { State.reset with ccr := 0x40 }
     s.ccr.getMsbD 0 = false ∧ s.ccr.getMsbD 1 = true) ∧ quiet.ccr.getMsbD 2 = true := by
  refine ⟨plain_of (by decide +kernel), by decide +kernel⟩

theorem witness_CoprLoadsStores :
    Plain quiet ∧ quiet.mem.wf = true ∧ quiet.coprEnabled 2#3 = true ∧ transferRaises (quiet.coprTransfer 2 31 false false) = false ∧
    transferRaises (quiet.coprTransfer 7 0 true true) = false ∧ picture.coprEnabled 2#3 = false ∧
    Reaches quiet .load (quiet.shortEa 3 8 0 0 0) 4 0x1004 ∧ Reaches quiet .store (quiet.indexedEa 3 0 0 0 0 3) 8 0x1000 ∧
    Reaches picture .store (picture.shortEa 3 8 0 0 0) 4 0x1004 ∧
    (let s : State := { virt [] 0x5000 with ccr := 0xFF, copr := Vector.replicate 8 0 }
     Plain s ∧ s.coprEnabled 2#3 = true ∧ transferRaises (s.coprTransfer 2 31 false false) = false ∧
      (s.shortEa 3 16 0 0 0).resolve s = .ok ⟨0, 0x5008, 0x5000⟩ ∧
      s.check .load ⟨0, 0x5008, 0x5000⟩ 4 = .error (.trap .dataTlbMiss (.data ⟨0, 0x5008, 0x5000⟩))) := by
  refine ⟨plain_of (by decide +kernel), by decide +kernel, by decide +kernel, by decide +kernel, by decide +kernel, by decide +kernel,
    reaches_of (by decide +kernel), reaches_of (by decide +kernel), reaches_of (by decide +kernel), plain_of (by decide +kernel), by decide +kernel⟩

/-- The floating-point coprocessor enabled over the memory picture. -/
def fpOn : State := { picture with ccr := 0xC0 }

theorem fpOn_ready : FpReady fpOn := by unfold FpReady; decide +kernel

/-- FID between two doubleword stores of register 0 and not, the store it asks for next, and tests of what no compare of their kind gave. -/
theorem test_fp_sequence :
    (run 0x2C601200 fpOn).fpSequence = .stored ∧ (run 0x30000000 { fpOn with fpSequence := .stored }).fpSequence = .identified ∧
    refuses (exec (.fcpy 5 1 6) { fpOn with fpSequence := .identified }) .fpIdentifyAlone = true ∧
    (run 0x2C601200 { fpOn with fpSequence := .identified }).fpSequence = .stored ∧
    refuses (exec .fid fpOn) .fpIdentifyAlone = true ∧
    (let t := run 0x30850C09 fpOn
     goes (exec (.ftest 1 0) t) = true ∧ refuses (exec (.ftest 1 1) { t with fpQueue := 11 }) .fpMixedTest = true ∧
     refuses (exec (.ftest 0 0) t) .fpMixedTest = true) := by decide +kernel

/-- An undefined operation of opcode 0B with unit 1, and a reserved one of the performance monitor. -/
theorem test_rejected_assists :
    (let t := run 0x2C601047 { (regs picture [(3, 0x5000)]) with psw := 8, iva := 0x8000 }
     (t.iaoqFront, t.iir) = (0x82C0, 0x2C601047)) ∧
    (run 0x30002280 { State.reset with psw := 8, iva := 0x8000, ccr := 0x20 }).iaoqFront = 0x8100 := by decide +kernel

theorem witness_FpLoadsStores :
    Plain fpOn ∧ fpOn.mem.wf = true ∧ FpOn fpOn ∧ Reaches fpOn .load (fpOn.fpLongEa 3 0 1 0 .none) 4 0x1004 ∧
    Reaches fpOn .load (fpOn.shortEa 3 16 0 0 0) 8 0x1008 ∧ Reaches fpOn .store (fpOn.indexedEa 3 0 0 0 0 2) 4 0x1000 ∧
    Reaches fpOn .store (fpOn.long10Ea 3 0 1 0 0 0) 8 0x1008 ∧
    (((fpOn.mem.load (fpOn.flag Psw.E) 0x1004 4).extractLsb' 0 32).getMsbD 25 = true ∧
      ((fpOn.mem.load (fpOn.flag Psw.E) 0x1000 4).extractLsb' 0 32).getMsbD 25 = false) ∧
    (({ fpOn with ccr := 0x80 } : State).coprEnabled 0#3 ≠ ({ fpOn with ccr := 0x80 } : State).coprEnabled 1#3) ∧
    (picture.coprEnabled 0#3 = false ∧ picture.coprEnabled 1#3 = false) ∧ (fpOn.setFpTrap true).fpTrap = true ∧ (3#5).toNat < 4 ∧ 4 ≤ (4#5).toNat ∧
    (let s : State := { virt [] 0x5000 with ccr := 0xC0 }
     Plain s ∧ FpOn s ∧ (s.shortEa 3 16 0 0 0).resolve s = .ok ⟨0, 0x5008, 0x5000⟩ ∧
      s.check .store ⟨0, 0x5008, 0x5000⟩ 8 = .error (.trap .dataTlbMiss (.data ⟨0, 0x5008, 0x5000⟩))) := by
  refine ⟨plain_of (by decide +kernel), by decide +kernel, by unfold FpOn; decide +kernel, reaches_of (by decide +kernel),
    reaches_of (by decide +kernel), reaches_of (by decide +kernel), reaches_of (by decide +kernel), by decide +kernel, by decide +kernel,
    by decide +kernel, by decide +kernel, by decide +kernel, by decide +kernel, plain_of (by decide +kernel), by unfold FpOn; decide +kernel, by decide +kernel⟩

theorem witness_FpGates :
    isFpOperation .fid = true ∧ isFpOperation (.fadd 4 5 1 6) = true ∧ FpOn fpOn ∧
    (let s := fpOn.writeFpr 3 0x04000000
     FpOn s ∧ s.fpPending = true) ∧
    (let s : State := { fpOn with fpSequence := .identified }
     s.coprEnabled 0#3 = true ∧ s.coprEnabled 1#3 = true ∧ s.fpSequence = .identified) ∧ (fpOn.setFpTrap true).fpSequence ≠ .identified ∧
    ((fpOn.setFpTrap true).coprEnabled 0#3 = true ∧ (fpOn.setFpTrap true).coprEnabled 1#3 = true ∧ (fpOn.setFpTrap true).fpTrap = true) := by
  refine ⟨by decide, by decide, by unfold FpOn; decide +kernel, ⟨by unfold FpOn; decide +kernel, by decide +kernel⟩, by decide +kernel, by decide +kernel, by decide +kernel⟩

theorem witness_FpOperations :
    Plain fpOn ∧ FpReady fpOn ∧ FpDestination (reg0C 4 1) ∧ FpSource (reg0C 0 1) ∧ FpSource (reg0E 4 1 0) ∧ FpSource (reg0C 31 0) ∧
    (∀ x ∈ [reg0C 6 1, reg0C 4 1, reg0C 5 1], x.size ≠ .quad) ∧ (∃ x ∈ [reg0C 6 3, reg0C 4 3], x.size = .quad) ∧
    (∀ w ∈ [((4 : BitVec 5), (5 : BitVec 5), (8 : BitVec 5), (7 : BitVec 5), (6 : BitVec 5), (0 : BitVec 1)), (16, 1, 4, 19, 2, 1)],
      let (rm1, rm2, ta, ra, tm, f) := w
      ra ≠ tm ∧ ta ≠ rm1 ∧ ta ≠ rm2 ∧ ta ≠ tm ∧ ∀ v ∈ [rm1, rm2, ta, ra, tm], if f = 1#1 then v ≠ 0#5 else 4 ≤ v.toNat) ∧
    ((∀ v ∈ [(4 : BitVec 5), 5, 8, 7, 3], v ≠ 0#5) ∧ ∃ v ∈ [(4 : BitVec 5), 5, 8, 7, 3], v.toNat < 4) := by
  refine ⟨plain_of (by decide +kernel), fpOn_ready, ?_, ?_, ?_, ?_, by decide +kernel, ⟨_, List.mem_cons_self, by decide +kernel⟩, by decide, by decide⟩ <;>
    (first | unfold FpDestination | unfold FpSource) <;> decide +kernel

/-- The operands that FpRefuses speaks of: a register without an extension bit, a bit with data registers, and both. -/
theorem witness_FpRefuses :
    (∃ x ∈ [reg0C 4 1, reg0C 3 1], x.n ≠ 0#5 ∧ x.n.toNat < 4) ∧ (¬∃ x ∈ [reg0C 6 1] ++ [reg0C 4 1, reg0C 3 1], x.size ≠ .single ∧ x.h = 1#1) ∧
    (∃ x ∈ [reg0C 0 1], x.n.toNat < 4) ∧ (∃ x ∈ [reg0E 6 1 1] ++ [reg0E 4 0 1], x.size ≠ .single ∧ x.h = 1#1) ∧ (reg0E 6 1 1).size ≠ .quad := by
  decide

/-- R806 and D27: an exception register as a source, register 0 as a destination, an extension bit on a doubleword. -/
theorem test_fp_operands_refused :
    refuses (exec (.fadd 4 3 1 6) fpOn) .fpRegister = true ∧ refuses (exec (.fcnvXF 4 1 0 0) fpOn) .fpRegister = true ∧
    refuses (exec (.faddE 4 5 0 1 0 1 6) fpOn) .fpExtensionBit = true ∧ refuses (exec (.fcmp 4 1 0 1 0) fpOn) .fpRegister = true ∧
    refuses (exec (.fmpyadd 4 5 8 7 0 3) fpOn) .fpRegister = true := by decide +kernel

/-- R847, R848 and 93_implementation_defined.md section 2: an overlap, or a specifier 0 of either format, is undefined. -/
theorem test_multiple_operands_refused :
    refuses (exec (.fmpyadd 4 5 8 7 0 7) fpOn) .fpMultiOperands = true ∧ refuses (exec (.fmpysub 8 5 8 7 1 6) fpOn) .fpMultiOperands = true ∧
    refuses (exec (.fmpyadd 0 5 8 7 0 6) fpOn) .fpMultiOperands = true ∧ refuses (exec (.fmpysub 4 5 8 7 1 0) fpOn) .fpMultiOperands = true := by
  decide +kernel

theorem witness_FpConversions :
    Denotes (FpSize.double.fmt.value 0x4004000000000000) 2.5 ∧ FpSize.double.fmt.value 0x7FF4000000000000 = .nan ∧
    (FpSize.double.fmt.value 0x7FF0000000000000 = .inf false ∧ FpSize.single.fmt.value 0xFF800000 = .inf true ∧
      FpEnv.traps ⟨0#2, 16#5⟩ fpV = true ∧ FpEnv.traps ⟨0#2, 15#5⟩ fpV = false) ∧
    ((32 : Nat) = 32 ∨ (32 : Nat) = 64 ∨ (32 : Nat) = 128) := by
  refine ⟨⟨false, 0x14000000000000, -51, by decide +kernel, by norm_num⟩, by decide +kernel, by decide +kernel, .inl rfl⟩

/-- Table 10-6 and R950: an unsigned conversion of −∞ gives zero, a signed one of +∞ the largest integer, each invalid. -/
theorem test_convert_infinity :
    convertToInteger FpSize.single.fmt ⟨0#2, 0#5⟩ 0#2 false 32 0xFF800000 = .value 0 fpV ∧
    convertToInteger FpSize.double.fmt ⟨0#2, 0#5⟩ 0#2 true 32 0x7FF0000000000000 = .value 0x7FFFFFFF fpV := by decide +kernel

theorem witness_FpCompareTest :
    (reg0C 4 1).size ≠ .quad ∧ (reg0C 4 3).size = .quad ∧ fpOn.fpEnv.traps fpV = false ∧
    (fpOn.writeFpr 0 0x0000001000000000).fpEnv.traps fpV = true ∧ FpReady (fpOn.writeFpr 0 0x0000001000000000) ∧
    (FpSize.double.fmt.compare 0x7FF4000000000000 0 1).2 = true ∧ (FpSize.double.fmt.compare 0 0 1).2 = false ∧
    (2#3) ≠ 1#3 ∧ (7#3) ≠ 0#3 ∧ FpReady { fpOn with fpSequence := .stored } ∧
    (fpOn.fpArray.getMsbD 6 = true ∧ fpOn.fpQueue = 12 ∧ ({ fpOn with fpArray := 0 } : State).fpArray.getMsbD 6 = false) ∧
    (FpSize.double.fmt.value 0xFFF0000000000000 = .inf true ∧ FpSize.double.fmt.value 0x7FF0000000000000 = .inf false) ∧
    Denotes (FpSize.double.fmt.value 0x7FEFFFFFFFFFFFFF) ((2 ^ 53 - 1) * 2 ^ 971) := by
  refine ⟨by decide +kernel, by decide +kernel, by decide +kernel, by decide +kernel, by unfold FpReady; decide +kernel, by decide +kernel,
    by decide +kernel, by decide, by decide, by unfold FpReady; decide +kernel, by decide +kernel, by decide +kernel,
    ⟨false, 2 ^ 53 - 1, 971, by decide +kernel, by norm_num⟩⟩

/-- The order of R852: −∞ below the most negative number, +∞ above it, equal to itself (conditions <, >, =). -/
theorem test_compare_infinity :
    let f := FpSize.double.fmt
    (f.compare 0xFFF0000000000000 0xFFEFFFFFFFFFFFFF 9#5).1 = true ∧ (f.compare 0x7FF0000000000000 0xFFEFFFFFFFFFFFFF 17#5).1 = true ∧
    (f.compare 0x7FF0000000000000 0x7FF0000000000000 5#5).1 = true := by decide +kernel

theorem witness_FpDelivered : FpDestination ⟨4, 1, .single⟩ ∧ (FpReg.mk 4 1 .single).size ≠ .quad ∧
    (∀ r ∈ [FpReg.mk 4 0 .single, FpReg.mk 0 0 .double], FpSource r ∧ r.size ≠ .quad) := by
  unfold FpDestination FpSource; decide

theorem witness_FpRounded : Denotes (FpSize.double.fmt.value 0x3FF0000000000000) 1 ∧ Denotes (FpSize.single.fmt.value 0xBFC00000) (-1.5) ∧
    (1 : ℝ) ≠ 0 ∧ (0 : ℝ) ≤ 1 ∧ (2 ^ 127 : Int).natAbs ≤ 2 ^ 127 := by
  refine ⟨⟨false, 2 ^ 52, -52, by decide +kernel, by norm_num⟩, ⟨true, 0xC00000, -23, by decide +kernel, by norm_num⟩, by norm_num, by norm_num, by norm_num⟩

/-- The premises about overflow, tininess and roundings to an integer, in single format: 2^127 + 2^127, 2^-126 · 0.5, and 1.5. -/
theorem witness_FpRounded_ranges :
    (Denotes (FpSize.single.fmt.value 0x7F000000) (2 ^ 127) ∧ Overflows FpSize.single.fmt 1#2 (2 ^ 127 + 2 ^ 127)) ∧
    (Denotes (FpSize.single.fmt.value 0x00800000) (2 ^ (-126 : Int)) ∧ Denotes (FpSize.single.fmt.value 0x3F000000) (1 / 2) ∧
      Tiny FpSize.single.fmt 1#2 (2 ^ (-126 : Int) * (1 / 2)) ∧ ¬Overflows FpSize.single.fmt 1#2 (2 ^ (-126 : Int) * (1 / 2))) ∧
    (FpSize.single.fmt.value 0xBFC00000 = .fin true 0xC00000 (-23) ∧ ∀ j : Int, (-1.5 : ℝ) ≠ j) ∧
    (FpEnv.traps ⟨1#2, 0#5⟩ fpO = false ∧ FpEnv.traps ⟨1#2, 31#5⟩ fpO = true ∧ FpEnv.traps ⟨1#2, 31#5⟩ fpU = true) := by
  have he : FpSize.single.fmt.emax = 127 ∧ FpSize.single.fmt.emin = -126 := by decide
  refine ⟨⟨⟨false, 2 ^ 23, 104, by decide +kernel, by norm_num⟩, .inr (.inl ⟨rfl, ?_⟩)⟩,
    ⟨⟨false, 2 ^ 23, -149, by decide +kernel, by norm_num⟩, ⟨false, 2 ^ 23, -24, by decide +kernel, by norm_num⟩, ⟨by norm_num, .inr (.inl ⟨rfl, ?_⟩)⟩, ?_⟩,
    ⟨by decide +kernel, fun j h => ?_⟩, by decide⟩
  · rw [he.1]; norm_num
  · rw [he.2]; norm_num
  · simp only [Overflows, he.1]; norm_num
    exact ⟨fun h => absurd h (by decide), fun h => absurd h (by decide)⟩
  · have h2 : ((2 * j : Int) : ℝ) = ((-3 : Int) : ℝ) := by push_cast; linarith
    have := Int.cast_injective h2
    omega

/-- The premises about special operands: signaling and quiet NaNs, infinities and zeros. -/
theorem witness_FpRounded_specials :
    let f := FpSize.double.fmt
    IsSignaling f 0x7FF8000000000001 ∧ (f.value 0x7FF4000000000000 = .nan ∧ ¬IsSignaling f 0x7FF4000000000000) ∧
    f.value 0x7FF0000000000000 = .inf false ∧ f.value 0xFFF0000000000000 = .inf true ∧ f.value 0x8000000000000000 = .fin true 0 (-1074) ∧
    f.value 0xBFF0000000000000 = .fin true (2 ^ 52) (-52) := by
  unfold IsSignaling; decide +kernel

end Sys2Proof.Tests
end

section
/-! SUPPORT. The numbers that assembled immediates stand for, the addresses of every format, and O20. -/

namespace Sys2Proof.Machine

/-! ### Numbers of concatenated fields -/

/-- A one-bit field is the sign of the number it begins. -/
theorem toInt_signBit (c : BitVec 1) : c.toInt = if c = 1#1 then -1 else 0 := by
  revert c; decide

theorem toNat_append_eq_add {m n : Nat} (x : BitVec m) (y : BitVec n) : (x ++ y).toNat = 2 ^ n * x.toNat + y.toNat := by
  rw [BitVec.toNat_append, ← Nat.shiftLeft_add_eq_or_of_lt y.isLt, Nat.shiftLeft_eq, Nat.mul_comm]

theorem toInt_append_eq_add {m n : Nat} (hm : m ≠ 0) (x : BitVec m) (y : BitVec n) :
    (x ++ y).toInt = 2 ^ n * x.toInt + y.toNat := by
  simp [BitVec.toInt_append, hm]

theorem toNat_extractLsb'_eq_div_mod {n : Nat} (x : BitVec n) (i k : Nat) :
    (x.extractLsb' i k).toNat = x.toNat / 2 ^ i % 2 ^ k := by
  rw [BitVec.extractLsb'_toNat, Nat.shiftRight_eq_div_pow]

/-- The rightmost bit of a field as the field of one bit. -/
theorem extractLsb'_zero_one_eq_one_iff {n : Nat} (x : BitVec n) : x.extractLsb' 0 1 = 1#1 ↔ x.getLsbD 0 = true := by
  rw [BitVec.eq_of_getLsbD_eq_iff]
  simp

/-! ### Immediates -/

/-- The rightmost bit of a low-sign-extended field is its sign, the others its magnitude (R326). -/
theorem toInt_lowSignExt {n : Nat} (hn : n < 64) (x : BitVec (n + 1)) :
    (lowSignExt x).toInt = (x.toNat / 2 : Nat) - (if x.getLsbD 0 then (2 ^ n : Nat) else 0 : Nat) := by
  have hx : x.toNat < 2 * 2 ^ n := by have := x.isLt; rwa [Nat.pow_succ'] at this
  have body : (x >>> 1).toNat = x.toNat / 2 := by simp [Nat.shiftRight_eq_div_pow]
  unfold lowSignExt
  rw [BitVec.toInt_signExtend_of_le (by omega)]
  split
  · have sign : ((1 : BitVec (n + 1)) <<< (n + 1 - 1)).toNat = 2 ^ n := BitVec.toNat_twoPow_of_lt (by omega)
    have disjoint := Nat.two_pow_add_eq_or_of_lt (i := n) (b := x.toNat / 2) (by omega) 1
    have signed : (x >>> 1 ||| (1 : BitVec (n + 1)) <<< (n + 1 - 1)).toNat = 2 ^ n + x.toNat / 2 := by
      rw [BitVec.toNat_or, body, sign, Nat.or_comm]
      simpa using disjoint.symm
    rw [BitVec.toInt_eq_toNat_cond, signed, Nat.pow_succ', if_neg (by omega)]
    omega
  · rw [BitVec.toInt_eq_toNat_cond, body, Nat.pow_succ', if_pos (by omega)]
    simp

/-- A word displacement counts words: it is four times its number in bytes (R475). -/
theorem toInt_wordDisp {n : Nat} (hn : n ≤ 62) (w : BitVec n) : (wordDisp w).toInt = 4 * w.toInt := by
  have hw : (w.signExtend 64).toInt = w.toInt := BitVec.toInt_signExtend_of_le (by omega)
  have hpow : (2 : Int) ^ n ≤ 2 ^ 62 := by exact_mod_cast Nat.pow_le_pow_right (by decide) hn
  have lower := BitVec.le_two_mul_toInt (x := w)
  have upper := BitVec.two_mul_toInt_lt (x := w)
  rw [wordDisp, BitVec.shiftLeft_eq_mul_twoPow, BitVec.toInt_mul, hw, show (BitVec.twoPow 64 2).toInt = 4 by decide,
    Int.bmod_eq_of_le (by omega) (by omega), Int.mul_comm]

theorem toNat_assemble3 (x : BitVec 3) : (assemble3 x).toNat = 4 * (x.toNat % 2) + x.toNat / 2 := by
  have := x.isLt
  rw [assemble3, toNat_append_eq_add, toNat_extractLsb'_eq_div_mod, toNat_extractLsb'_eq_div_mod]
  omega

theorem assemble6_eq (cl : BitVec 1) (clen : BitVec 5) : (assemble6 cl clen : Int) = 32 * cl.toNat + 32 - clen.toNat := by
  have := clen.isLt
  simp only [assemble6]
  omega

theorem toInt_disp12 (w1 : BitVec 11) (w : BitVec 1) :
    (disp12 w1 w).toInt = 4 * ((w1.toNat / 2 + 1024 * (w1.toNat % 2) : Nat) - (if w = 1#1 then 2048 else 0)) := by
  have := w1.isLt
  rw [disp12, toInt_wordDisp (by decide), assemble12, toInt_append_eq_add (by decide), toInt_append_eq_add (by decide), toInt_signBit]
  simp only [toNat_extractLsb'_eq_div_mod]
  split <;> omega

theorem toInt_disp17 (w1 : BitVec 5) (w2 : BitVec 11) (w : BitVec 1) :
    (disp17 w1 w2 w).toInt =
      4 * ((w2.toNat / 2 + 1024 * (w2.toNat % 2) + 2048 * w1.toNat : Nat) - (if w = 1#1 then 65536 else 0)) := by
  have := w2.isLt
  rw [disp17, toInt_wordDisp (by decide), assemble17, toInt_append_eq_add (by decide), toInt_append_eq_add (by decide),
    toInt_append_eq_add (by decide), toInt_signBit]
  simp only [toNat_extractLsb'_eq_div_mod]
  split <;> omega

theorem toInt_disp22 (w3 w1 : BitVec 5) (w2 : BitVec 11) (w : BitVec 1) :
    (disp22 w3 w1 w2 w).toInt =
      4 * ((w2.toNat / 2 + 1024 * (w2.toNat % 2) + 2048 * w1.toNat + 65536 * w3.toNat : Nat) -
        (if w = 1#1 then 2097152 else 0)) := by
  have := w2.isLt
  rw [disp22, toInt_wordDisp (by decide), assemble22, toInt_append_eq_add (by decide), toInt_append_eq_add (by decide),
    toInt_append_eq_add (by decide), toInt_append_eq_add (by decide), toInt_signBit]
  simp only [toNat_extractLsb'_eq_div_mod]
  split <;> omega

theorem toInt_leftImmediate (x : BitVec 21) :
    (leftImmediate x).toInt =
      2048 * ((x.toNat / 4096 % 4 + 4 * (x.toNat / 65536) + 128 * (x.toNat / 16384 % 4) + 512 * (x.toNat / 2 % 2048) : Nat) -
        (if x.getLsbD 0 then 1048576 else 0)) := by
  have := x.isLt
  rw [leftImmediate, BitVec.toInt_signExtend_of_le (by decide), BitVec.toInt_append_zero, assemble21,
    toInt_append_eq_add (by decide), toInt_append_eq_add (by decide), toInt_append_eq_add (by decide),
    toInt_append_eq_add (by decide), toInt_signBit]
  rw [show field x 20 20 = x.extractLsb' 0 1 from rfl]
  simp only [field, toNat_extractLsb'_eq_div_mod, extractLsb'_zero_one_eq_one_iff, Nat.reduceSub, Nat.reduceAdd, Nat.reducePow]
  split <;> omega

/-! ### Long displacements (R15, R402) -/

/-- The two bits between the sign and the rest of a long displacement repeat the sign when PSW[W] = 0. -/
theorem toNat_repeated_sign (z : BitVec 1) : (z ++ z).toNat = if z = 1#1 then 3 else 0 := by
  revert z; decide

theorem toInt_assemble16_narrow (sr : BitVec 2) (im14 : BitVec 14) :
    (assemble16 false sr im14).toInt = (im14.toNat / 2 : Nat) - (if im14.extractLsb' 0 1 = 1#1 then 8192 else 0) := by
  have := im14.isLt
  rw [assemble16, toInt_append_eq_add (by decide), toInt_append_eq_add (by decide), toInt_signBit, if_neg Bool.false_ne_true,
    toNat_repeated_sign, toNat_extractLsb'_eq_div_mod]
  split <;> omega

theorem toInt_assemble16_wide (sr : BitVec 2) (im14 : BitVec 14) :
    (assemble16 true sr im14).toInt =
      (im14.toNat / 2 + 8192 * ((im14.extractLsb' 0 1 ++ im14.extractLsb' 0 1) ^^^ sr).toNat : Nat) -
        (if im14.extractLsb' 0 1 = 1#1 then 32768 else 0) := by
  have := im14.isLt
  rw [assemble16, toInt_append_eq_add (by decide), toInt_append_eq_add (by decide), toInt_signBit, if_pos rfl,
    toNat_extractLsb'_eq_div_mod]
  split <;> omega

theorem toInt_assemble16a_narrow (sr : BitVec 2) (im11a : BitVec 11) (iv : BitVec 1) :
    (assemble16a false sr im11a iv).toInt = (4 * im11a.toNat : Nat) - (if iv = 1#1 then 8192 else 0) := by
  rw [assemble16a, BitVec.toInt_append_zero, toInt_append_eq_add (by decide), toInt_append_eq_add (by decide), toInt_signBit,
    if_neg Bool.false_ne_true, toNat_repeated_sign]
  split <;> omega

theorem toInt_assemble16a_wide (sr : BitVec 2) (im11a : BitVec 11) (iv : BitVec 1) :
    (assemble16a true sr im11a iv).toInt =
      (4 * im11a.toNat + 8192 * ((iv ++ iv) ^^^ sr).toNat : Nat) - (if iv = 1#1 then 32768 else 0) := by
  rw [assemble16a, BitVec.toInt_append_zero, toInt_append_eq_add (by decide), toInt_append_eq_add (by decide), toInt_signBit,
    if_pos rfl]
  split <;> omega

theorem State.toInt_disp14 (s : State) (sr : BitVec 2) (im14 : BitVec 14) :
    (s.disp14 sr im14).toInt = (assemble16 (s.flag Psw.W) sr im14).toInt := BitVec.toInt_signExtend_of_le (by decide)

theorem State.toInt_disp11 (s : State) (sr : BitVec 2) (im11a : BitVec 11) (iv : BitVec 1) :
    (s.disp11 sr im11a iv).toInt = (assemble16a (s.flag Psw.W) sr im11a iv).toInt := BitVec.toInt_signExtend_of_le (by decide)

/-- Format 3 is Format 2 with a zero bit after its field, a multiple of 8. -/
theorem State.toInt_disp10 (s : State) (sr : BitVec 2) (im10a : BitVec 10) (iv : BitVec 1) :
    (s.disp10 sr im10a iv).toInt = (assemble16a (s.flag Psw.W) sr (im10a ++ 0#1) iv).toInt := s.toInt_disp11 sr _ iv

theorem four_mul_toNat_append_zero (im10a : BitVec 10) : 4 * (im10a ++ 0#1).toNat = 8 * im10a.toNat := by
  rw [toNat_append_eq_add, BitVec.toNat_zero]
  omega

theorem State.long_displacements_narrow (s : State) (sr : BitVec 2) (im14 : BitVec 14) (im11a : BitVec 11) (im10a : BitVec 10)
    (iv : BitVec 1) (hW : s.flag Psw.W = false) :
    (s.disp14 sr im14).toInt = (im14.toNat / 2 : Nat) - (if im14.extractLsb' 0 1 = 1#1 then 8192 else 0) ∧
    (s.disp11 sr im11a iv).toInt = (4 * im11a.toNat : Nat) - (if iv = 1#1 then 8192 else 0) ∧
    (s.disp10 sr im10a iv).toInt = (8 * im10a.toNat : Nat) - (if iv = 1#1 then 8192 else 0) := by
  rw [s.toInt_disp14, s.toInt_disp11, s.toInt_disp10, hW, ← four_mul_toNat_append_zero]
  exact ⟨toInt_assemble16_narrow sr im14, toInt_assemble16a_narrow sr im11a iv, toInt_assemble16a_narrow sr _ iv⟩

theorem State.long_displacements_wide (s : State) (sr : BitVec 2) (im14 : BitVec 14) (im11a : BitVec 11) (im10a : BitVec 10)
    (iv z : BitVec 1) (hz : z = im14.extractLsb' 0 1) (hW : s.flag Psw.W = true) :
    (s.disp14 sr im14).toInt = (im14.toNat / 2 + 8192 * ((z ++ z) ^^^ sr).toNat : Nat) - (if z = 1#1 then 32768 else 0) ∧
    (s.disp11 sr im11a iv).toInt = (4 * im11a.toNat + 8192 * ((iv ++ iv) ^^^ sr).toNat : Nat) - (if iv = 1#1 then 32768 else 0) ∧
    (s.disp10 sr im10a iv).toInt = (8 * im10a.toNat + 8192 * ((iv ++ iv) ^^^ sr).toNat : Nat) - (if iv = 1#1 then 32768 else 0) := by
  rw [s.toInt_disp14, s.toInt_disp11, s.toInt_disp10, hW, ← four_mul_toNat_append_zero, hz]
  exact ⟨toInt_assemble16_wide sr im14, toInt_assemble16a_wide sr im11a iv, toInt_assemble16a_wide sr _ iv⟩

/-! ### The address and the new base of each modification (R402, R404) -/

section
variable (s : State) (b im5 : BitVec 5) (dx : Dword) (sr : BitVec 2) (long : Bool)

@[simp] theorem State.ea_none_offset : (s.ea b dx .none sr long).offset = s.readGr b + dx := rfl
@[simp] theorem State.ea_before_offset : (s.ea b dx .before sr long).offset = s.readGr b + dx := rfl
@[simp] theorem State.ea_after_offset : (s.ea b dx .after sr long).offset = s.readGr b := rfl
@[simp] theorem State.ea_none_newBase : (s.ea b dx .none sr long).newBase = none := rfl
@[simp] theorem State.ea_before_newBase : (s.ea b dx .before sr long).newBase = some (s.readGr b + dx) := rfl
@[simp] theorem State.ea_after_newBase : (s.ea b dx .after sr long).newBase = some (s.readGr b + dx) := rfl

@[simp] theorem shortModify_unmodified (a : BitVec 1) : shortModify a 0#1 = .none := rfl
@[simp] theorem shortModify_before : shortModify 1#1 1#1 = .before := rfl
@[simp] theorem shortModify_after : shortModify 0#1 1#1 = .after := rfl

/-- With m = 1 the base is modified, whether before or after. -/
theorem State.ea_shortModify_newBase (a : BitVec 1) :
    (s.ea b dx (shortModify a 1#1) sr long).newBase = some (s.readGr b + dx) := by
  rcases (show a = 0#1 ∨ a = 1#1 by revert a; decide) with rfl | rfl <;> rfl

/-- STBY and STDBY address as a short displacement does; their new base loses the bits below the datum's alignment. -/
theorem State.partialEa_eq (n : Dword) (a m : BitVec 1) :
    s.partialEa n b im5 sr a m =
      { s.shortEa b im5 sr a m with newBase := (s.shortEa b im5 sr a m).newBase.map (· &&& ~~~(n - 1)) } := rfl

end

/-- Clearing the bits below the alignment of a word or doubleword rounds down to a multiple of it. -/
theorem toNat_and_not_pred (x n : Dword) (hn : n = 4#64 ∨ n = 8#64) : (x &&& ~~~(n - 1)).toNat = x.toNat / n.toNat * n.toNat := by
  obtain ⟨k, hk, hmask⟩ : ∃ k, n.toNat = 2 ^ k ∧ ~~~(n - 1) = BitVec.allOnes 64 <<< k := by
    rcases hn with rfl | rfl
    · exact ⟨2, by decide, by decide⟩
    · exact ⟨3, by decide, by decide⟩
  have hle : x.toNat / 2 ^ k * 2 ^ k < 2 ^ 64 := (Nat.div_mul_le_self _ _).trans_lt x.isLt
  rw [hmask, ← BitVec.shiftLeft_ushiftRight, hk, BitVec.toNat_shiftLeft, BitVec.toNat_ushiftRight, Nat.shiftLeft_eq,
    Nat.shiftRight_eq_div_pow, Nat.mod_eq_of_lt hle]

/-! ### The formats -/

theorem State.partialEa_address (s : State) (b im5 : BitVec 5) (sr : BitVec 2) (a : BitVec 1) (n : Dword) (hn : n = 4#64 ∨ n = 8#64) :
    (s.partialEa n b im5 sr a 0#1).offset = s.readGr b + lowSignExt im5 ∧ (s.partialEa n b im5 sr a 0#1).newBase = none ∧
    (s.partialEa n b im5 sr 0#1 1#1).offset = s.readGr b ∧
    (s.partialEa n b im5 sr 1#1 1#1).offset = s.readGr b + lowSignExt im5 ∧
    (∃ v, (s.partialEa n b im5 sr a 1#1).newBase = some v ∧
      v.toNat = (s.readGr b + lowSignExt im5).toNat / n.toNat * n.toNat) := by
  simp only [State.partialEa_eq, State.shortEa]
  refine ⟨rfl, rfl, rfl, rfl, _, ?_, toNat_and_not_pred _ n hn⟩
  rw [s.ea_shortModify_newBase, Option.map_some]

theorem State.fpLongEa_address (s : State) (b : BitVec 5) (sr : BitVec 2) (im11a : BitVec 11) (iv : BitVec 1) :
    (s.fpLongEa b sr im11a iv .none).offset = s.readGr b + s.disp11 sr im11a iv ∧ (s.fpLongEa b sr im11a iv .none).newBase = none ∧
    (s.fpLongEa b sr im11a iv .before).offset = s.readGr b + s.disp11 sr im11a iv ∧
    (s.fpLongEa b sr im11a iv .before).newBase = some (s.readGr b + s.disp11 sr im11a iv) ∧
    (s.fpLongEa b sr im11a iv .after).offset = s.readGr b ∧
    (s.fpLongEa b sr im11a iv .after).newBase = some (s.readGr b + s.disp11 sr im11a iv) := by
  simp [State.fpLongEa]

theorem State.shortEa_address (s : State) (b im5 : BitVec 5) (sr : BitVec 2) (a : BitVec 1) :
    (s.shortEa b im5 sr a 0#1).offset = s.readGr b + lowSignExt im5 ∧ (s.shortEa b im5 sr a 0#1).newBase = none ∧
    (s.shortEa b im5 sr 1#1 1#1).offset = s.readGr b + lowSignExt im5 ∧
    (s.shortEa b im5 sr 1#1 1#1).newBase = some (s.readGr b + lowSignExt im5) ∧
    (s.shortEa b im5 sr 0#1 1#1).offset = s.readGr b ∧
    (s.shortEa b im5 sr 0#1 1#1).newBase = some (s.readGr b + lowSignExt im5) := by
  simp [State.shortEa]

theorem State.indexedEa_address (s : State) (b x : BitVec 5) (sr : BitVec 2) (u : BitVec 1) (shift : Nat) :
    (s.indexedEa b x sr u 0#1 shift).offset = s.readGr b + (if u = 1#1 then s.readGr x <<< shift else s.readGr x) ∧
    (s.indexedEa b x sr u 0#1 shift).newBase = none ∧
    (s.indexedEa b x sr u 1#1 shift).offset = s.readGr b ∧
    (s.indexedEa b x sr u 1#1 shift).newBase = some (s.readGr b + (if u = 1#1 then s.readGr x <<< shift else s.readGr x)) := by
  simp [State.indexedEa]

/-- Opcodes 13 and 1B: the sign of the displacement chooses between before and after. -/
theorem State.longModifyEa_address (s : State) (b : BitVec 5) (sr : BitVec 2) (im14 : BitVec 14) :
    (s.longModifyEa b sr im14).newBase = some (s.readGr b + s.disp14 sr im14) ∧
    (s.longModifyEa b sr im14).offset =
      (if (s.disp14 sr im14).toInt < 0 then s.readGr b + s.disp14 sr im14 else s.readGr b) := by
  unfold State.longModifyEa
  by_cases neg : (s.disp14 sr im14).toInt < 0 <;> simp [BitVec.msb_eq_toInt, neg]

/-- Format 2 chooses the other way round. -/
theorem State.long11Ea_address (s : State) (b : BitVec 5) (sr : BitVec 2) (im11a : BitVec 11) (iv : BitVec 1) :
    (s.long11Ea b sr im11a iv).newBase = some (s.readGr b + s.disp11 sr im11a iv) ∧
    (s.long11Ea b sr im11a iv).offset =
      (if (s.disp11 sr im11a iv).toInt < 0 then s.readGr b else s.readGr b + s.disp11 sr im11a iv) := by
  unfold State.long11Ea
  by_cases neg : (s.disp11 sr im11a iv).toInt < 0 <;> simp [BitVec.msb_eq_toInt, neg]

theorem State.long10Ea_address (s : State) (b : BitVec 5) (sr : BitVec 2) (im10a : BitVec 10) (a iv : BitVec 1) :
    (s.long10Ea b sr im10a 0#1 a iv).offset = s.readGr b + s.disp10 sr im10a iv ∧
    (s.long10Ea b sr im10a 1#1 1#1 iv).offset = s.readGr b + s.disp10 sr im10a iv ∧
    (s.long10Ea b sr im10a 1#1 0#1 iv).offset = s.readGr b ∧
    (s.long10Ea b sr im10a 0#1 a iv).newBase = none ∧
    (s.long10Ea b sr im10a 1#1 a iv).newBase = some (s.readGr b + s.disp10 sr im10a iv) := by
  simp [State.long10Ea, State.ea_shortModify_newBase]

/-- Settles O20: the number of each immediate, then the address and the new base of each format. -/
theorem effectiveAddresses : Obligations.EffectiveAddresses := by
  refine ⟨⟨fun x => ?_, fun x => ?_⟩,
    ⟨toNat_assemble3, assemble6_eq, toInt_disp12, toInt_disp17, toInt_disp22, toInt_leftImmediate⟩,
    fun s sr im14 im11a im10a iv z hz => ⟨fun hW => ?narrow, s.long_displacements_wide sr im14 im11a im10a iv z hz⟩,
    fun s b im5 sr im11a a iv n hn => ?storeBytes,
    fun s b x im5 sr im14 im11a im10a a u iv shift => ?formats⟩
  · simpa using toInt_lowSignExt (by decide) x
  · simpa using toInt_lowSignExt (by decide) x
  case narrow => exact hz ▸ s.long_displacements_narrow sr im14 im11a im10a iv hW
  case storeBytes =>
    obtain ⟨offset, newBase, offsetAfter, offsetBefore, truncated⟩ := s.partialEa_address b im5 sr a n hn
    exact ⟨offset, newBase, offsetAfter, offsetBefore, truncated, s.fpLongEa_address b sr im11a iv⟩
  case formats =>
    obtain ⟨short, shortNone, shortBefore, shortBase, shortAfter, shortBase'⟩ := s.shortEa_address b im5 sr a
    obtain ⟨indexed, indexedNone, indexedAfter, indexedBase⟩ := s.indexedEa_address b x sr u shift
    obtain ⟨longModifyBase, longModify⟩ := s.longModifyEa_address b sr im14
    obtain ⟨long11Base, long11⟩ := s.long11Ea_address b sr im11a iv
    exact ⟨short, shortNone, shortBefore, shortBase, shortAfter, shortBase', indexed, indexedNone, indexedAfter, indexedBase,
      rfl, rfl, longModifyBase, longModify, long11Base, long11, s.long10Ea_address b sr im10a a iv⟩

end Sys2Proof.Machine
end

section
/-! SUPPORT. What an instruction may leave behind it: the state that no unprivileged instruction changes, what every operation of the model
keeps of it, and from that O8 and O17. -/

namespace Sys2Proof.Machine

/-! ### Computations that may stop -/

/-- Every completion of `r` leaves a state of which `P` holds. -/
def Leaves (P : State → Prop) (r : Res Done) : Prop := ∀ d, r = .ok d → P d.state

section
variable {P Q : State → Prop}

theorem Leaves.mono {r : Res Done} (h : Leaves P r) (hPQ : ∀ t, P t → Q t) : Leaves Q r := fun d hd => hPQ _ (h d hd)

theorem leaves_ok {t : State} {fl : Flow} (h : P t) : Leaves P (.ok ⟨t, fl⟩) := by
  rintro _ ⟨⟩
  exact h

theorem leaves_done {s t : State} {nullify : Bool} (h : P t) : Leaves P (done s t nullify) := leaves_ok h

theorem leaves_error {e : Stop} : Leaves P (.error e) := by
  intro d hd
  cases hd

theorem leaves_bind {α : Type} {x : Res α} {f : α → Res Done} (h : ∀ a, x = .ok a → Leaves P (f a)) : Leaves P (x >>= f) := by
  cases x with
  | error e => exact leaves_error
  | ok a => exact h a rfl

theorem leaves_ite {c : Prop} [Decidable c] {x y : Res Done} (hx : c → Leaves P x) (hy : ¬c → Leaves P y) :
    Leaves P (if c then x else y) := by
  split
  · exact hx ‹_›
  · exact hy ‹_›

/-- A check that stops the instruction, and what comes after it. -/
theorem leaves_unless {α : Type} {c : Prop} [Decidable c] {x : Res α} {f : α → Res Done} {y : Res Done} (hf : ∀ a, Leaves P (f a))
    (hy : ¬c → Leaves P y) : Leaves P (if c then x >>= f else y) :=
  leaves_ite (fun _ => leaves_bind fun a _ => hf a) hy

end

/-! ### The state that an unprivileged instruction leaves -/

/-- The state that privileged software protects itself with (10_state.md R47). -/
structure Guarded where
  pid12 : Dword
  pid34 : Dword
  pid56 : Dword
  pid78 : Dword
  scr : BitVec 8
  ccr : BitVec 8
  iva : Dword
  eiem : Dword
  itmrCompare : BitVec 32
  tr : Vector Dword 8
  sr5 : Dword
  sr6 : Dword
  sr7 : Dword
  itlb : List TlbEntry
  dtlb : List TlbEntry
  defaultWidth : Bool
  defaultEndian : Bool

/-- The guarded part of a state. -/
def State.guarded (s : State) : Guarded :=
  ⟨s.pid12, s.pid34, s.pid56, s.pid78, s.scr, s.ccr, s.iva, s.eiem, s.itmrCompare, s.tr, s.readSr 5, s.readSr 6, s.readSr 7, s.itlb, s.dtlb,
    s.defaultWidth, s.defaultEndian⟩

/-- The PSW bits that an unprivileged instruction may change: C/B, V, and those that every instruction settles at its end. -/
def userBits : Dword := carryBits ||| bitMask Psw.V ||| statusBits

/-- `t` comes from `s` by what an unprivileged instruction may do: the guarded state, IPSW and the rest of the PSW are as they were, and so is what
the invariant says of memory, of the branch target stack and of the compare queue. -/
structure Confined (s t : State) : Prop where
  guarded : t.guarded = s.guarded
  psw : t.psw &&& ~~~userBits = s.psw &&& ~~~userBits
  ipsw : t.ipsw = s.ipsw
  memory : s.mem.wf = true → t.mem.wf = true
  stack : t.bts.length = s.bts.length
  compares : s.fpQueue ≤ 12 → t.fpQueue ≤ 12

/-- `t` with the registers and counters of `u` that neither the invariant nor the guarded state speaks of. -/
def State.withUserState (t u : State) : State :=
  { t with
    gr := u.gr, iaoqFront := u.iaoqFront, iaoqBack := u.iaoqBack, iasqFront := u.iasqFront, iasqBack := u.iasqBack, rctr := u.rctr
    sar := u.sar, itmr := u.itmr, eirr := u.eirr, fpr := u.fpr, measurementEnabled := u.measurementEnabled, bnr := u.bnr, sfu := u.sfu
    cpr := u.cpr, freeCount := u.freeCount, semaphores := u.semaphores, fpArray := u.fpArray, fpSequence := u.fpSequence }

theorem Confined.refl (s : State) : Confined s s := ⟨rfl, rfl, rfl, id, rfl, id⟩

/-- A change of user state alone. -/
theorem Confined.of_user {s t u : State} (h : Confined s t) (hu : u = t.withUserState u) : Confined s u := by
  rw [hu]
  exact ⟨h.guarded, h.psw, h.ipsw, h.memory, h.stack, h.compares⟩

theorem Confined.systemMask {s t : State} (h : Confined s t) : t.psw &&& Psw.systemMask = s.psw &&& Psw.systemMask := by
  have guarded : Psw.systemMask = ~~~userBits &&& Psw.systemMask := by decide
  rw [guarded, ← BitVec.and_assoc, h.psw, BitVec.and_assoc]

/-! ### What each operation keeps -/

/-- Bits that the mask covers are lost under its complement. -/
theorem or_and_not_of_covered {n : Nat} {x y m : BitVec n} (h : y &&& ~~~m = 0#n) : (x ||| y) &&& ~~~m = x &&& ~~~m := by
  rw [BitVec.and_comm, BitVec.and_or_distrib_left, BitVec.and_comm _ y, h, BitVec.or_zero, BitVec.and_comm]

section
variable {s t : State} (h : Confined s t)
include h

theorem Confined.writeGr (r : BitVec 5) (v : Dword) : Confined s (t.writeGr r v) :=
  h.of_user (by unfold State.writeGr; split <;> rfl)

theorem Confined.writeBack (e : Ea) : Confined s (e.writeBack t) := h.of_user (by rw [writeBack_eq]; rfl)

theorem Confined.drawn (n : Nat) : Confined s (t.drawn n) := h.of_user rfl

theorem Confined.drawnIf (b : Bool) : Confined s (t.drawnIf b) := by
  unfold State.drawnIf
  split
  · exact h.drawn 1
  · exact h

theorem Confined.linkTo (r : BitVec 5) : Confined s (t.linkTo r) := (h.writeGr r t.link).of_user rfl

/-- The unprivileged space registers are SR 0 to 4. -/
theorem Confined.writeSr {n : BitVec 3} (hn : n.toNat < 5) (v : Dword) : Confined s (t.writeSr n v) := by
  have keeps (k : BitVec 3) (hk : 5 ≤ k.toNat) : (t.writeSr n v).readSr k = t.readSr k := by
    rw [State.readSr_writeSr, if_neg (by rintro rfl; omega)]
  refine ⟨Eq.trans ?_ h.guarded, h.psw, h.ipsw, h.memory, h.stack, h.compares⟩
  simp only [State.guarded, keeps 5 (by decide), keeps 6 (by decide), keeps 7 (by decide)]
  rfl

theorem Confined.withPsw {p : Dword} (hp : p &&& ~~~userBits = t.psw &&& ~~~userBits) : Confined s { t with psw := p } :=
  ⟨h.guarded, hp.trans h.psw, h.ipsw, h.memory, h.stack, h.compares⟩

theorem Confined.setCarryBorrow (cb : BitVec 16) : Confined s (t.setCarryBorrow cb) := by
  have high : ∀ x : BitVec 8, (x.zeroExtend 64) <<< 32 &&& ~~~userBits = 0 := by decide
  have low : ∀ x : BitVec 8, (x.zeroExtend 64) <<< 8 &&& ~~~userBits = 0 := by decide
  have cleared : (0x000000FF0000FF00 : Dword) ||| userBits = userBits := by decide
  refine h.withPsw (calc
    _ = t.psw &&& ~~~(0x000000FF0000FF00 : Dword) &&& ~~~userBits :=
      (or_and_not_of_covered (low _)).trans (or_and_not_of_covered (high _))
    _ = t.psw &&& ~~~userBits := by rw [BitVec.and_assoc, ← BitVec.not_or, cleared])

theorem Confined.setV (v : Bool) : Confined s (t.setFlag Psw.V v) := h.withPsw (withBit_and_not _ _ _ _ (by decide))

theorem Confined.withMemory {m : Memory} (hm : t.mem.wf = true → m.wf = true) : Confined s { t with mem := m } :=
  ⟨h.guarded, h.psw, h.ipsw, hm ∘ h.memory, h.stack, h.compares⟩

theorem Confined.withStack {l : List (BitVec 63)} (hl : l.length = t.bts.length) : Confined s { t with bts := l } :=
  ⟨h.guarded, h.psw, h.ipsw, h.memory, hl.trans h.stack, h.compares⟩

theorem Confined.withQueue {n : Nat} (hn : n ≤ 12) : Confined s { t with fpQueue := n } :=
  ⟨h.guarded, h.psw, h.ipsw, h.memory, h.stack, fun _ => hn⟩

theorem Confined.pushBts (e : BitVec 63) : Confined s (t.pushBts e) := h.withStack (by simp)

theorem Confined.writeFpr (r : BitVec 5) (v : Dword) : Confined s (t.writeFpr r v) := h.of_user rfl

theorem Confined.fpDid (q : FpSequence) : Confined s (t.fpDid q) := h.of_user rfl

theorem Confined.fpLoaded (r : BitVec 5) (double : Bool) : Confined s (t.fpLoaded r double) := by
  unfold State.fpLoaded
  split
  · exact (h.withQueue (n := 12) le_rfl).of_user rfl
  · exact h.fpDid _

theorem Confined.fpStoredFrom (r : BitVec 5) : Confined s (t.fpStoredFrom r) := by
  unfold State.fpStoredFrom
  split
  · exact h.drawn 1
  · exact h

theorem Confined.fpWrite (r : FpReg) (v : Nat) : Confined s (t.fpWrite r v) := h.of_user (by rw [fpWrite_eq]; rfl)

theorem Confined.fpFlags (x : BitVec 5) : Confined s (t.fpFlags x) := h.of_user rfl

theorem Confined.fpTrapped (code : BitVec 6) : Confined s (t.fpTrapped code) := h.of_user rfl

theorem Confined.fpDeliver (code : BitVec 6) (d : FpReg) (srcs : List FpReg) (r : Delivery) : Confined s (t.fpDeliver code d srcs r) :=
  h.of_user (by rw [fpDeliver_eq]; rfl)

theorem Confined.fpCompareResult (y : BitVec 3) (result : Bool) : Confined s (t.fpCompareResult y result) := by
  unfold State.fpCompareResult
  split
  · exact (h.withQueue (n := min 12 (t.fpQueue + 1)) (Nat.min_le_left _ _)).of_user rfl
  · exact (h.withQueue (n := 0) (Nat.zero_le _)).of_user rfl

/-- A store changes memory, or the external interrupt requests. -/
theorem Confined.storeAt {u : State} {pa : Dword} {size : Nat} {v : Dword} (hu : t.storeAt pa size v = .ok u) : Confined s u := by
  unfold State.storeAt at hu
  split at hu
  · cases hu
    exact h.of_user rfl
  · cases hpa : inMemory pa with
    | error e => rw [hpa] at hu; cases hu
    | ok a =>
      rw [hpa] at hu
      cases hu
      exact h.withMemory (Memory.store_wf _ _ _ _ _)

theorem Confined.memStore {u : State} {a : DataAddr} {size : Nat} {v : Dword} (hu : t.memStore a size v = .ok u) : Confined s u := by
  unfold State.memStore at hu
  cases hp : t.check .store a size with
  | error e => rw [hp] at hu; cases hu
  | ok p => rw [hp] at hu; exact h.storeAt hu

theorem Confined.noteSemaphore {u : State} {pa : Dword} {cc : BitVec 2} (hu : t.noteSemaphore pa cc = .ok u) : Confined s u :=
  h.of_user (by rw [(noteSemaphore_ok hu).1]; rfl)

end

theorem popEntries_length (l : List (BitVec 63)) : (popEntries l).length = l.length := by
  cases l <;> simp [popEntries]

theorem popTimes_length (k : Nat) (l : List (BitVec 63)) : (popTimes k l).length = l.length := by
  induction k generalizing l with
  | zero => rfl
  | succ k ih => rw [popTimes, ih, popEntries_length]

theorem Confined.popBts {s t : State} (h : Confined s t) : Confined s t.popBts := h.withStack (popEntries_length _)


/-! ### The end of an instruction -/

theorem Confined.advance {s t : State} (h : Confined s t) (fl : Flow) : Confined s (t.advance fl) := by
  have settled : endPsw t.psw fl &&& ~~~userBits = t.psw &&& ~~~userBits := by
    have status : ~~~userBits = ~~~statusBits &&& ~~~userBits := by decide
    rw [status, ← BitVec.and_assoc, endPsw_eq, BitVec.and_assoc]
  exact (h.withPsw settled).of_user rfl

theorem Confined.countDown {s t : State} (h : Confined s t) (running : Bool) : Confined s (t.countDown running) := by
  unfold State.countDown
  split
  · exact h.of_user rfl
  · exact h

theorem Confined.tick {s t : State} (h : Confined s t) : Confined s t.tick := h.of_user rfl

theorem Confined.retireState {s : State} {d : Done} (h : Confined s d.state) : Confined s (retireState s d) :=
  ((h.advance d.flow).countDown _).tick

/-! ### The forms of the instructions -/

section
variable {s : State}

theorem leaves_writeGr {r : BitVec 5} {v : Dword} {nullify : Bool} : Leaves (Confined s) (done s (s.writeGr r v) nullify) :=
  leaves_done ((Confined.refl s).writeGr r v)

theorem leaves_writeGr_drawn {r : BitVec 5} {v : Dword} {n : Nat} {nullify : Bool} :
    Leaves (Confined s) (done s ((s.writeGr r v).drawn n) nullify) := leaves_done (((Confined.refl s).writeGr r v).drawn n)

/-! Assist units -/

theorem leaves_spopForm {c : Config.SfuCall} {t : Option (BitVec 5)} {n : BitVec 1} : Leaves (Confined s) (s.spopForm c t n) := by
  have called : Confined s (s.afterSfu c) := (Confined.refl s).of_user rfl
  refine leaves_ite (fun _ => leaves_error) fun _ => leaves_ite (fun _ => leaves_error) fun _ => leaves_done ?_
  cases t with
  | none => exact called
  | some t => exact called.writeGr t _

theorem leaves_coprForm {unit : BitVec 3} {sop1 : BitVec 17} {n : BitVec 1} {sop2 : BitVec 5} :
    Leaves (Confined s) (s.coprForm unit sop1 n sop2) :=
  leaves_ite (fun _ => leaves_error) fun _ => leaves_ite (fun _ => leaves_done ((Confined.refl s).of_user rfl)) fun _ =>
    leaves_ite (fun _ => leaves_error) fun _ => leaves_done ((Confined.refl s).of_user rfl)

theorem leaves_coprOneForm : Leaves (Confined s) s.coprOneForm :=
  leaves_ite (fun _ => leaves_error) fun _ => leaves_ite (fun _ => leaves_error) fun _ => leaves_error

theorem leaves_coprLoadForm {e : Ea} {unit : BitVec 3} {double : Bool} {t : BitVec 5} :
    Leaves (Confined s) (s.coprLoadForm e unit double t) :=
  leaves_bind fun _ _ => leaves_bind fun _ _ => leaves_bind fun _ _ => leaves_done (((Confined.refl s).writeBack e).of_user rfl)

theorem leaves_coprStoreForm {e : Ea} {unit : BitVec 3} {double : Bool} {r : BitVec 5} :
    Leaves (Confined s) (s.coprStoreForm e unit double r) :=
  leaves_bind fun _ _ => leaves_bind fun _ _ => leaves_bind fun _ stored => leaves_done (((Confined.refl s).storeAt stored).writeBack e)

/-- PMDIS and PMENB. -/
theorem leaves_measurement {m nullify : Bool} :
    Leaves (Confined s) (if s.coprEnabled 2#3 then done s { s with measurementEnabled := m } nullify else .error emulationTrap) :=
  leaves_ite (fun _ => leaves_done ((Confined.refl s).of_user rfl)) fun _ => leaves_error

/-! Branches -/

theorem leaves_branchTail {t : State} (h : Confined s t) {disp : Dword} {n : BitVec 1} {cond : Bool} :
    Leaves (Confined s) (s.branchTail t disp n cond) := leaves_ok h

theorem leaves_branchLinkForm {t : BitVec 5} {disp : Dword} {n : BitVec 1} : Leaves (Confined s) (s.branchLinkForm t disp n) :=
  leaves_ok ((Confined.refl s).linkTo t)

theorem leaves_gateForm {t : BitVec 5} {disp : Dword} {n : BitVec 1} : Leaves (Confined s) (s.gateForm t disp n) :=
  leaves_ite (fun _ => leaves_error) fun _ => leaves_bind fun _ _ => leaves_ok ((Confined.refl s).writeGr t _)

theorem leaves_externalForm {b : BitVec 5} {sr : BitVec 3} {disp : Dword} {n : BitVec 1} :
    Leaves (Confined s) (s.externalForm b sr disp n) :=
  leaves_ite (fun _ => leaves_ok (Confined.refl s)) fun _ => leaves_ok ((Confined.refl s).drawn 1)

theorem leaves_externalLinkForm {b : BitVec 5} {sr : BitVec 3} {disp : Dword} {n : BitVec 1} :
    Leaves (Confined s) (s.externalLinkForm b sr disp n) :=
  have linked := (Confined.refl s).linkTo 31#5
  leaves_ite (fun _ => leaves_ok (linked.writeSr (by decide) _)) fun _ => leaves_ok ((linked.writeSr (by decide) _).drawn 2)

theorem leaves_vectoredExternalForm {t : State} (h : Confined s t) {b : BitVec 5} {n : BitVec 1} :
    Leaves (Confined s) (s.vectoredExternalForm t b n) :=
  leaves_ite (fun _ => leaves_ok h) fun _ => leaves_ok (h.drawn 1)

/-! Cache control and probes -/

theorem leaves_cacheForm {body : Res Done} (h : Leaves (Confined s) body) : Leaves (Confined s) (s.cacheForm body) :=
  leaves_ite (fun _ => leaves_done (Confined.refl s)) fun _ => h

theorem leaves_fdcForm {e : Ea} : Leaves (Confined s) (s.fdcForm e) :=
  have completes := leaves_done ((Confined.refl s).writeBack e)
  leaves_cacheForm (leaves_bind fun _ _ => leaves_unless (fun _ => completes) fun _ => completes)

theorem leaves_fdceForm {e : Ea} : Leaves (Confined s) (s.fdceForm e) :=
  leaves_cacheForm (leaves_bind fun _ _ => leaves_done ((Confined.refl s).writeBack e))

theorem leaves_ficForm {e : Ea} {a : DataAddr} : Leaves (Confined s) (s.ficForm e a) :=
  have completes := leaves_done ((Confined.refl s).writeBack e)
  leaves_unless (fun _ => completes) fun _ => completes

theorem leaves_pdcForm {e : Ea} : Leaves (Confined s) (s.pdcForm e) :=
  have completes := leaves_done ((Confined.refl s).writeBack e)
  leaves_cacheForm (leaves_bind fun _ _ =>
    leaves_unless (fun _ => leaves_unless (fun _ => completes) fun _ => completes) fun _ => completes)

theorem leaves_probeForm {b : BitVec 5} {sr : BitVec 2} {kind : AccessKind} {level : BitVec 2} {t : BitVec 5} :
    Leaves (Confined s) (s.probeForm b sr kind level t) :=
  leaves_bind fun _ _ => leaves_bind fun _ _ => leaves_writeGr

theorem leaves_lciForm {e : Ea} {t : BitVec 5} : Leaves (Confined s) (s.lciForm e t) :=
  leaves_bind fun _ _ => leaves_bind fun _ _ => leaves_ite (fun _ => leaves_error) fun _ =>
    leaves_ite (fun _ => leaves_writeGr) fun _ => leaves_writeGr_drawn

theorem leaves_lpaForm {e : Ea} {t : BitVec 5} : Leaves (Confined s) (s.lpaForm e t) :=
  leaves_bind fun _ _ => leaves_bind fun _ _ => leaves_bind fun _ _ => leaves_done (((Confined.refl s).writeBack e).writeGr t _)

/-! Computation -/

theorem leaves_arith {t : State} (h : Confined s t) {k : ArithKind} {r : BitVec 5} {res : Dword} {carries : BitVec 16} {overflow cond : Bool} :
    Leaves (Confined s) (t.arith k r res carries overflow cond) := by
  refine leaves_ite (fun _ => leaves_error) fun _ => leaves_ite (fun _ => leaves_error) fun _ => leaves_done ?_
  split
  · exact (h.writeGr r res).setCarryBorrow carries
  · exact h.writeGr r res

theorem leaves_sumForm {k : ArithKind} {x y : Dword} {cin : Bool} {c : BitVec 3} {f d : BitVec 1} {t : BitVec 5} :
    Leaves (Confined s) (s.sumForm k x y cin c f d t) := leaves_arith (Confined.refl s)

theorem leaves_shladdForm {k : ArithKind} {r2 r1 : BitVec 5} {c : BitVec 3} {f : BitVec 1} {sa : BitVec 2} {d : BitVec 1} {t : BitVec 5} :
    Leaves (Confined s) (s.shladdForm k r2 r1 c f sa d t) := leaves_arith ((Confined.refl s).drawnIf _)

theorem leaves_dsForm {r2 r1 : BitVec 5} {c : BitVec 3} {f : BitVec 1} {t : BitVec 5} : Leaves (Confined s) (s.dsForm r2 r1 c f t) :=
  leaves_done (((((Confined.refl s).drawnIf _).writeGr t _).setCarryBorrow _).setV _)

theorem leaves_uaddcmForm {trap : Bool} {r2 r1 : BitVec 5} {c : BitVec 3} {f d : BitVec 1} {t : BitVec 5} :
    Leaves (Confined s) (s.uaddcmForm trap r2 r1 c f d t) :=
  leaves_arith (Confined.refl s)

/-! Floating point -/

theorem leaves_fpLoadWord {e : Ea} {t : BitVec 5} {h : BitVec 1} : Leaves (Confined s) (s.fpLoadWord e t h) :=
  have loaded (v : Dword) := leaves_done (((Confined.refl s).writeBack e).writeFpr t v |>.fpLoaded t false)
  leaves_bind fun _ _ => leaves_bind fun _ _ => leaves_unless (fun _ => loaded _) fun _ => loaded _

theorem leaves_fpLoadDouble {e : Ea} {t : BitVec 5} : Leaves (Confined s) (s.fpLoadDouble e t) :=
  leaves_bind fun _ _ => leaves_bind fun _ _ => leaves_done (((Confined.refl s).writeBack e).writeFpr t _ |>.fpLoaded t true)

theorem leaves_fpStoreWord {e : Ea} {r : BitVec 5} {h : BitVec 1} : Leaves (Confined s) (s.fpStoreWord e r h) :=
  leaves_bind fun _ _ => leaves_bind fun _ stored =>
    leaves_done ((((Confined.refl s).fpStoredFrom r).storeAt stored).writeBack e |>.fpDid .other)

theorem leaves_fpStoreDouble {e : Ea} {r : BitVec 5} : Leaves (Confined s) (s.fpStoreDouble e r) := by
  refine leaves_bind fun _ _ => leaves_bind fun _ stored => leaves_done ?_
  have written := (((Confined.refl s).fpStoredFrom r).storeAt stored).writeBack e
  split
  · exact (written.writeFpr 0#5 _).fpDid .stored
  · exact written.fpDid .other

theorem leaves_fpOperation {code : BitVec 6} {d : FpReg} {srcs : List FpReg} {r : Delivery} :
    Leaves (Confined s) (s.fpOperation code d srcs r) :=
  leaves_bind fun _ _ => leaves_ite (fun _ => leaves_done (((Confined.refl s).fpDeliver ..).fpDid .other)) fun _ =>
    leaves_bind fun _ _ => leaves_bind fun _ _ => leaves_done ((((Confined.refl s).drawn _).fpDeliver ..).fpDid .other)

theorem leaves_fpCompare {code : BitVec 6} {r1 r2 : FpReg} {y : BitVec 3} {c : BitVec 5} :
    Leaves (Confined s) (s.fpCompare code r1 r2 y c) :=
  leaves_bind fun _ _ => leaves_ite (fun _ => leaves_done (((Confined.refl s).fpTrapped code).fpDid .other)) fun _ =>
    leaves_bind fun _ _ => leaves_bind fun _ _ =>
      leaves_ite (fun _ => leaves_done ((((Confined.refl s).fpFlags _).fpTrapped _).fpDid .other)) fun _ =>
        leaves_done ((((Confined.refl s).fpCompareResult y _).fpFlags _).fpDid .other)

theorem leaves_fpTest {y : BitVec 3} {c : BitVec 5} : Leaves (Confined s) (s.fpTest y c) :=
  have completes (nullify : Bool) : Leaves (Confined s) (done s (s.fpDid .other) nullify) := leaves_done ((Confined.refl s).fpDid .other)
  leaves_bind fun _ _ => leaves_unless (fun _ => completes _) fun _ => completes _

theorem leaves_fpIdentify : Leaves (Confined s) s.fpIdentify :=
  have identified := leaves_done (((Confined.refl s).withQueue (n := 12) le_rfl).of_user rfl)
  leaves_bind fun _ _ => leaves_unless (fun _ => identified) fun _ => identified

theorem leaves_fpMulti {code : BitVec 6} {rm1 rm2 ta ra tm : BitVec 5} {f : BitVec 1} {op : Fmt → FpEnv → Nat → Nat → Delivery} :
    Leaves (Confined s) (s.fpMulti code rm1 rm2 ta ra tm f op) := by
  have toSoftware (d : FpReg) (srcs : List FpReg) := leaves_done (s := s) (nullify := false)
    (((Confined.refl s).fpDeliver code d srcs .unimplemented).fpDid .other)
  refine leaves_bind fun _ _ => leaves_bind fun _ _ => leaves_bind fun _ _ => leaves_bind fun _ _ => leaves_bind fun _ _ => ?_
  dsimp only
  split
  · exact leaves_ite (fun _ => toSoftware _ _) fun _ => leaves_done ((((Confined.refl s).fpWrite _ _).fpWrite _ _).fpFlags _ |>.fpDid .other)
  · exact toSoftware _ _

/-! Loads, stores and semaphores -/

theorem leaves_loadForm {e : Ea} {size : Nat} {t : BitVec 5} : Leaves (Confined s) (s.loadForm e size t) :=
  leaves_bind fun _ _ => leaves_bind fun _ _ => leaves_done (((Confined.refl s).writeBack e).writeGr t _)

theorem leaves_loadOrPrefetch {e : Ea} {size : Nat} {t : BitVec 5} : Leaves (Confined s) (s.loadOrPrefetch e size t) :=
  leaves_ite (fun _ => leaves_done ((Confined.refl s).writeBack e)) fun _ => leaves_loadForm

theorem leaves_storeForm {e : Ea} {size : Nat} {r : BitVec 5} : Leaves (Confined s) (s.storeForm e size r) :=
  leaves_bind fun _ _ => leaves_bind fun _ stored => leaves_done (((Confined.refl s).memStore stored).writeBack e)

theorem leaves_loadAbsoluteForm {e : Ea} {size : Nat} {t : BitVec 5} : Leaves (Confined s) (s.loadAbsoluteForm e size t) :=
  leaves_bind fun _ _ => leaves_bind fun _ _ => leaves_bind fun _ _ => leaves_done (((Confined.refl s).writeBack e).writeGr t _)

theorem leaves_storeAbsoluteForm {e : Ea} {size : Nat} {r : BitVec 5} : Leaves (Confined s) (s.storeAbsoluteForm e size r) :=
  leaves_bind fun _ _ => leaves_bind fun _ _ => leaves_bind fun _ stored => leaves_done (((Confined.refl s).storeAt stored).writeBack e)

theorem leaves_semaphoreForm {e : Ea} {cc : BitVec 2} {size : Nat} {t : BitVec 5} : Leaves (Confined s) (s.semaphoreForm e cc size t) :=
  leaves_ite (fun _ => leaves_done ((Confined.refl s).writeBack e)) fun _ =>
    leaves_bind fun _ _ => leaves_bind fun _ _ => leaves_bind fun _ _ => leaves_bind fun _ stored => leaves_bind fun _ noted =>
      leaves_done ((((Confined.refl s).storeAt stored).noteSemaphore noted).writeBack e |>.writeGr t _)

theorem leaves_storeBytesForm {e : Ea} {n : Nat} {ending : Bool} {r : BitVec 5} : Leaves (Confined s) (s.storeBytesForm e n ending r) :=
  leaves_bind fun _ _ => leaves_bind fun _ _ => leaves_ite (fun _ => leaves_done ((Confined.refl s).writeBack e)) fun _ =>
    leaves_bind fun _ _ => leaves_done (((Confined.refl s).withMemory (Memory.setBytes_wf _ _ _)).writeBack e)

/-! Register moves without privilege -/

theorem leaves_ldsidForm {b : BitVec 5} {sr : BitVec 2} {t : BitVec 5} : Leaves (Confined s) (s.ldsidForm b sr t) := by
  unfold State.ldsidForm
  split
  · exact leaves_writeGr
  · exact leaves_writeGr_drawn

theorem leaves_mfctlForm {r : BitVec 5} {e : BitVec 1} {t : BitVec 5} : Leaves (Confined s) (s.mfctlForm r e t) :=
  have read := leaves_ite (c := s.openCr r = true) (fun _ => leaves_writeGr_drawn) fun _ =>
    leaves_ite (c := (r = 11#5 && !(isSet e)) = true) (fun _ => leaves_writeGr) fun _ =>
      leaves_writeGr
  have live := leaves_unless (fun _ => read) fun _ => read
  have wide := leaves_unless (fun _ => live) fun _ => live
  have access := leaves_bind fun _ _ => wide
  leaves_unless (fun _ => access) fun _ => access

end


end Sys2Proof.Machine
end

section
/-! SUPPORT. What every operation, the privileged ones too, keeps of the machine's invariant. -/

namespace Sys2Proof

open Machine

/-! ### What keeps the invariant -/

theorem Inv.of_confined {s t : State} (hs : Inv s) (h : Confined s t) : Inv t where
  memory := h.memory hs.memory
  psw := by
    have reserved : ~~~Psw.defined = ~~~userBits &&& ~~~Psw.defined := by decide
    rw [reserved, ← BitVec.and_assoc, h.psw, BitVec.and_assoc, ← reserved, hs.psw]
  ipsw := h.ipsw ▸ hs.ipsw
  iva := by
    have iva : t.iva = s.iva := congrArg Guarded.iva h.guarded
    exact iva ▸ hs.iva
  units := by
    have ccr : t.ccr = s.ccr := congrArg Guarded.ccr h.guarded
    have scr : t.scr = s.scr := congrArg Guarded.scr h.guarded
    exact ccr ▸ scr ▸ hs.units
  dtlb := by
    have dtlb : t.dtlb = s.dtlb := congrArg Guarded.dtlb h.guarded
    exact dtlb ▸ hs.dtlb
  itlb := by
    have itlb : t.itlb = s.itlb := congrArg Guarded.itlb h.guarded
    exact itlb ▸ hs.itlb
  stack := h.stack.trans hs.stack
  compares := h.compares hs.compares

theorem TlbOk.sublist {tlb tlb' : List TlbEntry} (h : TlbOk tlb) (hs : tlb'.Sublist tlb) : TlbOk tlb' :=
  ⟨List.Pairwise.sublist hs h.1, fun e he => h.2 e (hs.subset he)⟩

/-- What an insertion keeps does not overlap what it inserts. -/
theorem TlbOk.insertEntry {tlb : List TlbEntry} {e : TlbEntry} (h : TlbOk tlb) (he : e.size.toNat < 8) : TlbOk (insertEntry tlb e) := by
  have purged : TlbOk (purgePage tlb e.gva e.size) := h.sublist List.filter_sublist
  refine ⟨List.pairwise_cons.2 ⟨fun f hf => ?_, purged.1⟩, List.forall_mem_cons.2 ⟨he, purged.2⟩⟩
  simpa using (List.mem_filter.1 hf).2

theorem and_defined_and_not_defined (x : Dword) : x &&& Psw.defined &&& ~~~Psw.defined = 0 := by
  rw [BitVec.and_assoc, show Psw.defined &&& ~~~Psw.defined = 0#64 by decide, BitVec.and_zero]
  rfl

section
variable {s : State} (h : Inv s)
include h

theorem Inv.withPsw {p : Dword} (hp : p &&& ~~~Psw.defined = 0) : Inv { s with psw := p } := { h with psw := hp }

theorem Inv.withDtlb {tlb : List TlbEntry} (hd : TlbOk tlb) : Inv { s with dtlb := tlb } := { h with dtlb := hd }

theorem Inv.withItlb {tlb : List TlbEntry} (hi : TlbOk tlb) : Inv { s with itlb := tlb } := { h with itlb := hi }

theorem Inv.writeGr (r : BitVec 5) (v : Dword) : Inv (s.writeGr r v) := h.of_confined ((Confined.refl s).writeGr r v)

theorem Inv.writeBack (e : Ea) : Inv (e.writeBack s) := h.of_confined ((Confined.refl s).writeBack e)

theorem Inv.tick : Inv s.tick := h.of_confined ((Confined.refl s).of_user rfl)

theorem Inv.loseInterruptionState : Inv s.loseInterruptionState := { h with ipsw := and_defined_and_not_defined _ }

theorem Inv.setMask (mask : Dword) : Inv (s.setMask mask) := by
  have masked : (s.psw &&& ~~~Psw.systemMask ||| mask &&& Psw.systemMask) &&& ~~~Psw.defined = 0 := by
    have defined : Psw.systemMask &&& ~~~Psw.defined = 0#64 := by decide
    rw [or_and_not_of_covered (by rw [BitVec.and_assoc, defined, BitVec.and_zero]), BitVec.and_assoc, BitVec.and_comm (~~~Psw.systemMask),
      ← BitVec.and_assoc, h.psw]
    exact BitVec.zero_and
  unfold State.setMask
  dsimp only
  split
  · exact (h.withPsw masked).loseInterruptionState
  · exact h.withPsw masked

/-- Only a configuration register written with the bit of an absent unit could break the invariant. -/
theorem Inv.writeCr {t : BitVec 5} {v : Dword} (hv : t = 10#5 → setsAbsentUnit v = false) : Inv (s.writeCr t v) := by
  unfold State.writeCr
  split
  case h_4 h10 =>
    have present := hv (BitVec.eq_of_toNat_eq h10)
    simp only [setsAbsentUnit, Bool.or_eq_false_iff, bne_eq_false_iff_eq] at present
    exact { h with units := ⟨present.2, present.1⟩ }
  case h_8 => exact { h with iva := by rw [BitVec.and_assoc, BitVec.and_comm (~~~_), BitVec.and_not_self]; exact BitVec.and_zero }
  case h_15 => exact { h with ipsw := and_defined_and_not_defined _ }
  case h_17 => split <;> exact { h with }
  all_goals exact { h with }

theorem Inv.withShadow (shadow : Vector Dword 7) (n : Nat) : Inv { s with shr := shadow, freeCount := n } := { h with }

theorem Inv.restoreShadow : Inv s.restoreShadow :=
  (((((((h.writeGr 1 _).writeGr 8 _).writeGr 9 _).writeGr 16 _).writeGr 17 _).writeGr 24 _).writeGr 25 _).withShadow _ _

theorem Inv.returnFromInterruption : Inv (returnFromInterruption s) := by
  have returned : Inv { s with
      psw := s.ipsw &&& Psw.defined, iaoqFront := s.iiaoqFront, iaoqBack := s.iiaoqBack
      iasqFront := recoverSpace s.iiasqFront s.iiaoqFront, iasqBack := recoverSpace s.iiasqBack s.iiaoqBack } :=
    { h with psw := and_defined_and_not_defined _ }
  unfold Machine.returnFromInterruption
  dsimp only
  split
  · exact returned
  · exact returned.loseInterruptionState

theorem Inv.takeInterruption (n : Interruption) (p : Params) : Inv (takeInterruption s n p) := by
  have installed : s.interruptionPsw n &&& ~~~Psw.defined = 0 := by
    unfold State.interruptionPsw
    rw [withBit_and_not _ _ _ _ (by decide), withBit_and_not _ _ _ _ (by decide), withBit_and_not _ _ _ _ (by decide)]
    exact BitVec.zero_and
  rw [takeInterruption_frame]
  exact { h with psw := installed, ipsw := h.psw }

theorem Inv.passTime : Inv s.passTime :=
  { h with dtlb := h.dtlb.sublist (removeEntries_sublist ..), itlb := h.itlb.sublist (removeEntries_sublist ..) }

theorem Inv.acknowledge (n : Interruption) : Inv (s.acknowledge n) := by
  unfold State.acknowledge
  split <;> exact { h with }

end

/-! ### What a completed instruction may leave -/

/-- `t` may come from `s` by an instruction: what an unprivileged one may do, or at privilege level 0 whatever keeps the invariant. -/
def Permitted (s t : State) : Prop := Confined s t ∨ (s.priv = 0#2 ∧ (Inv s → Inv t))

/-- A next state is a permitted one, or an interruption taken on a permitted one. -/
def Follows (s : State) (o : Host.Outcome State Fault Refusal) : Prop :=
  ∀ t, o = .next t → Permitted s t ∨ ∃ u n p, Permitted s u ∧ t = takeInterruption u n p

theorem Permitted.retireState {s : State} {d : Done} (h : Permitted s d.state) : Permitted s (retireState s d) := by
  obtain confined | ⟨level, kept⟩ := h
  · exact .inl confined.retireState
  · refine .inr ⟨level, fun hs => (kept hs).of_confined ?_⟩
    exact (((Confined.refl d.state).advance d.flow).countDown _).tick

theorem follows_complete {s : State} {r : Res Done} (h : Leaves (Permitted s) r) : Follows s (complete s r) := by
  intro t ht
  obtain ⟨n, p, -, rfl⟩ | ⟨d, hd, rfl | ⟨n, rfl⟩⟩ := complete_next ht
  · exact .inr ⟨s, n, p, .inl (Confined.refl s), rfl⟩
  · exact .inl (h d hd).retireState
  · exact .inr ⟨_, n, _, (h d hd).retireState, rfl⟩

theorem follows_interruption {s : State} {n : Interruption} {p : Params} : Follows s (.next (takeInterruption s n p)) := by
  rintro _ ⟨⟩
  exact .inr ⟨s, n, p, .inl (Confined.refl s), rfl⟩

theorem follows_confined {s : State} {r : Res Done} (h : Leaves (Confined s) r) : Follows s (complete s r) :=
  follows_complete (h.mono fun _ => .inl)

/-! ### The privileged forms -/

section
variable {s : State}

/-- What comes after the check of the privilege level runs at level 0. -/
theorem leaves_privileged {f : Unit → Res Done} (h : s.priv = 0#2 → Leaves (fun t => Inv s → Inv t) (f ())) :
    Leaves (Permitted s) (s.privileged >>= f) := by
  refine leaves_bind fun _ ok => ?_
  unfold State.privileged at ok
  split at ok
  next level => exact (h level).mono fun _ kept => .inr ⟨level, kept⟩
  next => cases ok

theorem leaves_pdtlbForm {e : Ea} : Leaves (Permitted s) (s.pdtlbForm e) :=
  leaves_privileged fun _ => leaves_bind fun _ _ => leaves_bind fun _ _ => leaves_done fun hs =>
    (hs.withDtlb (hs.dtlb.sublist List.filter_sublist)).writeBack e

theorem leaves_pitlbForm {e : Ea} {a : DataAddr} : Leaves (Permitted s) (s.pitlbForm e a) :=
  leaves_privileged fun _ => leaves_bind fun _ _ => leaves_done fun hs =>
    (hs.withItlb (hs.itlb.sublist List.filter_sublist)).writeBack e

theorem leaves_pdtlbeForm {e : Ea} : Leaves (Permitted s) (s.pdtlbeForm e) :=
  leaves_privileged fun _ => leaves_bind fun _ _ => leaves_done fun hs =>
    (hs.withDtlb (hs.dtlb.sublist List.filter_sublist)).writeBack e

theorem leaves_pitlbeForm {e : Ea} {a : DataAddr} : Leaves (Permitted s) (s.pitlbeForm e a) :=
  leaves_privileged fun _ => leaves_done fun hs => (hs.withItlb (hs.itlb.sublist List.filter_sublist)).writeBack e

/-- An insertion that is allowed is at level 0 and of a page size that is not reserved. -/
theorem insertAllowed_ok {r1 : BitVec 5} {u : Unit} (h : s.insertAllowed r1 = .ok u) :
    s.priv = 0#2 ∧ (field (s.readGr r1) 60 63).toNat < 8 := by
  unfold State.insertAllowed State.privileged pageSize at h
  split at h
  next level =>
    refine ⟨level, ?_⟩
    by_contra big
    simp only [big, if_false] at h
    split at h <;> cases h
  next => cases h

theorem leaves_idtlbtForm {r2 r1 : BitVec 5} : Leaves (Permitted s) (s.idtlbtForm r2 r1) :=
  leaves_bind fun _ allowed =>
    have ⟨level, size⟩ := insertAllowed_ok allowed
    leaves_done (.inr ⟨level, fun hs => hs.withDtlb (hs.dtlb.insertEntry size)⟩)

theorem leaves_iitlbtForm {r2 r1 : BitVec 5} : Leaves (Permitted s) (s.iitlbtForm r2 r1) :=
  leaves_bind fun _ allowed =>
    have ⟨level, size⟩ := insertAllowed_ok allowed
    leaves_done (.inr ⟨level, fun hs => hs.withItlb (hs.itlb.insertEntry size)⟩)

theorem leaves_ssmForm {iv : BitVec 10} {t : BitVec 5} : Leaves (Permitted s) (s.ssmForm iv t) :=
  leaves_privileged fun _ => leaves_bind fun _ _ => leaves_done fun hs => (hs.writeGr t _).setMask _

theorem leaves_rsmForm {iv : BitVec 10} {t : BitVec 5} : Leaves (Permitted s) (s.rsmForm iv t) :=
  leaves_privileged fun _ => leaves_done fun hs => (hs.writeGr t _).setMask _

theorem leaves_mtsmForm {r : BitVec 5} : Leaves (Permitted s) (s.mtsmForm r) :=
  leaves_privileged fun _ => leaves_bind fun _ _ => leaves_done fun hs => hs.setMask _

theorem registerAccess_ok {allowed : Bool} {u : Unit} (h : registerAccess allowed = .ok u) : allowed = true := by
  unfold registerAccess at h
  split at h
  · assumption
  · cases h

/-- Any space register may be written at level 0, and SR 0 to 4 at every level. -/
theorem leaves_mtspForm {r : BitVec 5} {sr : BitVec 3} : Leaves (Permitted s) (s.mtspForm r sr) := by
  refine leaves_bind fun _ allowed => leaves_done ?_
  obtain low | level := by simpa using registerAccess_ok allowed
  · exact .inl ((Confined.refl s).writeSr low _)
  · exact .inr ⟨level, fun hs => { hs with }⟩

/-- A stop that MTCTL does not take for a configuration register leaves no absent unit enabled. -/
theorem setsAbsentUnit_of_mtctlStop {v : Dword} (h : s.mtctlStop 10#5 v = none) : setsAbsentUnit v = false := by
  by_contra absent
  rw [Bool.not_eq_false] at absent
  simp [State.mtctlStop, absent] at h
  split at h <;> cases h

/-- Any control register may be written at level 0, and the shift amount register at every level. -/
theorem leaves_mtctlForm {t r : BitVec 5} : Leaves (Permitted s) (s.mtctlForm t r) := by
  have written (_ : Unit) : Leaves (Permitted s) (registerAccess (t = 11#5 || s.priv = 0#2) >>= fun _ =>
      match s.mtctlStop t (s.readGr r) with
      | some x => .error (.refuse x)
      | none => done s (s.writeCr t (s.readGr r)) false) := by
    refine leaves_bind fun _ allowed => ?_
    split
    · exact leaves_error
    next running =>
      obtain rfl | level := by simpa using registerAccess_ok allowed
      · exact leaves_done (.inl ((Confined.refl s).of_user rfl))
      · exact leaves_done (.inr ⟨level, fun hs => hs.writeCr (by rintro rfl; exact setsAbsentUnit_of_mtctlStop running)⟩)
  exact leaves_unless written fun _ => written ()

/-- RFI is allowed at level 0 alone. -/
theorem rfiAllowed_ok {u : Unit} (h : s.rfiAllowed = .ok u) : s.priv = 0#2 := by
  unfold State.rfiAllowed State.privileged at h
  split at h
  · assumption
  · cases h

theorem follows_rfiForm {t : State} (h : Inv s → Inv t) : Follows s (s.rfiForm t) := by
  unfold State.rfiForm
  split
  · exact follows_complete leaves_error
  next allowed =>
    rintro _ ⟨⟩
    exact .inl (.inr ⟨rfiAllowed_ok allowed, fun hs => (h hs).returnFromInterruption.tick⟩)

end

/-! ### Every instruction -/

theorem exec_follows (i : Instr) (s : State) : Follows s (exec i s) := by
  cases i with
  | ldbLong | ldhLong | ldwLong | ldwLongMod | ldwLong11 | lddLong | ldbShort | ldbIndexed | ldhShort | ldhIndexed | ldwShort | ldwIndexed
  | lddShort | lddIndexed =>
    exact follows_confined leaves_loadOrPrefetch
  | stbLong | sthLong | stwLong | stwLongMod | stwLong11 | stdLong | stbShort | sthShort | stwShort | stdShort =>
    exact follows_confined leaves_storeForm
  | ldwaShort | ldwaIndexed | lddaShort | lddaIndexed => exact follows_confined leaves_loadAbsoluteForm
  | stwa | stda => exact follows_confined leaves_storeAbsoluteForm
  | ldcwShort | ldcwIndexed | ldcdShort | ldcdIndexed => exact follows_confined leaves_semaphoreForm
  | stby | stdby => exact follows_confined leaves_storeBytesForm
  | ldo | ldil | addil | and | andcm | or | xor | cmpclr | cmpiclr | uxor | dcor | dcorI | hadd | haddSs | haddUs | hsub | hsubSs | hsubUs
  | havg | hshladd | hshradd | hshl | hshrU | hshrS | mixhL | mixhR | mixwL | mixwR | mfsp | mfia | shrpdSar | shrpdFixed | extrdSar | depdSar
  | depdiSar =>
    exact follows_confined leaves_writeGr
  | shrpwSar | shrpwFixed | extrwSar | depwSar | depwiSar => exact follows_confined leaves_writeGr_drawn
  | extrdFixed | depdFixed | depdiFixed => exact follows_confined (leaves_bind fun _ _ => leaves_writeGr)
  | extrwFixed | depwFixed | depwiFixed => exact follows_confined (leaves_bind fun _ _ => leaves_writeGr_drawn)
  | permh => exact follows_confined (leaves_ite (fun _ => leaves_writeGr) fun _ => leaves_error)
  | add | addC | sub | subB => exact follows_confined (leaves_sumForm (k := ⟨false, false, true⟩))
  | addL => exact follows_confined (leaves_sumForm (k := ⟨false, false, false⟩))
  | addTsv | addCTsv | subTc | subTsv | subTsvTc | subBTsv | addi | addiTc | subi => exact follows_confined leaves_sumForm
  | shladd => exact follows_confined (leaves_shladdForm (k := ⟨false, false, true⟩))
  | shladdL => exact follows_confined (leaves_shladdForm (k := ⟨false, false, false⟩))
  | shladdTsv => exact follows_confined leaves_shladdForm
  | ds => exact follows_confined leaves_dsForm
  | uaddcm => exact follows_confined (leaves_uaddcmForm (trap := false))
  | uaddcmTc => exact follows_confined leaves_uaddcmForm
  | bl17 | bl22 | blr => exact follows_confined leaves_branchLinkForm
  | bGate => exact follows_confined leaves_gateForm
  | blPush => exact follows_confined (leaves_ok (((Confined.refl s).linkTo 2#5).pushBts _))
  | bv => exact follows_confined (leaves_ok (Confined.refl s))
  | be => exact follows_confined leaves_externalForm
  | beL => exact follows_confined leaves_externalLinkForm
  | bve b n p => exact follows_confined (leaves_vectoredExternalForm (by split; exacts [(Confined.refl s).popBts, Confined.refl s]))
  | bveL b n p =>
    exact follows_confined (leaves_vectoredExternalForm (by split; exacts [((Confined.refl s).linkTo 2#5).pushBts _, (Confined.refl s).linkTo 2#5]))
  | addbT | addbF | addibT | addibF | movb | movib => exact follows_confined (leaves_branchTail ((Confined.refl s).writeGr _ _))
  | cmpbT | cmpbF | cmpbDT | cmpbDF | cmpibT | cmpibF | cmpibD | bbFixed | bbSar => exact follows_confined (leaves_branchTail (Confined.refl s))
  | pushbts | pushnom => exact follows_confined (leaves_done ((Confined.refl s).pushBts _))
  | popbts => exact follows_confined (leaves_done ((Confined.refl s).withStack (popTimes_length _ _)))
  | clrbts => exact follows_confined (leaves_done ((Confined.refl s).withStack (List.length_map _)))
  | fdcIndexed | fdcShort => exact follows_confined leaves_fdcForm
  | fdce => exact follows_confined leaves_fdceForm
  | ficExplicit => exact follows_confined (leaves_cacheForm leaves_ficForm)
  | ficImplicit => exact follows_confined (leaves_cacheForm (leaves_bind fun _ _ => leaves_ficForm))
  | fice => exact follows_confined (leaves_cacheForm (leaves_done ((Confined.refl s).writeBack _)))
  | pdc => exact follows_confined leaves_pdcForm
  | probeR | probeW | probeiR | probeiW => exact follows_confined leaves_probeForm
  | lpa => exact follows_confined leaves_lpaForm
  | lci => exact follows_confined leaves_lciForm
  | pdtlb | pdtlbL => exact follows_complete leaves_pdtlbForm
  | pdtlbe => exact follows_complete leaves_pdtlbeForm
  | pitlb | pitlbL => exact follows_complete leaves_pitlbForm
  | pitlbe => exact follows_complete leaves_pitlbeForm
  | idtlbt => exact follows_complete leaves_idtlbtForm
  | iitlbt => exact follows_complete leaves_iitlbtForm
  | brk => exact follows_interruption
  | diag => exact follows_confined (leaves_bind fun _ _ => leaves_ite (fun _ => leaves_error) fun _ => leaves_done (Confined.refl s))
  | sync | syncdma => exact follows_confined (leaves_done (Confined.refl s))
  | ssm => exact follows_complete leaves_ssmForm
  | rsm => exact follows_complete leaves_rsmForm
  | mtsm => exact follows_complete leaves_mtsmForm
  | ldsid => exact follows_confined leaves_ldsidForm
  | mtsp => exact follows_complete leaves_mtspForm
  | mtctl => exact follows_complete leaves_mtctlForm
  | mtsarcm => exact follows_confined (leaves_done ((Confined.refl s).of_user rfl))
  | mfctl => exact follows_confined leaves_mfctlForm
  | rfi => exact follows_rfiForm id
  | rfiR => exact follows_rfiForm Inv.restoreShadow
  | spop0 | spop1 | spop2 | spop3 => exact follows_confined leaves_spopForm
  | pmdis | pmenb => exact follows_confined leaves_measurement
  | copr1 => exact follows_confined leaves_coprOneForm
  | copr3 | copr4to7 => exact follows_confined leaves_coprForm
  | cldwIndexed2 | cldwShort2 | cldwIndexed4 | cldwShort4 | clddIndexed2 | clddShort2 | clddIndexed4 | clddShort4 =>
    exact follows_confined leaves_coprLoadForm
  | cstwIndexed2 | cstwShort2 | cstwIndexed4 | cstwShort4 | cstdIndexed2 | cstdShort2 | cstdIndexed4 | cstdShort4 =>
    exact follows_confined leaves_coprStoreForm
  | fldwLong | fldwLongMod | fldwShort | fldwIndexed => exact follows_confined leaves_fpLoadWord
  | fstwLong | fstwLongMod | fstwShort | fstwIndexed => exact follows_confined leaves_fpStoreWord
  | flddLong | flddShort | flddIndexed => exact follows_confined leaves_fpLoadDouble
  | fstdLong | fstdShort | fstdIndexed => exact follows_confined leaves_fpStoreDouble
  | fcpy | fcpyE | fabs | fabsE | fsqrt | fsqrtE | frnd | frndE | fneg | fnegE | fnegabs | fnegabsE | fcnvFF | fcnvFFE | fcnvXF | fcnvXFE
  | fcnvUF | fcnvUFE | fcnvFX | fcnvFXE | fcnvFXT | fcnvFXTE | fcnvFU | fcnvFUE | fcnvFUT | fcnvFUTE | fadd | faddE | fsub | fsubE | fmpy
  | fmpyE | fdiv | fdivE | xmpyu | fmpyfadd | fmpynfadd =>
    exact follows_confined leaves_fpOperation
  | fcmp | fcmpE => exact follows_confined leaves_fpCompare
  | ftest => exact follows_confined leaves_fpTest
  | fid => exact follows_confined leaves_fpIdentify
  | fmpyadd | fmpysub => exact follows_confined leaves_fpMulti

theorem rejected_follows (r : Reject) (s : State) : Follows s (rejected r s) := by
  have emulated (w : Word) : Leaves (Confined s) (s.emulateUndefined w) :=
    leaves_ite (fun _ => leaves_bind fun _ _ => leaves_bind fun _ _ => leaves_error) fun _ => leaves_error
  cases r with
  | illegal => exact follows_confined leaves_error
  | fpUndefined =>
    exact follows_confined (leaves_ite (fun _ => leaves_error) fun _ => leaves_ite (fun _ => emulated _) fun _ => leaves_error)
  | fpReserved =>
    exact follows_confined (leaves_bind fun _ _ =>
      leaves_ite (fun _ => leaves_done (((Confined.refl s).fpTrapped _).fpDid .other)) fun _ => leaves_error)
  | pmUndefined => exact follows_confined (leaves_ite (fun _ => leaves_error) fun _ => leaves_error)

theorem executeWord_follows (w : Word) (s : State) : Follows (s.latch w) (executeWord s w) := by
  unfold executeWord
  split
  · exact exec_follows _ _
  · exact rejected_follows _ _

/-! ### O8 and O17 -/

theorem Inv.of_permitted {s t : State} (hs : Inv s) (h : Permitted s t) : Inv t := by
  obtain confined | ⟨-, kept⟩ := h
  · exact hs.of_confined confined
  · exact kept hs

theorem Inv.of_follows {s t : State} {o : Host.Outcome State Fault Refusal} (hs : Inv s) (h : Follows s o) (ht : o = .next t) : Inv t := by
  obtain permitted | ⟨u, n, p, permitted, rfl⟩ := h t ht
  · exact hs.of_permitted permitted
  · exact (hs.of_permitted permitted).takeInterruption n p

theorem Inv.latch {s : State} (h : Inv s) (w : Word) : Inv (s.latch w) := { h with }

theorem nullified_follows (s : State) : Follows s (nullified s) := by
  have advanced : Confined s (s.advance (s.sequential false)).tick := ((Confined.refl s).advance _).tick
  intro t ht
  unfold nullified finish at ht
  split at ht
  · cases ht
  · split at ht <;> cases ht
    · exact .inr ⟨_, _, _, .inl advanced, rfl⟩
    · exact .inl (.inl advanced)

theorem Inv.stepNow {s t : State} (h : Inv s) (ht : stepNow s = .next t) : Inv t := by
  unfold Machine.stepNow at ht
  split at ht
  next n _ =>
    cases ht
    exact (h.acknowledge n).takeInterruption n _
  next =>
    split at ht
    · exact h.of_follows (nullified_follows s) ht
    · unfold executeCurrent at ht
      split at ht
      next w _ => exact (h.latch w).of_follows (executeWord_follows w s) ht
      next e _ => exact h.of_follows (follows_confined leaves_error) ht

/-- Settles O8: the hardware's removals keep the invariant, and so does whatever the step then does. -/
theorem stepKeepsInv : Obligations.StepKeepsInv := fun _ _ hs ht => hs.passTime.stepNow ht

theorem takeInterruption_guarded (s : State) (n : Interruption) (p : Params) : (takeInterruption s n p).guarded = s.guarded := by
  rw [takeInterruption_frame]
  rfl

/-- The space registers 5 to 7 are of the guarded state. -/
theorem readSr_of_guarded {s t : State} (h : t.guarded = s.guarded) {n : BitVec 3} (hn : 5 ≤ n.toNat) : t.readSr n = s.readSr n := by
  obtain rfl | rfl | rfl : n = 5#3 ∨ n = 6#3 ∨ n = 7#3 := by revert n; decide
  · exact congrArg Guarded.sr5 h
  · exact congrArg Guarded.sr6 h
  · exact congrArg Guarded.sr7 h

/-- Settles O17: above level 0 all that an instruction may leave is confined, with an interruption taken on it or not. -/
theorem userModeConfined : Obligations.UserModeConfined := by
  intro i s t level ht
  have confined {u : State} (h : Permitted s u) : Confined s u := h.resolve_right fun ⟨zero, _⟩ => level zero
  have kept : t.guarded = s.guarded ∧ (t.psw &&& Psw.systemMask = s.psw &&& Psw.systemMask ∨ ∃ u n p, t = takeInterruption u n p) := by
    obtain permitted | ⟨u, n, p, permitted, rfl⟩ := exec_follows i s t ht
    · exact ⟨(confined permitted).guarded, .inl (confined permitted).systemMask⟩
    · exact ⟨(takeInterruption_guarded u n p).trans (confined permitted).guarded, .inr ⟨u, n, p, rfl⟩⟩
  obtain ⟨guarded, mask⟩ := kept
  exact ⟨congrArg Guarded.pid12 guarded, congrArg Guarded.pid34 guarded, congrArg Guarded.pid56 guarded, congrArg Guarded.pid78 guarded,
    congrArg Guarded.scr guarded, congrArg Guarded.ccr guarded, congrArg Guarded.iva guarded, congrArg Guarded.eiem guarded,
    congrArg Guarded.itmrCompare guarded, congrArg Guarded.tr guarded, fun _ => readSr_of_guarded guarded, congrArg Guarded.itlb guarded,
    congrArg Guarded.dtlb guarded, congrArg Guarded.defaultWidth guarded, congrArg Guarded.defaultEndian guarded, mask⟩

end Sys2Proof
end

section
/-! SUPPORT. What the moves between general, space and control registers and the system mask instructions complete with, for O46 and O47. -/

namespace Sys2Proof.Machine

/-! ### Completions -/

section
variable {i : Instr} {s : State} {t : BitVec 5} {v : Dword}

theorem completes_writeGr (hp : Plain s) (hx : exec i s = complete s (done s (s.writeGr t v) false)) : Completes i s (s.writeGr t v) false :=
  completes_of_done hp hx (by simp) (by simp) (by simp) (by simp)

theorem completes_writeGr_drawn (hp : Plain s) (hx : exec i s = complete s (done s ((s.writeGr t v).drawn 1) false)) :
    Completes i s ((s.writeGr t v).drawn 1) false :=
  completes_of_done hp hx (by simp) (by simp) (by simp) (by simp)

end

/-! ### MFCTL -/

section
variable {s : State} {r t : BitVec 5} {e : BitVec 1}

/-- Past its checks MFCTL reads an undefined value, five bits of the shift amount, or the register. -/
theorem State.mfctlForm_readable (hr : reservedCr r = false) (ha : s.priv = 0#2 ∨ s.publicCr r = true) (hw : e = 0#1 ∨ r = 11#5)
    (hl : r ≠ 17#5 ∧ r ≠ 18#5 ∨ s.flag Psw.Q = false) :
    s.mfctlForm r e t =
      if s.openCr r then done s ((s.writeGr t (s.free 0)).drawn 1) false
      else if (r = 11#5 && !(isSet e)) = true then done s (s.writeGr t (s.readCr r &&& 31#64)) false
      else done s (s.writeGr t (s.readCr r)) false := by
  have access : registerAccess (s.priv = 0#2 || s.publicCr r) = .ok () := by
    unfold registerAccess
    rw [if_pos (by simpa using ha)]
  have wide : (isSet e && decide (r ≠ 11#5)) = false := by
    obtain rfl | rfl := hw
    · rfl
    · simp
  have live : ((decide (r = 17#5) || decide (r = 18#5)) && s.flag Psw.Q) = false := by
    obtain ⟨h17, h18⟩ | q := hl
    · simp [h17, h18]
    · simp [q]
  simp only [State.mfctlForm, hr, access, wide, live]
  rfl

theorem completes_mfctl (hp : Plain s) (hr : reservedCr r = false) (ha : s.priv = 0#2 ∨ s.publicCr r = true) (h11 : r ≠ 11#5)
    (hl : r ≠ 17#5 ∧ r ≠ 18#5 ∨ s.flag Psw.Q = false) (ho : s.openCr r = false) :
    Completes (.mfctl r 0#1 t) s (s.writeGr t (s.readCr r)) false := by
  refine completes_writeGr hp ?_
  show complete s (s.mfctlForm r 0#1 t) = _
  rw [State.mfctlForm_readable hr ha (.inl rfl) hl, ho]
  simp [h11]

theorem completes_mfctl_open (hp : Plain s) (hr : reservedCr r = false) (hl : s.priv = 0#2) (h17 : r ≠ 17#5) (h18 : r ≠ 18#5)
    (ho : s.openCr r = true) : Completes (.mfctl r 0#1 t) s ((s.writeGr t (s.free 0)).drawn 1) false := by
  refine completes_writeGr_drawn hp ?_
  show complete s (s.mfctlForm r 0#1 t) = _
  rw [State.mfctlForm_readable hr (.inl hl) (.inl rfl) (.inl ⟨h17, h18⟩), ho]
  rfl

theorem mfctl_live (hr : reservedCr r = false) (hl : s.priv = 0#2) (hq : s.flag Psw.Q = true) (h : r = 17#5 ∨ r = 18#5) :
    exec (.mfctl r 0#1 t) s = .refused .interruptionRegisterLive := by
  show complete s (s.mfctlForm r 0#1 t) = _
  have live : ((decide (r = 17#5) || decide (r = 18#5)) && s.flag Psw.Q) = true := by simpa [hq] using h
  have narrow : (isSet 0#1 && decide (r ≠ 11#5)) = false := rfl
  have access : registerAccess (s.priv = 0#2 || s.publicCr r) = .ok () := by rw [registerAccess, if_pos (by simp [hl])]
  simp only [State.mfctlForm, hr, access, narrow, live]
  rfl

theorem mfctl_wide (hr : reservedCr r = false) (hl : s.priv = 0#2) (h11 : r ≠ 11#5) :
    exec (.mfctl r 1#1 t) s = .refused .wideMoveNotSar := by
  show complete s (s.mfctlForm r 1#1 t) = _
  have wide : (isSet 1#1 && decide (r ≠ 11#5)) = true := by simpa [isSet] using h11
  have access : registerAccess (s.priv = 0#2 || s.publicCr r) = .ok () := by rw [registerAccess, if_pos (by simp [hl])]
  simp only [State.mfctlForm, hr, access, wide]
  rfl

/-- A register but CR 0 and CR 19 to 22 has a defined value always. -/
theorem State.openCr_eq_false (h0 : r ≠ 0#5) (hq : r.toNat < 19 ∨ 22 < r.toNat ∨ s.flag Psw.Q = false) : s.openCr r = false := by
  obtain h | h | h := hq <;> simp [State.openCr, h0, h]

end

/-! ### MTCTL -/

section
variable {s : State} {t r : BitVec 5}

/-- MTCTL of a register that exists and may be written writes it, or is undefined as `mtctlStop` says. -/
theorem State.mtctlForm_writable (hr : reservedCr t = false) (ha : t = 11#5 ∨ s.priv = 0#2) :
    s.mtctlForm t r =
      match s.mtctlStop t (s.readGr r) with
      | some x => .error (.refuse x)
      | none => done s (s.writeCr t (s.readGr r)) false := by
  have access : registerAccess (t = 11#5 || s.priv = 0#2) = .ok () := by
    unfold registerAccess
    rw [if_pos (by simpa using ha)]
  simp only [State.mtctlForm, hr, access]
  rfl

theorem mtctl_refused {x : Refusal} (hr : reservedCr t = false) (hl : s.priv = 0#2) (hx : s.mtctlStop t (s.readGr r) = some x) :
    exec (.mtctl t r) s = .refused x := by
  show complete s (s.mtctlForm t r) = _
  rw [State.mtctlForm_writable hr (.inr hl), hx]
  rfl

/-- Writing a control register leaves the queues and the interval timer's count, and but for CR 0 the recovery counter. -/
theorem State.writeCr_eq (s : State) (t : BitVec 5) (v : Dword) :
    (s.writeCr t v).iaoqBack = s.iaoqBack ∧ (s.writeCr t v).iasqBack = s.iasqBack ∧ (s.writeCr t v).itmr = s.itmr ∧
    (t ≠ 0#5 → (s.writeCr t v).rctr = s.rctr) := by
  unfold State.writeCr
  split
  case h_1 h0 => exact ⟨rfl, rfl, rfl, fun hne => absurd (BitVec.eq_of_toNat_eq h0) hne⟩
  case h_17 => split <;> exact ⟨rfl, rfl, rfl, fun _ => rfl⟩
  all_goals exact ⟨rfl, rfl, rfl, fun _ => rfl⟩

theorem State.writeCr_vector (v : Dword) : s.writeCr 14#5 v = { s with iva := v &&& ~~~0x7FF#64 } := rfl

theorem State.writeCr_spaceQueue (v : Dword) :
    s.writeCr 17#5 v = { s with iiasqFront := s.iiasqBack, iiasqBack := v &&& Config.sidMask } := rfl

theorem State.writeCr_space (v : Dword) : s.writeCr 20#5 v = { s with isr := v &&& Config.sidMask } := rfl

theorem State.writeCr_ipsw (v : Dword) : s.writeCr 22#5 v = { s with ipsw := v &&& Psw.defined } := rfl

theorem completes_mtctl {d : State} (hp : Plain s) (hr : reservedCr t = false) (ha : t = 11#5 ∨ s.priv = 0#2) (h0 : t ≠ 0#5)
    (hx : s.mtctlStop t (s.readGr r) = none) (hd : s.writeCr t (s.readGr r) = d) : Completes (.mtctl t r) s d false := by
  obtain ⟨back, backSpace, timer, recovery⟩ := s.writeCr_eq t (s.readGr r)
  subst hd
  refine completes_of_done hp ?_ back backSpace (recovery h0) timer
  show complete s (s.mtctlForm t r) = _
  rw [State.mtctlForm_writable hr ha, hx]

/-- The registers whose write is undefined in no state and of no value. -/
theorem State.mtctlStop_none (v : Dword) (ht : t ∈ [8#5, 9#5, 11#5, 12#5, 13#5, 15#5, 16#5, 23#5] ∨ 24 ≤ t.toNat) :
    s.mtctlStop t v = none := by
  have plain : (∀ k ∈ [0#5, 10#5, 17#5, 18#5, 19#5, 20#5, 21#5, 22#5], t ≠ k) ∧ reservedMask t = 0#64 := by
    revert t; decide
  simp only [List.forall_mem_cons] at plain
  obtain ⟨⟨h0, h10, h17, h18, h19, h20, h21, h22, -⟩, hm⟩ := plain
  simp [State.mtctlStop, h0, h10, h17, h18, h19, h20, h21, h22, hm]

end

/-! ### The checks of the registers that have reserved bits or states -/

theorem and_lowMask_eq_zero_iff (v : Dword) : v &&& 0x7FF#64 = 0#64 ↔ v.extractLsb' 0 11 = 0#11 := by
  rw [← BitVec.toNat_inj, ← BitVec.toNat_inj, BitVec.toNat_and, show (0x7FF#64).toNat = 2 ^ 11 - 1 from rfl,
    Nat.and_two_pow_sub_one_eq_mod, toNat_extractLsb'_eq_div_mod, Nat.pow_zero, Nat.div_one]
  rfl

theorem and_highMask_eq_zero_iff (v : Dword) : v &&& 0xFFFFFFFFFFFF0000#64 = 0#64 ↔ v.extractLsb' 16 48 = 0#48 := by
  have high : 0xFFFFFFFFFFFF0000#64 = BitVec.allOnes 64 <<< 16 := by decide
  have := v.isLt
  rw [high, ← BitVec.shiftLeft_ushiftRight, ← BitVec.toNat_inj, ← BitVec.toNat_inj, toNat_extractLsb'_eq_div_mod, BitVec.toNat_shiftLeft,
    BitVec.toNat_ushiftRight, Nat.shiftLeft_eq, Nat.shiftRight_eq_div_pow]
  simp only [BitVec.toNat_zero]
  omega

/-- A mask takes nothing from what has no bits outside it. -/
theorem and_of_and_not_eq_zero {v m : Dword} (h : v &&& ~~~m = 0#64) : v &&& m = v := by
  have split : v &&& m ||| v &&& ~~~m = v := by rw [← BitVec.and_or_distrib_left, BitVec.or_not_self, BitVec.and_allOnes]
  rwa [h, BitVec.or_zero] at split

section
variable (s : State) (v : Dword)

theorem State.mtctlStop_vector : s.mtctlStop 14#5 v = if v.extractLsb' 0 11 = 0#11 then none else some .reservedBits := by
  have bits := and_lowMask_eq_zero_iff v
  by_cases h : v.extractLsb' 0 11 = 0#11 <;> simp [State.mtctlStop, reservedMask, bits, h]

theorem State.mtctlStop_configuration :
    s.mtctlStop 10#5 v =
      if v.extractLsb' 16 48 = 0#48 then if setsAbsentUnit v then some .absentUnit else none else some .reservedBits := by
  have bits := and_highMask_eq_zero_iff v
  by_cases h : v.extractLsb' 16 48 = 0#48 <;> simp [State.mtctlStop, reservedMask, bits, h]

theorem setsAbsentUnit_iff :
    setsAbsentUnit v = true ↔
      v.extractLsb' 8 8 &&& ~~~Config.sfusPresent ≠ 0#8 ∨ v.extractLsb' 0 8 &&& ~~~Config.coprocessorsPresent ≠ 0#8 := by
  simp [setsAbsentUnit, field]

theorem State.mtctlStop_interruption (hq : s.flag Psw.Q = false) {t : BitVec 5} (ht : t ∈ [17#5, 18#5, 20#5, 21#5]) :
    s.mtctlStop t v = none := by
  simp only [List.mem_cons, List.not_mem_nil, or_false] at ht
  obtain rfl | rfl | rfl | rfl := ht <;> simp [State.mtctlStop, reservedMask, hq]

theorem State.mtctlStop_ipsw (hq : s.flag Psw.Q = false) :
    s.mtctlStop 22#5 v = if v &&& ~~~0x000000FFCFFFFFFF#64 = 0#64 then none else some .reservedBits := by
  by_cases h : v &&& ~~~0x000000FFCFFFFFFF#64 = 0#64 <;> simp_all [State.mtctlStop, reservedMask]

theorem State.mtctlStop_live (hq : s.flag Psw.Q = true) {t : BitVec 5} (ht : t ∈ [17#5, 18#5, 20#5, 21#5, 22#5]) :
    s.mtctlStop t v = some .interruptionRegisterLive := by
  simp only [List.mem_cons, List.not_mem_nil, or_false] at ht
  obtain rfl | rfl | rfl | rfl | rfl := ht <;> simp [State.mtctlStop, hq]

theorem State.mtctlStop_counter : s.mtctlStop 0#5 v = if s.flag Psw.R then some .recoveryCounterRunning else none := by
  by_cases h : s.flag Psw.R = true <;> simp [State.mtctlStop, reservedMask, h]

end

/-! ### O46 -/

theorem completes_mtsp {s : State} {r : BitVec 5} {sr : BitVec 3} {w : Dword} (hp : Plain s) (ha : (assemble3 sr).toNat < 5 ∨ s.priv = 0#2)
    (hw : (if s.flag Psw.W then s.readGr r else (s.readSr (assemble3 sr)).extractLsb' 32 32 ++ (s.readGr r).extractLsb' 0 32) = w) :
    Completes (.mtsp r sr) s (s.writeSr (assemble3 sr) w) false := by
  have access : registerAccess ((assemble3 sr).toNat < 5 || s.priv = 0#2) = .ok () := by
    unfold registerAccess
    rw [if_pos (by simpa using ha)]
  subst hw
  refine completes_of_done hp ?_ rfl rfl rfl rfl
  show complete s (s.mtspForm r sr) = _
  simp only [State.mtspForm, access]
  rfl

/-- The moves that every level may make, and those of the space registers. -/
theorem spaceMoves (s : State) (b r t : BitVec 5) (sr : BitVec 2) (sr3 n : BitVec 3) (v : Dword) (hp : Plain s) (hv : v = s.readGr r)
    (hn : n = sr3.extractLsb' 0 1 ++ sr3.extractLsb' 1 2) :
    (∀ w, s.spaceSelect sr (s.readGr b) false = .ok w → Completes (.ldsid b sr t) s (s.writeGr t w) false) ∧
    (∀ x, s.spaceSelect sr (s.readGr b) false = .error x → Completes (.ldsid b sr t) s ((s.writeGr t (s.free 0)).drawn 1) false) ∧
    (n.toNat < 5 ∨ s.priv = 0#2 → s.flag Psw.W = true → Completes (.mtsp r sr3) s (s.writeSr n v) false) ∧
    (n.toNat < 5 ∨ s.priv = 0#2 → s.flag Psw.W = false →
      Completes (.mtsp r sr3) s (s.writeSr n ((s.readSr n).extractLsb' 32 32 ++ v.extractLsb' 0 32)) false) ∧
    Completes (.mfsp sr3 t) s (s.writeGr t (s.readSr n)) false ∧
    Completes (.mfia t) s (s.writeGr t (s.iaoqFront &&& ~~~3#64)) false ∧
    Completes (.mtsarcm r) s { s with sar := ~~~(v.extractLsb' 0 6) } false ∧
    Completes (.mtctl 11#5 r) s { s with sar := v.extractLsb' 0 6 } false := by
  obtain rfl : n = assemble3 sr3 := hn
  subst hv
  refine ⟨fun w hw => completes_writeGr hp ?_, fun x hx => completes_writeGr_drawn hp ?_, fun ha wide => completes_mtsp hp ha (by rw [wide]; rfl),
    fun ha narrow => completes_mtsp hp ha (by rw [narrow]; rfl), completes_writeGr hp rfl, completes_writeGr hp rfl,
    completes_of_done hp rfl rfl rfl rfl rfl,
    completes_mtctl hp rfl (.inl rfl) (by decide) (State.mtctlStop_none _ (.inl (by decide))) rfl⟩
  · show complete s (s.ldsidForm b sr t) = _
    rw [State.ldsidForm, hw]
  · show complete s (s.ldsidForm b sr t) = _
    rw [State.ldsidForm, hx]

/-- MTCTL to CR 0 with PSW[R] = 0: the counter takes the value, and the instruction does not count down. -/
theorem mtctl_counter {s : State} {r : BitVec 5} (hp : Plain s) (hl : s.priv = 0#2) (hr : s.flag Psw.R = false) :
    ∃ u, exec (.mtctl 0#5 r) s = .next u ∧
      Ended { s with rctr := (s.readGr r).extractLsb' 0 32 } u false false (s.iaoqBack + 4) s.iasqBack ∧
      u.rctr = (s.readGr r).extractLsb' 0 32 ∧ SamePsw s u ∧ SameRequests s u ∧ AsIn s u := by
  let d : State := { s with rctr := (s.readGr r).extractLsb' 0 32 }
  obtain ⟨ended, asIn, requests, psw⟩ := retireState_ended (s := d) (d := d) (fl := s.sequential false) rfl rfl rfl rfl
  refine ⟨retireState d ⟨d, s.sequential false⟩, ?_, ended, ?_, psw, requests, asIn⟩
  · show complete s (s.mtctlForm 0#5 r) = _
    rw [State.mtctlForm_writable rfl (.inr hl), State.mtctlStop_counter, hr]
    exact finish_plain hp hp.1
  · have recovery := ended.recovery
    rwa [show d.flag Psw.R = false from hr] at recovery

/-- MTCTL to the registers that are undefined in some state or of some value. -/
theorem controlWrites (s : State) (r t : BitVec 5) (v : Dword) (hp : Plain s) (hv : v = s.readGr r) (hl : s.priv = 0#2) :
    Completes (.mtctl 8#5 r) s { s with pid12 := v } false ∧ Completes (.mtctl 9#5 r) s { s with pid34 := v } false ∧
    Completes (.mtctl 12#5 r) s { s with pid56 := v } false ∧ Completes (.mtctl 13#5 r) s { s with pid78 := v } false ∧
    (v.extractLsb' 0 11 = 0 → Completes (.mtctl 14#5 r) s { s with iva := v } false) ∧
    (v.extractLsb' 0 11 ≠ 0 → exec (.mtctl 14#5 r) s = .refused .reservedBits) ∧ Completes (.mtctl 15#5 r) s { s with eiem := v } false ∧
    Completes (.mtctl 16#5 r) s { s with itmrCompare := v.extractLsb' 0 32 } false ∧
    Completes (.mtctl 23#5 r) s { s with eirr := s.eirr &&& ~~~v } false ∧
    (v.extractLsb' 16 48 ≠ 0 → exec (.mtctl 10#5 r) s = .refused .reservedBits) ∧
    (v.extractLsb' 16 48 = 0 → v.extractLsb' 8 8 &&& ~~~Config.sfusPresent = 0 → v.extractLsb' 0 8 &&& ~~~Config.coprocessorsPresent = 0 →
      Completes (.mtctl 10#5 r) s { s with scr := v.extractLsb' 8 8, ccr := v.extractLsb' 0 8 } false) ∧
    (v.extractLsb' 16 48 = 0 → v.extractLsb' 8 8 &&& ~~~Config.sfusPresent ≠ 0 ∨ v.extractLsb' 0 8 &&& ~~~Config.coprocessorsPresent ≠ 0 →
      exec (.mtctl 10#5 r) s = .refused .absentUnit) ∧
    (∀ k (h : k < 8), t.toNat = 24 + k → Completes (.mtctl t r) s { s with tr := s.tr.set k v h } false) ∧
    (s.flag Psw.R = false → ∃ u, exec (.mtctl 0#5 r) s = .next u ∧
      Ended { s with rctr := v.extractLsb' 0 32 } u false false (s.iaoqBack + 4) s.iasqBack ∧ u.rctr = v.extractLsb' 0 32 ∧
      SamePsw s u ∧ SameRequests s u ∧ AsIn s u) ∧
    (s.flag Psw.R = true → exec (.mtctl 0#5 r) s = .refused .recoveryCounterRunning) ∧
    (s.flag Psw.Q = false →
      Completes (.mtctl 17#5 r) s { s with iiasqFront := s.iiasqBack, iiasqBack := v } false ∧
      Completes (.mtctl 18#5 r) s { s with iiaoqFront := s.iiaoqBack, iiaoqBack := v } false ∧
      Completes (.mtctl 20#5 r) s { s with isr := v } false ∧ Completes (.mtctl 21#5 r) s { s with ior := v } false ∧
      (v &&& ~~~0x000000FFCFFFFFFF#64 = 0 → Completes (.mtctl 22#5 r) s { s with ipsw := v } false) ∧
      (v &&& ~~~0x000000FFCFFFFFFF#64 ≠ 0 → exec (.mtctl 22#5 r) s = .refused .reservedBits)) ∧
    (s.flag Psw.Q = true → ∀ k ∈ [17#5, 18#5, 20#5, 21#5, 22#5], exec (.mtctl k r) s = .refused .interruptionRegisterLive) ∧
    exec (.mtctl 19#5 r) s = .refused .writeOfIir := by
  subst hv
  have always {k : BitVec 5} {d : State} (hk : k ∈ [8#5, 9#5, 12#5, 13#5, 15#5, 16#5, 23#5])
      (hd : s.writeCr k (s.readGr r) = d) : Completes (.mtctl k r) s d false := by
    have known : reservedCr k = false ∧ k ≠ 0#5 ∧ k ∈ [8#5, 9#5, 11#5, 12#5, 13#5, 15#5, 16#5, 23#5] := by
      clear hd
      revert k; decide
    obtain ⟨there, h0, stops⟩ := known
    exact completes_mtctl hp there (.inr hl) h0 (State.mtctlStop_none _ (.inl stops)) hd
  refine ⟨always (by decide) rfl, always (by decide) rfl, always (by decide) rfl, always (by decide) rfl, fun aligned => ?vector,
    fun reserved => ?vectorReserved, always (by decide) rfl, always (by decide) rfl, always (by decide) rfl, fun reserved => ?configReserved,
    fun zero sfus coprs => ?config, fun zero absent => ?configAbsent, fun k hk ht => ?temporary, mtctl_counter hp hl, fun running => ?counting,
    fun quiet => ?interruption, fun live k hk => ?live, mtctl_refused rfl hl rfl⟩
  case vector =>
    refine completes_mtctl hp rfl (.inr hl) (by decide) ((s.mtctlStop_vector _).trans (if_pos aligned)) ?_
    have kept : s.readGr r &&& ~~~0x7FF#64 = s.readGr r := and_of_and_not_eq_zero (by
      rw [BitVec.not_not, and_lowMask_eq_zero_iff]
      exact aligned)
    rw [State.writeCr_vector, kept]
  case vectorReserved => exact mtctl_refused rfl hl ((s.mtctlStop_vector _).trans (if_neg reserved))
  case configReserved => exact mtctl_refused rfl hl ((s.mtctlStop_configuration _).trans (if_neg reserved))
  case config =>
    have present : ¬setsAbsentUnit (s.readGr r) = true := by
      rw [setsAbsentUnit_iff]
      exact not_or.2 ⟨not_not.2 sfus, not_not.2 coprs⟩
    exact completes_mtctl hp rfl (.inr hl) (by decide) ((s.mtctlStop_configuration _).trans ((if_pos zero).trans (if_neg present))) rfl
  case configAbsent =>
    exact mtctl_refused rfl hl ((s.mtctlStop_configuration _).trans ((if_pos zero).trans (if_pos ((setsAbsentUnit_iff _).2 absent))))
  case temporary =>
    have known : reservedCr t = false ∧ t ≠ 0#5 := by
      have : 24 ≤ t.toNat := by omega
      clear ht
      revert t; decide
    refine completes_mtctl hp known.1 (.inr hl) known.2 (State.mtctlStop_none _ (.inr (by omega))) ?_
    obtain rfl : t = BitVec.ofNat 5 (24 + k) := by rw [← ht, BitVec.ofNat_toNat, BitVec.setWidth_eq]
    clear known ht
    interval_cases k <;> rfl
  case counting => exact mtctl_refused rfl hl ((s.mtctlStop_counter _).trans (if_pos running))
  case interruption =>
    have quietly {k : BitVec 5} {d : State} (hk : k ∈ [17#5, 18#5, 20#5, 21#5]) (hd : s.writeCr k (s.readGr r) = d) :
        Completes (.mtctl k r) s d false := by
      have known : reservedCr k = false ∧ k ≠ 0#5 := by
        clear hd
        revert k; decide
      exact completes_mtctl hp known.1 (.inr hl) known.2 (State.mtctlStop_interruption s _ quiet hk) hd
    have spaces : s.readGr r &&& Config.sidMask = s.readGr r := by rw [Config_sidMask, BitVec.and_allOnes]
    refine ⟨quietly (by decide) ?_, quietly (by decide) rfl, quietly (by decide) ?_, quietly (by decide) rfl, fun defined => ?_,
      fun reserved => mtctl_refused rfl hl ((s.mtctlStop_ipsw _ quiet).trans (if_neg reserved))⟩
    · rw [State.writeCr_spaceQueue, spaces]
    · rw [State.writeCr_space, spaces]
    · refine completes_mtctl hp rfl (.inr hl) (by decide) ((s.mtctlStop_ipsw _ quiet).trans (if_pos defined)) ?_
      rw [State.writeCr_ipsw, Psw.defined_eq, and_of_and_not_eq_zero defined]
  case live =>
    have known : reservedCr k = false := by revert k; decide
    exact mtctl_refused known hl (State.mtctlStop_live s _ live hk)

/-- Between CR 0 and CR 8 no control register can be written or read. -/
theorem reservedMoves (s : State) (r t : BitVec 5) (e : BitVec 1) (h1 : 1 ≤ r.toNat) (h7 : r.toNat ≤ 7) :
    exec (.mtctl r t) s = .refused .reservedControlRegister ∧ exec (.mfctl r e t) s = .refused .reservedControlRegister := by
  have reserved : reservedCr r = true := by simp [reservedCr, h1, h7]
  constructor
  · show complete s (s.mtctlForm r t) = _
    rw [State.mtctlForm, reserved]
    rfl
  · show complete s (s.mfctlForm r e t) = _
    rw [State.mfctlForm, reserved]
    rfl

/-- The reads of the shift amount register, in both widths. -/
theorem completes_mfctl_sar {s : State} {t : BitVec 5} (hp : Plain s) (e : BitVec 1) :
    Completes (.mfctl 11#5 e t) s (s.writeGr t (if e = 1#1 then s.sar.zeroExtend 64 else s.sar.zeroExtend 64 &&& 31#64)) false := by
  have stays : s.openCr 11#5 = false := State.openCr_eq_false (by decide) (.inl (by decide))
  refine completes_writeGr hp ?_
  show complete s (s.mfctlForm 11#5 e t) = _
  rw [State.mfctlForm_readable rfl (.inr rfl) (.inr rfl) (.inl ⟨by decide, by decide⟩), stays]
  obtain rfl | rfl : e = 0#1 ∨ e = 1#1 := by revert e; decide
  · rfl
  · rfl

theorem State.readCr_temporary (s : State) {r : BitVec 5} {k : Nat} (h : k < 8) (hr : r.toNat = 24 + k) : s.readCr r = s.tr[k] := by
  obtain rfl : r = BitVec.ofNat 5 (24 + k) := by rw [← hr, BitVec.ofNat_toNat, BitVec.setWidth_eq]
  clear hr
  interval_cases k <;> rfl

/-- MFCTL of each register: what every level may read, and what level 0 may. -/
theorem controlReads (s : State) (r t : BitVec 5) (hp : Plain s) :
    Completes (.mfctl 11#5 1#1 t) s (s.writeGr t (s.sar.zeroExtend 64)) false ∧
    Completes (.mfctl 11#5 0#1 t) s (s.writeGr t (s.sar.zeroExtend 64 &&& 31#64)) false ∧
    Completes (.mfctl 26#5 0#1 t) s (s.writeGr t s.tr[2]) false ∧ Completes (.mfctl 27#5 0#1 t) s (s.writeGr t s.tr[3]) false ∧
    (s.flag Psw.S = false ∨ s.priv = 0#2 → Completes (.mfctl 16#5 0#1 t) s (s.writeGr t s.itmr) false) ∧
    (s.priv = 0#2 →
      (s.flag Psw.R = false → Completes (.mfctl 0#5 0#1 t) s (s.writeGr t (s.rctr.zeroExtend 64)) false) ∧
      (s.flag Psw.R = true → Completes (.mfctl 0#5 0#1 t) s ((s.writeGr t (s.free 0)).drawn 1) false) ∧
      Completes (.mfctl 8#5 0#1 t) s (s.writeGr t s.pid12) false ∧ Completes (.mfctl 9#5 0#1 t) s (s.writeGr t s.pid34) false ∧
      Completes (.mfctl 10#5 0#1 t) s (s.writeGr t ((s.scr ++ s.ccr).zeroExtend 64)) false ∧
      Completes (.mfctl 12#5 0#1 t) s (s.writeGr t s.pid56) false ∧ Completes (.mfctl 13#5 0#1 t) s (s.writeGr t s.pid78) false ∧
      Completes (.mfctl 14#5 0#1 t) s (s.writeGr t s.iva) false ∧ Completes (.mfctl 15#5 0#1 t) s (s.writeGr t s.eiem) false ∧
      Completes (.mfctl 23#5 0#1 t) s (s.writeGr t s.eirr) false ∧
      (∀ k (h : k < 8), r.toNat = 24 + k → Completes (.mfctl r 0#1 t) s (s.writeGr t s.tr[k]) false) ∧
      (s.flag Psw.Q = false →
        Completes (.mfctl 17#5 0#1 t) s (s.writeGr t s.iiasqFront) false ∧ Completes (.mfctl 18#5 0#1 t) s (s.writeGr t s.iiaoqFront) false ∧
        Completes (.mfctl 19#5 0#1 t) s (s.writeGr t (s.iir.zeroExtend 64)) false ∧ Completes (.mfctl 20#5 0#1 t) s (s.writeGr t s.isr) false ∧
        Completes (.mfctl 21#5 0#1 t) s (s.writeGr t s.ior) false ∧ Completes (.mfctl 22#5 0#1 t) s (s.writeGr t s.ipsw) false) ∧
      (s.flag Psw.Q = true →
        exec (.mfctl 17#5 0#1 t) s = .refused .interruptionRegisterLive ∧ exec (.mfctl 18#5 0#1 t) s = .refused .interruptionRegisterLive ∧
        (19 ≤ r.toNat → r.toNat ≤ 22 → Completes (.mfctl r 0#1 t) s ((s.writeGr t (s.free 0)).drawn 1) false)) ∧
      (r ≠ 11#5 → r = 0#5 ∨ 8 ≤ r.toNat → exec (.mfctl r 1#1 t) s = .refused .wideMoveNotSar)) := by
  have steady {k : BitVec 5} (hk : k ∈ [8#5, 9#5, 10#5, 12#5, 13#5, 14#5, 15#5, 16#5, 23#5] ∨ 24 ≤ k.toNat)
      (ha : s.priv = 0#2 ∨ s.publicCr k = true) : Completes (.mfctl k 0#1 t) s (s.writeGr t (s.readCr k)) false := by
    have known : reservedCr k = false ∧ k ≠ 0#5 ∧ k ≠ 11#5 ∧ k ≠ 17#5 ∧ k ≠ 18#5 ∧ (k.toNat < 19 ∨ 22 < k.toNat) := by
      clear ha
      revert k; decide
    obtain ⟨there, h0, h11, h17, h18, hq⟩ := known
    exact completes_mfctl hp there ha h11 (.inl ⟨h17, h18⟩) (State.openCr_eq_false h0 (by tauto))
  refine ⟨completes_mfctl_sar hp 1#1, completes_mfctl_sar hp 0#1, steady (.inr (by decide)) (.inr rfl), steady (.inr (by decide)) (.inr rfl),
    fun ha => steady (.inl (by decide)) ?timer, fun hl => ⟨fun still => ?counter, fun running => ?counting, steady (.inl (by decide)) (.inl hl),
      steady (.inl (by decide)) (.inl hl), steady (.inl (by decide)) (.inl hl), steady (.inl (by decide)) (.inl hl), steady (.inl (by decide)) (.inl hl),
      steady (.inl (by decide)) (.inl hl), steady (.inl (by decide)) (.inl hl), steady (.inl (by decide)) (.inl hl), fun k hk hr => ?temporary,
      fun quiet => ?interruption, fun live => ⟨?liveSpace, ?liveOffset, fun low high => ?liveOthers⟩, fun h11 there => ?wide⟩⟩
  case timer =>
    obtain unsecured | hl := ha
    · exact .inr (by simp [State.publicCr, unsecured])
    · exact .inl hl
  case counter => exact completes_mfctl hp rfl (.inl hl) (by decide) (.inl ⟨by decide, by decide⟩) (by simp [State.openCr, still])
  case counting => exact completes_mfctl_open hp rfl hl (by decide) (by decide) (by simp [State.openCr, running])
  case temporary =>
    rw [← s.readCr_temporary hk hr]
    exact steady (.inr (by omega)) (.inl hl)
  case interruption =>
    have quietly {k : BitVec 5} (hk : k ∈ [17#5, 18#5, 19#5, 20#5, 21#5, 22#5]) :
        Completes (.mfctl k 0#1 t) s (s.writeGr t (s.readCr k)) false := by
      have known : reservedCr k = false ∧ k ≠ 0#5 ∧ k ≠ 11#5 := by revert k; decide
      obtain ⟨there, h0, h11⟩ := known
      exact completes_mfctl hp there (.inl hl) h11 (.inr quiet) (State.openCr_eq_false h0 (.inr (.inr quiet)))
    exact ⟨quietly (by decide), quietly (by decide), quietly (by decide), quietly (by decide), quietly (by decide), quietly (by decide)⟩
  case liveSpace => exact mfctl_live rfl hl live (.inl rfl)
  case liveOffset => exact mfctl_live rfl hl live (.inr rfl)
  case liveOthers =>
    have known : reservedCr r = false ∧ r ≠ 17#5 ∧ r ≠ 18#5 := by revert r; decide
    obtain ⟨there, h17, h18⟩ := known
    exact completes_mfctl_open hp there hl h17 h18 (by simp [State.openCr, live, low, high])
  case wide =>
    have known : reservedCr r = false := by revert r; decide
    exact mfctl_wide known hl h11

/-- Settles O46: each move passes its checks and completes with the register's value, or one check refuses it. -/
theorem registerMoves : Obligations.RegisterMoves := by
  unfold Obligations.RegisterMoves
  exact ⟨spaceMoves, controlWrites, reservedMoves, controlReads⟩

end Sys2Proof.Machine
end

section
/-! SUPPORT. What SSM, RSM and MTSM leave of the system mask, for O47. -/

namespace Sys2Proof.Machine

/-! ### The bits of the mask -/

/-- Replacing the bits of a mask by those of a superset that adds only bits of the mask sets just these. -/
theorem replace_or {p g m : Dword} (h : g &&& m = g) : (p &&& ~~~m) ||| ((p ||| g) &&& m) = p ||| g := by
  ext i hi
  have within := congrArg (·[i]) h
  simp only [BitVec.getElem_and, BitVec.getElem_or, BitVec.getElem_not] at within ⊢
  generalize p[i] = a, g[i] = b, m[i] = c at *
  clear h
  revert a b c
  decide

/-- Replacing the bits of a mask by those of a subset that drops only bits of the mask clears just these. -/
theorem replace_and_not {p g m : Dword} (h : g &&& m = g) : (p &&& ~~~m) ||| ((p &&& ~~~g) &&& m) = p &&& ~~~g := by
  ext i hi
  have within := congrArg (·[i]) h
  simp only [BitVec.getElem_and, BitVec.getElem_or, BitVec.getElem_not] at within ⊢
  generalize p[i] = a, g[i] = b, m[i] = c at *
  clear h
  revert a b c
  decide

theorem maskImage_and_systemMask (iv : BitVec 10) : maskImage iv &&& Psw.systemMask = maskImage iv := by
  rw [Psw.systemMask_eq]
  revert iv
  decide +kernel

theorem bitAt_maskImage_q (iv : BitVec 10) : bitAt (maskImage iv) Psw.Q = iv.getLsbD 3 := by
  simp [maskImage, bitAt, Psw.Q, BitVec.getMsbD]

section
variable (s : State) (m : Dword) (iv : BitVec 10)

/-! ### The state after the mask is replaced -/

/-- The interruption state is lost just when Q is cleared. -/
theorem State.setMask_kept (h : s.flag Psw.Q = false ∨ bitAt m Psw.Q = true) :
    s.setMask m = { s with psw := (s.psw &&& ~~~Psw.systemMask) ||| (m &&& Psw.systemMask) } := by
  obtain h | h := h <;> simp only [State.setMask, h] <;> simp

theorem State.setMask_lost (hq : s.flag Psw.Q = true) (hm : bitAt m Psw.Q = false) :
    s.setMask m = ({ s with psw := (s.psw &&& ~~~Psw.systemMask) ||| (m &&& Psw.systemMask) } : State).loseInterruptionState := by
  simp only [State.setMask, hq, hm]
  rfl

end

/-! ### O47 -/

section
variable {s : State} {d : State} {i : Instr} {iv : BitVec 10} {t r : BitVec 5} {m : Dword}

/-- The system mask instructions leave the queues, the recovery counter and the timer. -/
theorem completes_setMask (hp : Plain s) (hb : d.iaoqBack = s.iaoqBack) (hs : d.iasqBack = s.iasqBack) (hr : d.rctr = s.rctr)
    (ht : d.itmr = s.itmr) (hx : exec i s = complete s (done s (d.setMask m) false)) : Completes i s (d.setMask m) false := by
  have frame : (d.setMask m).iaoqBack = d.iaoqBack ∧ (d.setMask m).iasqBack = d.iasqBack ∧ (d.setMask m).rctr = d.rctr ∧
      (d.setMask m).itmr = d.itmr := by
    simp only [State.setMask]
    split <;> exact ⟨rfl, rfl, rfl, rfl⟩
  obtain ⟨back, backSpace, recovery, timer⟩ := frame
  exact completes_of_done hp hx (back.trans hb) (backSpace.trans hs) (recovery.trans hr) (timer.trans ht)

theorem State.privileged_eq_ok (h : s.priv = 0#2) : s.privileged = .ok () := if_pos h

theorem State.keepsQ_eq_ok (h : s.flag Psw.Q = true ∨ bitAt m Psw.Q = false) : s.keepsQ m = .ok () := by
  obtain h | h := h <;> simp [State.keepsQ, h]

theorem State.keepsQ_eq_error (hq : s.flag Psw.Q = false) (hm : bitAt m Psw.Q = true) : s.keepsQ m = .error (.refuse .settingQ) := by
  simp [State.keepsQ, hq, hm]

theorem completes_ssm (hp : Plain s) (hl : s.priv = 0#2) (hk : s.flag Psw.Q = true ∨ iv.getLsbD 3 = false) :
    Completes (.ssm iv t) s ((s.writeGr t (s.psw &&& Psw.systemMask)).setMask (s.psw ||| maskImage iv)) false := by
  refine completes_setMask hp (by simp) (by simp) (by simp) (by simp) ?_
  show complete s (s.ssmForm iv t) = _
  rw [State.ssmForm, State.privileged_eq_ok hl, State.keepsQ_eq_ok (by rwa [bitAt_maskImage_q])]
  rfl

theorem completes_rsm (hp : Plain s) (hl : s.priv = 0#2) :
    Completes (.rsm iv t) s ((s.writeGr t (s.psw &&& Psw.systemMask)).setMask (s.psw &&& ~~~(maskImage iv))) false := by
  refine completes_setMask hp (by simp) (by simp) (by simp) (by simp) ?_
  show complete s (s.rsmForm iv t) = _
  rw [State.rsmForm, State.privileged_eq_ok hl]
  rfl

theorem completes_mtsm (hp : Plain s) (hl : s.priv = 0#2) (hk : s.flag Psw.Q = true ∨ bitAt (s.readGr r) Psw.Q = false) :
    Completes (.mtsm r) s (s.setMask (s.readGr r)) false := by
  refine completes_setMask hp rfl rfl rfl rfl ?_
  show complete s (s.mtsmForm r) = _
  rw [State.mtsmForm, State.privileged_eq_ok hl, State.keepsQ_eq_ok hk]
  rfl

end

/-- SSM, RSM and MTSM at level 0. -/
theorem maskWrites (s : State) (iv : BitVec 10) (t r : BitVec 5) (img mask gr : Dword) (hp : Plain s) (hl : s.priv = 0#2)
    (hm : mask = 0x000000000C0000FF#64) (hg : gr = s.readGr r)
    (hi : img = ((iv.extractLsb' 8 2).zeroExtend 64 <<< 26) ||| (iv.extractLsb' 0 8).zeroExtend 64) :
    (s.flag Psw.Q = true ∨ iv.getLsbD 3 = false →
      Completes (.ssm iv t) s { s.writeGr t (s.psw &&& mask) with psw := s.psw ||| img } false) ∧
    (s.flag Psw.Q = false → iv.getLsbD 3 = true → exec (.ssm iv t) s = .refused .settingQ) ∧
    (s.flag Psw.Q = false ∨ iv.getLsbD 3 = false →
      Completes (.rsm iv t) s { s.writeGr t (s.psw &&& mask) with psw := s.psw &&& ~~~img } false) ∧
    (s.flag Psw.Q = true → iv.getLsbD 3 = true →
      Completes (.rsm iv t) s ({ s.writeGr t (s.psw &&& mask) with psw := s.psw &&& ~~~img }.loseInterruptionState) false) ∧
    (s.flag Psw.Q = gr.getMsbD 60 → Completes (.mtsm r) s { s with psw := (s.psw &&& ~~~mask) ||| (gr &&& mask) } false) ∧
    (s.flag Psw.Q = true → gr.getMsbD 60 = false →
      Completes (.mtsm r) s ({ s with psw := (s.psw &&& ~~~mask) ||| (gr &&& mask) }.loseInterruptionState) false) ∧
    (s.flag Psw.Q = false → gr.getMsbD 60 = true → exec (.mtsm r) s = .refused .settingQ) := by
  obtain rfl : mask = Psw.systemMask := hm.trans Psw.systemMask_eq.symm
  obtain rfl : img = maskImage iv := hi
  subst hg
  have within := maskImage_and_systemMask iv
  have image := bitAt_maskImage_q iv
  have old : (s.writeGr t (s.psw &&& Psw.systemMask)).flag Psw.Q = s.flag Psw.Q := by simp [State.flag]
  have set_q : bitAt (s.psw ||| maskImage iv) Psw.Q = (s.flag Psw.Q || iv.getLsbD 3) := by
    rw [← image]
    simp [bitAt, State.flag]
  have clear_q : bitAt (s.psw &&& ~~~(maskImage iv)) Psw.Q = (s.flag Psw.Q && !iv.getLsbD 3) := by
    rw [← image]
    simp [bitAt, State.flag, Psw.Q]
  refine ⟨fun allowed => ?ssm, fun clear names => ?ssmRefused, fun kept => ?rsm, fun live names => ?rsmLost, fun kept => ?mtsm,
    fun live clears => ?mtsmLost, fun clear sets => ?mtsmRefused⟩
  case ssm =>
    have done := completes_ssm (t := t) hp hl allowed
    rw [State.setMask_kept _ _ (by rw [old, set_q]; cases s.flag Psw.Q <;> simp)] at done
    simpa only [State.writeGr_psw, replace_or within] using done
  case ssmRefused =>
    show complete s (s.ssmForm iv t) = _
    rw [State.ssmForm, State.privileged_eq_ok hl, State.keepsQ_eq_error clear (image.trans names)]
    rfl
  case rsm =>
    have done := completes_rsm (iv := iv) (t := t) hp hl
    rw [State.setMask_kept _ _ (by rw [old, clear_q]; obtain h | h := kept <;> rw [h] <;> cases s.flag Psw.Q <;> simp)] at done
    simpa only [State.writeGr_psw, replace_and_not within] using done
  case rsmLost =>
    have done := completes_rsm (iv := iv) (t := t) hp hl
    rw [State.setMask_lost _ _ (old.trans live) (by rw [clear_q, names]; simp)] at done
    simpa only [State.writeGr_psw, replace_and_not within] using done
  case mtsm =>
    have done := completes_mtsm (r := r) hp hl (by
      show _ ∨ (s.readGr r).getMsbD 60 = false
      rw [← kept]
      cases s.flag Psw.Q <;> simp)
    rwa [State.setMask_kept _ _ (by
      show _ ∨ (s.readGr r).getMsbD 60 = true
      rw [← kept]
      cases s.flag Psw.Q <;> simp)] at done
  case mtsmLost =>
    have done := completes_mtsm (r := r) hp hl (.inl live)
    rwa [State.setMask_lost _ _ live clears] at done
  case mtsmRefused =>
    show complete s (s.mtsmForm r) = _
    rw [State.mtsmForm, State.privileged_eq_ok hl, State.keepsQ_eq_error clear sets]
    rfl

/-- BREAK traps always, DIAG is refused at level 0, SYNC and SYNCDMA only complete. -/
theorem otherSystemControl (s : State) (im13 : BitVec 13) (im5 : BitVec 5) (im26 : BitVec 26) :
    Traps (.brk im13 im5) s .breakInstruction .instr ∧ (s.priv = 0#2 → exec (.diag im26) s = .refused .diagnose) ∧
    (Plain s → Completes .sync s s false ∧ Completes .syncdma s s false) := by
  refine ⟨rfl, fun hl => ?_, fun hp => ⟨completes_of_done hp rfl rfl rfl rfl rfl, completes_of_done hp rfl rfl rfl rfl rfl⟩⟩
  show execDiag im26 s = _
  rw [execDiag, State.privileged_eq_ok hl]
  rfl

/-- Settles O47: the replaced mask adds or drops just the named bits, and Q is cleared but never set. -/
theorem systemMask : Obligations.SystemMask := by
  unfold Obligations.SystemMask
  exact ⟨maskWrites, otherSystemControl⟩

end Sys2Proof.Machine
end

section
/-! SUPPORT. Which TLB entries the hardware's own removals leave, and how the two windows of R275 open, stay and end, for O60. -/

namespace Sys2Proof.Machine

/-! ### The entries that stay -/

/-- No removal of its TLB names the entry's page, or a translation on it is relied upon. -/
def Stays (now : List Removal) (i : Bool) (kept : Option (BitVec 96)) (e : TlbEntry) : Prop :=
  (∀ x ∈ now, x.instruction = i → e.covers x.gva = false) ∨ ∃ g, kept = some g ∧ e.covers g = true

section
variable {now : List Removal} {i : Bool} {kept : Option (BitVec 96)} {tlb : List TlbEntry} {e : TlbEntry} {g : BitVec 96}

theorem stays_iff :
    (!(now.any fun r => r.instruction == i && e.covers r.gva) || kept.any e.covers) = true ↔ Stays now i kept e := by
  have unnamed : (!(now.any fun r => r.instruction == i && e.covers r.gva)) = true ↔ ∀ x ∈ now, x.instruction = i → e.covers x.gva = false := by
    simp
  have relied : kept.any e.covers = true ↔ ∃ g, kept = some g ∧ e.covers g = true := by
    cases kept <;> simp
  rw [Bool.or_eq_true, unnamed, relied, Stays]

theorem mem_removeEntries_iff : e ∈ removeEntries now i kept tlb ↔ e ∈ tlb ∧ Stays now i kept e := by
  rw [removeEntries, List.mem_filter, stays_iff]

/-- The first entry that covers an address, if it stays, is still the first one. -/
theorem tlbLookup_removeEntries_of_stays (hf : tlbLookup tlb g = some e) (hs : Stays now i kept e) :
    tlbLookup (removeEntries now i kept tlb) g = some e := by
  obtain ⟨covers, before, after, rfl, first⟩ := List.find?_eq_some_iff_append.1 hf
  refine List.find?_eq_some_iff_append.2 ⟨covers, removeEntries now i kept before, removeEntries now i kept after, ?_,
    fun f hm => first f ((removeEntries_sublist ..).subset hm)⟩
  rw [removeEntries, List.filter_append, List.filter_cons, if_pos (stays_iff.2 hs)]
  rfl

theorem tlbLookup_removeEntries_of_none (hf : tlbLookup tlb g = none) : tlbLookup (removeEntries now i kept tlb) g = none :=
  List.find?_eq_none.2 fun f hm => List.find?_eq_none.1 hf f ((removeEntries_sublist ..).subset hm)

end

/-- An entry that covers an address has its page bits at every coarser grain. -/
theorem TlbEntry.ushiftRight_of_covers {e : TlbEntry} {g : BitVec 96} {k : Nat} (h : e.covers g = true) (hk : pageBits e.size ≤ k) :
    e.gva >>> k = g >>> k := by
  obtain ⟨j, rfl⟩ := Nat.exists_eq_add_of_le hk
  rw [BitVec.shiftRight_add, BitVec.shiftRight_add, eq_of_beq h]

theorem overlaps_of_covers {e f : TlbEntry} {g : BitVec 96} (he : e.covers g = true) (hf : f.covers g = true) :
    overlaps e.gva e.size f = true :=
  beq_iff_eq.2 ((e.ushiftRight_of_covers he (Nat.le_max_left ..)).trans (f.ushiftRight_of_covers hf (Nat.le_max_right ..)).symm)

/-- In a TLB without overlap one entry at most covers an address. -/
theorem eq_of_covers {tlb : List TlbEntry} (h : TlbOk tlb) {e f : TlbEntry} {g : BitVec 96} (he : e ∈ tlb) (hf : f ∈ tlb)
    (ge : e.covers g = true) (gf : f.covers g = true) : e = f := by
  by_contra hne
  have apart : tlb.Pairwise fun a b => ¬(a.covers g = true ∧ b.covers g = true) :=
    h.1.imp fun {a b} clear ⟨ga, gb⟩ => Bool.false_ne_true (clear.symm.trans (overlaps_of_covers ga gb))
  have symm : Std.Symm fun a b : TlbEntry => ¬(a.covers g = true ∧ b.covers g = true) := ⟨fun _ _ hn hc => hn hc.symm⟩
  exact apart.forall he hf hne ⟨ge, gf⟩

/-- The removed translation of an address leaves it without one. -/
theorem tlbLookup_removeEntries_of_removed {now : List Removal} {i : Bool} {kept : Option (BitVec 96)} {tlb : List TlbEntry} {e : TlbEntry}
    {g : BitVec 96} (h : TlbOk tlb) (hf : tlbLookup tlb g = some e) (hr : ¬Stays now i kept e) :
    tlbLookup (removeEntries now i kept tlb) g = none := by
  refine List.find?_eq_none.2 fun f hm gf => hr ?_
  obtain ⟨mem, stays⟩ := mem_removeEntries_iff.1 hm
  have covers : e.covers g = true := List.find?_some (p := (TlbEntry.covers · g)) hf
  rwa [eq_of_covers h (List.mem_of_find?_eq_some hf) mem covers gf]

theorem passTime_removals (s : State) (now : List Removal) (hn : now = s.removals.headD []) :
    s.passTime = { s with itlb := s.passTime.itlb, dtlb := s.passTime.dtlb, removals := s.removals.tail, relied := s.passTime.relied } ∧
    (s.removals = [] → s.passTime.itlb = s.itlb ∧ s.passTime.dtlb = s.dtlb) ∧
    (∀ e, e ∈ s.passTime.itlb ↔ e ∈ s.itlb ∧ Stays now true s.keptCode e) ∧
    (∀ e, e ∈ s.passTime.dtlb ↔ e ∈ s.dtlb ∧ Stays now false s.keptData e) ∧
    (∀ (g : BitVec 96) (e : TlbEntry), tlbLookup s.dtlb g = some e → Stays now false s.keptData e →
      tlbLookup s.passTime.dtlb g = some e) ∧
    (∀ g : BitVec 96, tlbLookup s.dtlb g = none → tlbLookup s.passTime.dtlb g = none) ∧
    (∀ (g : BitVec 96) (e : TlbEntry) (x : Removal), TlbOk s.dtlb → tlbLookup s.dtlb g = some e → x ∈ now → x.instruction = false →
      e.covers x.gva = true → (∀ k, s.keptData = some k → e.covers k = false) → tlbLookup s.passTime.dtlb g = none) := by
  subst hn
  refine ⟨rfl, fun empty => ?_, fun e => mem_removeEntries_iff, fun e => mem_removeEntries_iff,
    fun g e found stays => tlbLookup_removeEntries_of_stays found stays, fun g missing => tlbLookup_removeEntries_of_none missing,
    fun g e x ok found mem data named unrelied => tlbLookup_removeEntries_of_removed ok found ?_⟩
  · rw [passTime_quiet empty]
    exact ⟨rfl, rfl⟩
  · rintro (unnamed | ⟨k, kept, covers⟩)
    · exact absurd named (by simp [unnamed x mem data])
    · exact absurd covers (by simp [unrelied k kept])

theorem passTime_relied (s : State) (g : BitVec 96) :
    (s.keptData = some g ↔ s.relied.data = some g ∧ s.keepsData g = true) ∧
    (s.keptCode = some g ↔ s.relied.code = some g ∧ s.keepsCode g = true) ∧ s.passTime.relied.data = s.keptData ∧
    s.passTime.relied.code = if s.opensCode then some s.here else s.keptCode :=
  ⟨Option.filter_eq_some_iff, Option.filter_eq_some_iff, rfl, rfl⟩

/-! ### What an interruption leaves relied upon -/

theorem toNat_low32 (x : Dword) : (low32 x).toNat = x.toNat % 2 ^ 32 := by
  rw [low32, BitVec.toNat_and]
  exact Nat.and_two_pow_sub_one_eq_mod x.toNat 32

theorem low32_ushiftRight (x : Dword) : low32 x >>> 32 = 0#64 := by
  rw [← BitVec.toNat_inj, BitVec.toNat_ushiftRight, toNat_low32, Nat.shiftRight_eq_div_pow]
  exact Nat.div_eq_of_lt (Nat.mod_lt _ (by decide))

theorem low32_low (x : Dword) : (low32 x).extractLsb' 0 32 = x.extractLsb' 0 32 := by
  rw [← BitVec.toNat_inj, toNat_extractLsb'_eq_div_mod, toNat_extractLsb'_eq_div_mod, toNat_low32]
  omega

/-- The address that the parameters name is the global virtual address of the reference. -/
theorem gvaUpper_append (s : State) (space offset : Dword) :
    gvaUpper (s.flag Psw.W) space offset ++ offset.extractLsb' 0 32 = s.gva space offset := by
  cases h : s.flag Psw.W
  · simp [gvaUpper, State.gva, State.usedOffset, h, low32_ushiftRight, low32_low]
  · simp [gvaUpper, State.gva, State.usedOffset, h]

theorem takeInterruption_relied (s : State) (n : Interruption) (a : DataAddr) (p : Params) :
    ((18 ≤ n.number ∧ n.number ≤ 22) ∨ (26 ≤ n.number ∧ n.number ≤ 28) →
      (s.flag Psw.D = true → (takeInterruption s n (.data a)).relied.data = some (s.gva a.space a.offset)) ∧
      (takeInterruption s n (.virtualData a)).relied.data = some (s.gva a.space a.offset)) ∧
    (n.number ≤ 5 ∨ (23 ≤ n.number ∧ n.number ≤ 25) ∨ n.number = 29 → (takeInterruption s n p).relied.data = none) := by
  have relied (q : Params) : (takeInterruption s n q).relied.data =
      if n.losesTranslations then none else if n.leavesTranslation then (s.namedAddress q).or s.relied.data else s.relied.data := rfl
  refine ⟨fun range => ?_, fun range => ?_⟩
  · have keeps : n.losesTranslations = false := by
      simp only [Interruption.losesTranslations, Bool.or_eq_false_iff, decide_eq_false_iff_not, beq_eq_false_iff_ne]
      omega
    have leaves : n.leavesTranslation = true := by simpa [Interruption.leavesTranslation] using range
    simp only [relied, keeps, leaves, State.namedAddress, gvaUpper_append]
    exact ⟨fun virtual => by simp [virtual], rfl⟩
  · have loses : n.losesTranslations = true := by
      simp only [Interruption.losesTranslations, Bool.or_eq_true, decide_eq_true_eq, beq_iff_eq]
      omega
    rw [relied, loses]
    rfl

/-! ### How long a translation is relied upon -/

section
variable {s : State} {g : BitVec 96} {w : Word} {i : Instr} {x : Reject}

theorem State.refersOnlyTo_of_none (hv : s.virtualReference i = none) : s.refersOnlyTo g i = true := by
  rw [State.refersOnlyTo, hv]

theorem State.refersToNothing_of_none (hd : decode w = .ok i) (hv : s.virtualReference i = none) : s.refersToNothing w = true := by
  rw [State.refersToNothing, hd]
  exact congrArg Option.isNone hv

theorem State.keepsData_of_nullified (hc : s.coming = .nullified w) (hd : decode w = .ok i) :
    s.keepsData g = (!(s.flag Psw.C) && s.refersOnlyTo g i) := by
  simp only [State.keepsData, hc, hd]

theorem State.keepsCode_of_nullified (hc : s.coming = .nullified w) : s.keepsCode g = (s.onCodePage g && s.refersToNothing w) := by
  simp only [State.keepsCode, hc]

theorem State.keepsData_of_executed (hc : s.coming = .executed w) (hd : decode w = .ok i) :
    s.keepsData g = (!(s.flag Psw.C) && ((!(isMemoryManagement w) || isLpa i) && !(isDiagnose w) && s.refersOnlyTo g i)) := by
  simp only [State.keepsData, hc, hd]

theorem State.keepsData_of_rejected (hc : s.coming = .executed w) (hd : decode w = .error x) :
    s.keepsData g = (!(s.flag Psw.C) && !(isUndefined w)) := by
  simp only [State.keepsData, hc, hd]

theorem State.keepsCode_of_executed (hc : s.coming = .executed w) :
    s.keepsCode g =
      (s.onCodePage g && (s.refersToNothing w && !(isMemoryManagement w) && !(isDiagnose w) && !(isUndefined w) && s.quietAhead)) := by
  simp only [State.keepsCode, hc]

theorem isUndefined_of_ok (hd : decode w = .ok i) : isUndefined w = false := by rw [isUndefined, hd]

theorem isUndefined_of_error (hd : decode w = .error x) (hx : x ≠ .fpReserved) : isUndefined w = true := by
  cases x with
  | fpReserved => exact absurd rfl hx
  | illegal | fpUndefined | pmUndefined => rw [isUndefined, hd]

theorem isUndefined_of_reserved (hd : decode w = .error .fpReserved) : isUndefined w = false := by rw [isUndefined, hd]

theorem isMemoryManagement_eq_false (h : majorOpcode w ≠ 0x01) : isMemoryManagement w = false := beq_eq_false_iff_ne.2 h

theorem isDiagnose_eq_false (h : majorOpcode w ≠ 0x05) : isDiagnose w = false := beq_eq_false_iff_ne.2 h

theorem rejectClass_of_decode (hd : decode w = .error x) : rejectClass w = x := by
  unfold decode at hd
  split at hd
  · split at hd
    · cases hd
    · exact Except.error.inj hd
  · exact Except.error.inj hd

/-- The reserved sub-opcodes are those of the major opcodes 0C and 0E. -/
theorem majorOpcode_of_reserved (h : rejectClass w = .fpReserved) : majorOpcode w = 0x0C ∨ majorOpcode w = 0x0E := by
  simp only [rejectClass] at h
  split at h
  next hop => exact .inl (congrArg BitVec.toNat hop.1)
  next =>
    split at h
    next hop => exact .inr (congrArg BitVec.toNat hop)
    next =>
      split at h
      · cases h
      · split at h <;> cases h

end

theorem keeps_nullified (s : State) (g : BitVec 96) (w : Word) (i : Instr) (hc : s.coming = .nullified w) (hd : decode w = .ok i)
    (hv : s.virtualReference i = none) :
    (s.flag Psw.C = false → s.keepsData g = true) ∧ (s.flag Psw.C = true → onPage s.itlb g s.here = true → s.keepsCode g = true) := by
  refine ⟨fun absolute => ?_, fun virtual page => ?_⟩
  · rw [State.keepsData_of_nullified hc hd, absolute, State.refersOnlyTo_of_none hv]
    rfl
  · rw [State.keepsCode_of_nullified hc, State.onCodePage, virtual, page, State.refersToNothing_of_none hd hv]
    rfl

theorem keeps_rejected (s : State) (g : BitVec 96) (w : Word) (x : Reject) (hc : s.coming = .executed w) (hd : decode w = .error x) :
    (x ≠ .fpReserved → s.keepsData g = false ∧ s.keepsCode g = false) ∧
    (x = .fpReserved → (s.flag Psw.C = false → s.keepsData g = true) ∧
      (s.flag Psw.C = true → s.quietAhead = true → onPage s.itlb g s.here = true → s.keepsCode g = true)) := by
  rw [State.keepsData_of_rejected hc hd, State.keepsCode_of_executed hc]
  refine ⟨fun undefined => ?_, ?_⟩
  · rw [isUndefined_of_error hd undefined]
    simp
  · rintro rfl
    have opcode := majorOpcode_of_reserved (rejectClass_of_decode hd)
    have nothing : s.refersToNothing w = true := by rw [State.refersToNothing, hd]
    rw [isUndefined_of_reserved hd, isMemoryManagement_eq_false (by omega), isDiagnose_eq_false (by omega), nothing]
    exact ⟨fun absolute => by rw [absolute]; rfl, fun virtual quiet page => by rw [State.onCodePage, virtual, quiet, page]; rfl⟩

/-! ### Branches -/

theorem branchWords :
    isBranch (encode .clrbts) = false ∧ isBranch (encode .pushnom) = false ∧ (∀ r, isBranch (encode (.pushbts r)) = false) ∧
    (∀ iv, isBranch (encode (.popbts iv)) = false) ∧ (∀ x t n, isBranch (encode (.blr x t n)) = true) := by
  refine ⟨by decide, by decide, by decide, by decide +kernel, fun x t n => ?_⟩
  have opcode : majorOpcode (encode (.blr x t n)) = 0x3A :=
    congrArg BitVec.toNat (Laws.high 26 25 _ _ (Laws.high 25 24 _ _ (Laws.high 24 10 _ _ (Laws.high 10 5 _ _ (Laws.high 5 0 _ _
      (v := 0x3A#6) rfl rfl) rfl) rfl) rfl) rfl)
  have last : (encode (.blr x t n)).getLsbD 0 = false := by
    rw [encode, BitVec.getLsbD_append]
    rfl
  rw [isBranch, isStackWord, opcode, last, Bool.and_false]
  rfl

/-! ### O60 -/

theorem keeps_executed (s : State) (g : BitVec 96) (w : Word) (i : Instr) (hc : s.coming = .executed w) (hd : decode w = .ok i) :
    (s.flag Psw.C = false → majorOpcode w ≠ 0x01 → majorOpcode w ≠ 0x05 → s.virtualReference i = none → s.keepsData g = true) ∧
    (∀ (b x t : BitVec 5) (sr : BitVec 2) (m : BitVec 1), s.flag Psw.C = false → i = .lpa b x sr m t →
      majorOpcode w = 0x01 → s.keepsData g = true) ∧
    (s.flag Psw.C = true → majorOpcode w ≠ 0x01 → majorOpcode w ≠ 0x05 → s.virtualReference i = none → s.quietAhead = true →
      onPage s.itlb g s.here = true → s.keepsCode g = true) ∧
    (∀ (iv : BitVec 10) (t : BitVec 5) (k : Nat) (q : BitVec 96) (e : TlbEntry), i = .rsm iv t → s.flag Psw.Q = true → iv.getLsbD 3 = true →
      s.flag Psw.C = true → s.quietAhead = true → s.relied.between = some (k, q) → 7 ≤ k → s.fetchEntry = some e → e.covers q = true →
      8 ≤ (s.wordOnPage e).1 → s.opensCode = true) := by
  rw [State.keepsData_of_executed hc hd, State.keepsCode_of_executed hc]
  refine ⟨fun absolute management diagnose noData => ?_, fun b x t sr m absolute lpa management => ?_,
    fun virtual management diagnose noData quiet page => ?_, fun iv t k q e rsm live names virtual quiet between far entry covers place => ?_⟩
  · rw [absolute, isMemoryManagement_eq_false management, isDiagnose_eq_false diagnose, State.refersOnlyTo_of_none noData]
    rfl
  · subst lpa
    have noData : s.virtualReference (.lpa b x sr m t) = none := by simp [State.virtualReference, State.dataReference]
    rw [absolute, isDiagnose_eq_false (by omega), State.refersOnlyTo_of_none noData]
    simp [isLpa]
  · rw [State.onCodePage, virtual, page, State.refersToNothing_of_none hd noData, isMemoryManagement_eq_false management,
      isDiagnose_eq_false diagnose, isUndefined_of_ok hd, quiet]
    rfl
  · subst rsm
    have clears : s.comingQ = some false := by
      simp only [State.comingQ, hc, hd, State.leavesQ, bitAt_maskImage_q, names]
      simp
    simp only [State.opensCode, virtual, live, clears, quiet, entry, between, far, covers, place]
    rfl

/-- Settles O60: the removals are a filter of the TLBs, and each window's condition is read off the coming word. -/
theorem hardwareRemovals : Obligations.HardwareRemovals := by
  unfold Obligations.HardwareRemovals
  exact ⟨passTime_removals, passTime_relied, takeInterruption_relied, keeps_nullified, keeps_rejected, branchWords, keeps_executed⟩

end Sys2Proof.Machine
end

section
/-! SUPPORT. The order of a datum's bytes in memory, and that the canonical form is one, for O18. -/

namespace Sys2Proof.Machine

/-! ### Numbers as bytes (20_memory.md R141) -/

theorem ofBytes_append_singleton (bs : List Byte) (b : Byte) : ofBytes (bs ++ [b]) = ofBytes bs * 256 + b.toNat := by
  simp [ofBytes]

theorem ofBytes_one (b : Byte) : ofBytes [b] = b.toNat := by simp [ofBytes]

theorem ofBytes_two (b0 b1 : Byte) : ofBytes [b0, b1] = (b0 ++ b1).toNat := by
  simp only [ofBytes, List.foldl_cons, List.foldl_nil, toNat_append_eq_add]
  omega

theorem ofBytes_four (b0 b1 b2 b3 : Byte) : ofBytes [b0, b1, b2, b3] = (b0 ++ b1 ++ b2 ++ b3).toNat := by
  simp only [ofBytes, List.foldl_cons, List.foldl_nil, toNat_append_eq_add]
  omega

theorem ofBytes_eight (b0 b1 b2 b3 b4 b5 b6 b7 : Byte) :
    ofBytes [b0, b1, b2, b3, b4, b5, b6, b7] = (b0 ++ b1 ++ b2 ++ b3 ++ b4 ++ b5 ++ b6 ++ b7).toNat := by
  simp only [ofBytes, List.foldl_cons, List.foldl_nil, toNat_append_eq_add]
  omega

@[simp] theorem length_toBytes (n v : Nat) : (toBytes n v).length = n := by simp [toBytes]

@[simp] theorem length_swapIf (little : Bool) (bs : List Byte) : (swapIf little bs).length = bs.length := by
  cases little <;> simp [swapIf]

@[simp] theorem swapIf_swapIf (little : Bool) (bs : List Byte) : swapIf little (swapIf little bs) = bs := by
  cases little <;> simp [swapIf]

/-- The last byte is the least significant one. -/
theorem toBytes_succ (n v : Nat) : toBytes (n + 1) v = toBytes n (v >>> 8) ++ [BitVec.ofNat 8 v] := by
  have shifted : ∀ k ∈ List.range n,
      BitVec.ofNat 8 (v >>> (8 * (n + 1 - 1 - k))) = BitVec.ofNat 8 ((v >>> 8) >>> (8 * (n - 1 - k))) := by
    intro k hk
    rw [← Nat.shiftRight_add, show 8 * (n + 1 - 1 - k) = 8 + 8 * (n - 1 - k) by have := List.mem_range.1 hk; omega]
  simp only [toBytes, List.range_succ, List.map_append, List.map_congr_left shifted]
  simp

theorem ofBytes_toBytes (n v : Nat) : ofBytes (toBytes n v) = v % 2 ^ (8 * n) := by
  induction n generalizing v with
  | zero => rw [Nat.mul_zero, Nat.pow_zero, Nat.mod_one]; rfl
  | succ n ih =>
    rw [toBytes_succ, ofBytes_append_singleton, ih, BitVec.toNat_ofNat, Nat.shiftRight_eq_div_pow,
      show 8 * (n + 1) = 8 + 8 * n by omega, Nat.pow_add, Nat.mod_mul]
    omega

/-- In either byte order the k-th byte stored is the one at distance k. -/
theorem getElem_swapIf_toBytes (little : Bool) (n k : Nat) (v : Dword) (hk : k < (swapIf little (toBytes n v.toNat)).length) :
    (swapIf little (toBytes n v.toNat))[k] = byteOf little n k v := by
  have : k < n := by simpa using hk
  cases little
  · simp [swapIf, toBytes, byteOf]
  · simp [swapIf, toBytes, byteOf, show n - 1 - (n - 1 - k) = k by omega]

/-! ### Loads and stores (20_memory.md R143) -/

namespace Memory

theorem bytes_length (m : Memory) (a n : Nat) : (m.bytes a n).length = n := by simp [bytes]

section
variable (m : Memory) (little : Bool) (a : Nat)

theorem load_eq_setWidth {n w : Nat} {x : BitVec w} (h : ofBytes (swapIf little (m.bytes a n)) = x.toNat) :
    m.load little a n = x.setWidth 64 := by
  rw [load, h, BitVec.ofNat_toNat]

theorem load_one : m.load little a 1 = (m.get a).zeroExtend 64 :=
  load_eq_setWidth m little a (by cases little <;> exact ofBytes_one _)

theorem load_two_big : m.load false a 2 = (m.get a ++ m.get (a + 1)).zeroExtend 64 :=
  load_eq_setWidth m false a (ofBytes_two ..)

theorem load_two_little : m.load true a 2 = (m.get (a + 1) ++ m.get a).zeroExtend 64 :=
  load_eq_setWidth m true a (ofBytes_two ..)

theorem load_four_big : m.load false a 4 = (m.get a ++ m.get (a + 1) ++ m.get (a + 2) ++ m.get (a + 3)).zeroExtend 64 :=
  load_eq_setWidth m false a (ofBytes_four ..)

theorem load_four_little : m.load true a 4 = (m.get (a + 3) ++ m.get (a + 2) ++ m.get (a + 1) ++ m.get a).zeroExtend 64 :=
  load_eq_setWidth m true a (ofBytes_four ..)

theorem load_eight_big : m.load false a 8 =
    m.get a ++ m.get (a + 1) ++ m.get (a + 2) ++ m.get (a + 3) ++ m.get (a + 4) ++ m.get (a + 5) ++ m.get (a + 6) ++ m.get (a + 7) :=
  (load_eq_setWidth m false a (n := 8) (ofBytes_eight ..)).trans (BitVec.setWidth_eq _)

theorem load_eight_little : m.load true a 8 =
    m.get (a + 7) ++ m.get (a + 6) ++ m.get (a + 5) ++ m.get (a + 4) ++ m.get (a + 3) ++ m.get (a + 2) ++ m.get (a + 1) ++ m.get a :=
  (load_eq_setWidth m true a (n := 8) (ofBytes_eight ..)).trans (BitVec.setWidth_eq _)

end

section
variable {m : Memory} {a n : Nat} (h : m.wf = true) (little : Bool) (v : Dword)
include h

theorem get_store_inside {k : Nat} (hk : k < n) : (m.store little a n v).get (a + k) = byteOf little n k v := by
  have inside : a ≤ a + k ∧ a + k - a < (swapIf little (toBytes n v.toNat)).length := by simp; omega
  rw [store, get_setBytes _ _ _ _ h, dif_pos inside, getElem_swapIf_toBytes, Nat.add_sub_cancel_left]

theorem get_store_outside {b : Nat} (hb : b < a ∨ a + n ≤ b) : (m.store little a n v).get b = m.get b :=
  get_setBytes_outside _ m a b h (by simpa using hb)

theorem bytes_store : (m.store little a n v).bytes a n = swapIf little (toBytes n v.toNat) := by
  refine List.ext_getElem (by simp [bytes_length]) fun k hk _ => ?_
  have : k < n := by simpa [bytes_length] using hk
  rw [getElem_swapIf_toBytes, ← get_store_inside (a := a) h little v this]
  simp [bytes]

theorem load_store : (m.store little a n v).load little a n = BitVec.ofNat 64 (v.toNat % 2 ^ (8 * n)) := by
  rw [load, bytes_store h, swapIf_swapIf, ofBytes_toBytes]

end

/-! ### One list for each memory -/

/-- The first listed address of a canonical memory reads as nothing in one whose addresses are all above it. -/
theorem get_head_ne {a b : Nat} {u v : Byte} {t t' : Memory} {lo : Option Nat} (h : wfFrom lo ((a, u) :: t) = true)
    (h' : wfFrom (some b) t' = true) (hab : a < b) : get ((a, u) :: t) a ≠ get ((b, v) :: t') a := by
  simp only [wfFrom, Bool.and_eq_true, decide_eq_true_eq] at h
  obtain ⟨⟨-, listed⟩, -⟩ := h
  simpa [get, Nat.ne_of_lt hab, get_below t' b a h' hab.le] using listed

theorem eq_of_get_eq_from : ∀ (m m' : Memory) (lo lo' : Option Nat), wfFrom lo m = true → wfFrom lo' m' = true →
    (∀ a, m.get a = m'.get a) → m = m'
  | [], [], _, _, _, _, _ => rfl
  | [], (b, v) :: t', _, _, _, h', heq => by
    simp only [wfFrom, Bool.and_eq_true, decide_eq_true_eq] at h'
    have := heq b
    simp_all [get, unlistedByte]
  | (a, u) :: t, [], _, _, h, _, heq => by
    simp only [wfFrom, Bool.and_eq_true, decide_eq_true_eq] at h
    have := heq a
    simp_all [get, unlistedByte]
  | (a, u) :: t, (b, v) :: t', _, _, h, h', heq => by
    have ht : wfFrom (some a) t = true := (Bool.and_eq_true .. ▸ h).2
    have ht' : wfFrom (some b) t' = true := (Bool.and_eq_true .. ▸ h').2
    obtain hab | rfl | hba := Nat.lt_trichotomy a b
    · exact absurd (heq a) (get_head_ne h ht' hab)
    · have values : u = v := by simpa [get] using heq a
      have tails : ∀ c, get t c = get t' c := by
        intro c
        obtain hc | hc := Nat.lt_or_ge a c
        · simpa [get, Nat.ne_of_gt hc] using heq c
        · rw [get_below t a c ht hc, get_below t' a c ht' hc]
      rw [values, eq_of_get_eq_from t t' _ _ ht ht' tails]
    · exact absurd (heq b).symm (get_head_ne h' ht hba)

end Memory

/-- Settles O18: the bytes are those of `toBytes` in order, and a canonical memory is the list of what it reads as. -/
theorem memoryBytes : Obligations.MemoryBytes := by
  unfold Obligations.MemoryBytes
  refine ⟨fun m a => ⟨m.load_one _ a, m.load_one _ a, m.load_two_big a, m.load_two_little a, m.load_four_big a, m.load_four_little a,
    m.load_eight_big a, m.load_eight_little a⟩, fun m little a n v h _ => ?_, fun m m' h h' => Memory.eq_of_get_eq_from m m' none none h h'⟩
  exact ⟨fun k => Memory.get_store_inside h little v, fun b => Memory.get_store_outside h little v, Memory.load_store h little v⟩

end Sys2Proof.Machine
end

section
/-! SUPPORT. Absolute addresses and their regions, and the choice of a space register, for O19 and O21. -/

namespace Sys2Proof.Machine

/-! ### Regions (20_memory.md R165) -/

/-- Bits a to b are the number `c`: the bits from a on, `m` of them, lie between `c` and `c + 1` in units of the `k` bits after b. -/
theorem field_eq_iff_range (x : Dword) {a b : Nat} {v : BitVec (b - a + 1)} (k m c : Nat)
    (h : k = 63 - b ∧ m = 64 - a ∧ a ≤ b ∧ b < 64 ∧ v.toNat = c) :
    field x a b = v ↔ c * 2 ^ k ≤ x.toNat % 2 ^ m ∧ x.toNat % 2 ^ m < (c + 1) * 2 ^ k := by
  obtain ⟨rfl, rfl, hab, hb, rfl⟩ := h
  have width : 64 - a = (63 - b) + (b - a + 1) := by omega
  rw [← BitVec.toNat_inj, field, toNat_extractLsb'_eq_div_mod, show 64 - 1 - b = 63 - b by omega, width, Nat.pow_add 2 (63 - b) (b - a + 1),
    ← Nat.mod_mul_right_div_self, Nat.div_eq_iff (Nat.two_pow_pos _), Nat.add_mul]
  have := Nat.two_pow_pos (63 - b)
  omega

theorem field_top (x : Dword) : field x 0 3 = 0xF#4 ↔ 0xF * 2 ^ 60 ≤ x.toNat := by
  rw [field_eq_iff_range x 60 64 0xF (by decide)]
  have := x.isLt
  omega

theorem field_pdc (x : Dword) : field x 0 7 = 0xF0#8 ↔ 0xF0 * 2 ^ 56 ≤ x.toNat ∧ x.toNat < 0xF1 * 2 ^ 56 := by
  rw [field_eq_iff_range x 56 64 0xF0 (by decide), Nat.mod_eq_of_lt x.isLt]

theorem field_narrow_top (x : Dword) : field x 32 35 = 0xF#4 ↔ 0xF0000000 ≤ (low32 x).toNat := by
  rw [field_eq_iff_range x 28 32 0xF (by decide), toNat_low32]
  omega

theorem field_narrow_pdc (x : Dword) : field x 32 39 = 0xF0#8 ↔ 0xF0000000 ≤ (low32 x).toNat ∧ (low32 x).toNat < 0xF1000000 := by
  rw [field_eq_iff_range x 24 32 0xF0 (by decide), toNat_low32]
  omega

theorem field_wide_top (x : Dword) : field x 2 5 = 0xF#4 ↔ 0xF * 2 ^ 58 ≤ x.toNat % 2 ^ 62 := by
  rw [field_eq_iff_range x 58 62 0xF (by decide)]
  omega

theorem field_wide_pdc (x : Dword) : field x 2 9 = 0xF0#8 ↔ 0xF0 * 2 ^ 54 ≤ x.toNat % 2 ^ 62 ∧ x.toNat % 2 ^ 62 < 0xF1 * 2 ^ 54 :=
  field_eq_iff_range x 54 62 0xF0 (by decide)

theorem region_eq_memory_iff (pa : Dword) : region pa = .memory ↔ pa.toNat < 0xF * 2 ^ 60 := by
  rw [← not_le, ← field_top, region]
  split
  · simp_all
  · split <;> simp_all

theorem region_eq_pdc_iff (pa : Dword) : region pa = .pdc ↔ 0xF0 * 2 ^ 56 ≤ pa.toNat ∧ pa.toNat < 0xF1 * 2 ^ 56 := by
  have top := field_top pa
  rw [← field_pdc, region]
  have within : field pa 0 7 = 0xF0#8 → field pa 0 3 = 0xF#4 := fun h => top.2 ((field_pdc pa).1 h).1
  by_cases h : field pa 0 3 = 0xF#4
  · by_cases h' : field pa 0 7 = 0xF0#8 <;> simp [h, h']
  · simp [h, mt within h]

theorem region_eq_io_iff (pa : Dword) : region pa = .io ↔ 0xF1 * 2 ^ 56 ≤ pa.toNat := by
  have memory := region_eq_memory_iff pa
  have pdc := region_eq_pdc_iff pa
  cases h : region pa
  all_goals simp_all
  omega

/-! ### A doubleword in two parts -/

theorem eq_append_low62 (x : Dword) : x = x.extractLsb' 62 2 ++ x.extractLsb' 0 62 := by
  have := x.isLt
  apply BitVec.eq_of_toNat_eq
  rw [toNat_append_eq_add, toNat_extractLsb'_eq_div_mod, toNat_extractLsb'_eq_div_mod]
  omega

theorem low32_eq_append (x : Dword) : low32 x = 0#32 ++ x.extractLsb' 0 32 := by
  apply BitVec.eq_of_toNat_eq
  rw [toNat_low32, toNat_append_eq_add, toNat_extractLsb'_eq_div_mod]
  simp

/-- The low word under 32 ones. -/
theorem ones_or_low32 (x : Dword) : 0xFFFFFFFF00000000#64 ||| low32 x = 0xFFFFFFFF#32 ++ x.extractLsb' 0 32 := by
  rw [low32_eq_append, show 0xFFFFFFFF00000000#64 = 0xFFFFFFFF#32 ++ 0#32 by decide, BitVec.or_append, BitVec.or_zero, BitVec.zero_or]

theorem and_low62_eq_append (x : Dword) : x &&& 0x3FFFFFFFFFFFFFFF#64 = 0#2 ++ x.extractLsb' 0 62 := by
  apply BitVec.eq_of_toNat_eq
  rw [BitVec.toNat_and, show (0x3FFFFFFFFFFFFFFF#64).toNat = 2 ^ 62 - 1 from rfl, Nat.and_two_pow_sub_one_eq_mod, toNat_append_eq_add,
    toNat_extractLsb'_eq_div_mod]
  simp

theorem or_high2_eq_append (x : Dword) : x ||| 0xC000000000000000#64 = 3#2 ++ x.extractLsb' 0 62 := by
  conv_lhs => rw [eq_append_low62 x]
  rw [show 0xC000000000000000#64 = 3#2 ++ 0#62 by decide, BitVec.or_append, BitVec.or_zero, show 3#2 = BitVec.allOnes 2 by decide, BitVec.or_allOnes]

/-! ### Absolute addresses (20_memory.md R161, R162) -/

section
variable {s : State} (o : Dword)

theorem State.absolute_narrow_pdc (hw : s.flag Psw.W = false) (hpdc : field o 32 39 = 0xF0#8) :
    s.absolute o = 0xF0#8 ++ 0#32 ++ o.extractLsb' 0 24 := by
  rw [State.absolute, hw, if_neg Bool.false_ne_true, if_pos hpdc]
  rfl

theorem State.absolute_narrow (hw : s.flag Psw.W = false) (hpdc : field o 32 39 ≠ 0xF0#8) :
    s.absolute o = (if field o 32 35 = 0xF#4 then 0xFFFFFFFF#32 else 0#32) ++ o.extractLsb' 0 32 := by
  rw [State.absolute, hw, if_neg Bool.false_ne_true, if_neg hpdc]
  rfl

theorem State.absolute_wide_pdc (hw : s.flag Psw.W = true) (hpdc : field o 2 9 = 0xF0#8) :
    s.absolute o = 0xF0#8 ++ 0#2 ++ o.extractLsb' 0 54 := by
  rw [State.absolute, hw, if_pos rfl, if_pos hpdc]
  rfl

theorem State.absolute_wide (hw : s.flag Psw.W = true) (hpdc : field o 2 9 ≠ 0xF0#8) :
    s.absolute o = (if field o 2 5 = 0xF#4 then 3#2 else 0#2) ++ o.extractLsb' 0 62 := by
  rw [State.absolute, hw, if_pos rfl, if_neg hpdc]
  rfl

/-- With PSW[W] = 0 an address below the PDC and I/O addresses is its low word, in memory. -/
theorem State.absolute_narrow_memory (hw : s.flag Psw.W = false) (ho : (low32 o).toNat < 0xF0000000) :
    s.absolute o = low32 o ∧ region (s.absolute o) = .memory := by
  have noPdc : field o 32 39 ≠ 0xF0#8 := by rw [ne_eq, field_narrow_pdc]; omega
  have noTop : field o 32 35 ≠ 0xF#4 := by rw [ne_eq, field_narrow_top]; omega
  have address : s.absolute o = low32 o := by rw [State.absolute_narrow o hw noPdc, if_neg noTop, low32_eq_append]
  rw [address, region_eq_memory_iff]
  exact ⟨rfl, by omega⟩

theorem State.absolute_narrow_io (hw : s.flag Psw.W = false) (ho : 0xF1000000 ≤ (low32 o).toNat) :
    s.absolute o = 0xFFFFFFFF00000000#64 ||| low32 o ∧ region (s.absolute o) = .io := by
  have noPdc : field o 32 39 ≠ 0xF0#8 := by rw [ne_eq, field_narrow_pdc]; omega
  have top : field o 32 35 = 0xF#4 := by rw [field_narrow_top]; omega
  rw [region_eq_io_iff, State.absolute_narrow o hw noPdc, if_pos top]
  refine ⟨(ones_or_low32 o).symm, ?_⟩
  rw [toNat_append_eq_add, toNat_extractLsb'_eq_div_mod, BitVec.toNat_ofNat]
  rw [toNat_low32] at ho
  omega

theorem State.region_absolute_narrow_pdc (hw : s.flag Psw.W = false) (low : 0xF0000000 ≤ (low32 o).toNat)
    (high : (low32 o).toNat < 0xF1000000) : region (s.absolute o) = .pdc := by
  rw [region_eq_pdc_iff, State.absolute_narrow_pdc o hw ((field_narrow_pdc o).2 ⟨low, high⟩)]
  simp only [toNat_append_eq_add, toNat_extractLsb'_eq_div_mod, BitVec.toNat_ofNat]
  omega

theorem State.absolute_wide_memory (hw : s.flag Psw.W = true) (ho : field o 2 5 ≠ 0xF#4) :
    s.absolute o = o &&& 0x3FFFFFFFFFFFFFFF#64 ∧ region (s.absolute o) = .memory := by
  rw [ne_eq, field_wide_top] at ho
  have noPdc : field o 2 9 ≠ 0xF0#8 := by rw [ne_eq, field_wide_pdc]; omega
  have noTop : field o 2 5 ≠ 0xF#4 := by rwa [ne_eq, field_wide_top]
  rw [region_eq_memory_iff, State.absolute_wide o hw noPdc, if_neg noTop]
  refine ⟨(and_low62_eq_append o).symm, ?_⟩
  rw [toNat_append_eq_add, toNat_extractLsb'_eq_div_mod, BitVec.toNat_ofNat]
  omega

theorem State.absolute_wide_io (hw : s.flag Psw.W = true) (ho : field o 2 5 = 0xF#4) (hpdc : field o 2 9 ≠ 0xF0#8) :
    s.absolute o = o ||| 0xC000000000000000#64 ∧ region (s.absolute o) = .io := by
  rw [region_eq_io_iff, State.absolute_wide o hw hpdc, if_pos ho]
  refine ⟨(or_high2_eq_append o).symm, ?_⟩
  rw [field_wide_top] at ho
  rw [ne_eq, field_wide_pdc] at hpdc
  rw [toNat_append_eq_add, toNat_extractLsb'_eq_div_mod, BitVec.toNat_ofNat]
  omega

theorem State.region_absolute_wide_pdc (hw : s.flag Psw.W = true) (ho : field o 2 9 = 0xF0#8) : region (s.absolute o) = .pdc := by
  rw [region_eq_pdc_iff, State.absolute_wide_pdc o hw ho]
  simp only [toNat_append_eq_add, toNat_extractLsb'_eq_div_mod, BitVec.toNat_ofNat]
  omega

end

/-- Settles O19: the physical address in two parts for each width, and the region by its number. -/
theorem absoluteAddresses : Obligations.AbsoluteAddresses := fun _ o =>
  ⟨State.absolute_narrow_memory o, State.absolute_narrow_io o, State.region_absolute_narrow_pdc o, State.absolute_wide_memory o,
    State.region_absolute_wide_pdc o, State.absolute_wide_io o⟩

/-! ### The choice of a space register (20_memory.md R157) -/

section
variable {s : State} (sr : BitVec 2) (base : Dword) (long : Bool)

theorem State.spaceSelect_implicit (h : sr = 0#2 ∨ (long = true ∧ s.flag Psw.W = true)) :
    s.spaceSelect sr base long = .ok (s.implicitSpace base) := by
  obtain rfl | ⟨rfl, wide⟩ := h
  · rfl
  · simp [State.spaceSelect, wide]

theorem State.spaceSelect_explicit (hsr : sr ≠ 0#2) (h : (long && s.flag Psw.W) = false) :
    s.spaceSelect sr base long =
      if s.flag Psw.W && s.priv != 0#2 then .error (.refuse .explicitSpace) else .ok (s.readSr (0#1 ++ sr)) := by
  simp only [State.spaceSelect, hsr, h]
  rfl

theorem State.implicitSpace_narrow (hw : s.flag Psw.W = false) : s.implicitSpace base = s.readSr (1#1 ++ base.extractLsb' 30 2) := by
  rw [State.implicitSpace, hw]
  rfl

theorem State.implicitSpace_wide (hw : s.flag Psw.W = true) : s.implicitSpace base = s.readSr (1#1 ++ base.extractLsb' 62 2) := by
  rw [State.implicitSpace, hw]
  rfl

/-! ### Absolute references (20_memory.md R150) -/

/-- An absolute reference selects no space (R157 d). -/
theorem Ea.resolve_absolute (e : Ea) (hd : s.flag Psw.D = false) : e.resolve s = .ok ⟨0, e.offset, e.base⟩ := by
  rw [Ea.resolve, hd]
  rfl

theorem State.check_absolute (hd : s.flag Psw.D = false) (k : RefKind) (a : DataAddr) (n : Nat) :
    s.check k a n = s.checkAbsolute a.offset n := by
  rw [State.check, hd]
  rfl

theorem State.check_virtual (hd : s.flag Psw.D = true) (k : RefKind) (a : DataAddr) (n : Nat) :
    s.check k a n = s.checkVirtual k a n := by
  rw [State.check, hd]
  rfl

end

/-- Settles O21: implicit and explicit selection, and an absolute reference, whose check reads the offset alone. -/
theorem spaceSelection : Obligations.SpaceSelection := by
  intro s sr base long
  refine ⟨fun narrow => ?_, fun wide => ?_, fun wide => ?_, fun explicit narrow => ?_, fun explicit wide level => ?_,
    fun explicit wide level => ?_, fun e a absolute resolved => ?_, fun e absolute => ⟨_, e.resolve_absolute absolute⟩,
    fun k w w' base' offset n absolute => ?_⟩
  · rw [State.spaceSelect_implicit _ _ _ (.inl rfl), State.implicitSpace_narrow _ narrow]
  · rw [State.spaceSelect_implicit _ _ _ (.inl rfl), State.implicitSpace_wide _ wide]
  · rw [State.spaceSelect_implicit _ _ _ (.inr ⟨rfl, wide⟩), State.implicitSpace_wide _ wide]
  · rw [State.spaceSelect_explicit _ _ _ explicit (by simp [narrow]), narrow]
    rfl
  · rw [State.spaceSelect_explicit _ _ _ explicit rfl, wide, level]
    rfl
  · rw [State.spaceSelect_explicit _ _ _ explicit rfl, if_pos (by simpa [wide] using level)]
  · rw [e.resolve_absolute absolute] at resolved
    cases resolved
    rfl
  · rw [State.check_absolute absolute, State.check_absolute absolute]

end Sys2Proof.Machine
end

section
/-! SUPPORT. The checks of a data reference one after the other, the instructions that take them, and the place of the reference, for O22 and O24. -/

namespace Sys2Proof.Machine

/-! ### The accesses of a reference (21_translation.md R252) -/

/-- A load reads, a store writes, a semaphore does both. -/
theorem forall_accesses_iff (k : RefKind) (f : AccessKind → Bool) :
    (∀ x ∈ k.accesses, f x = true) ↔ (k = .store ∨ f .read = true) ∧ (k = .load ∨ f .write = true) := by
  cases k <;> simp [RefKind.accesses]

theorem any_not_accesses_iff (k : RefKind) (f : AccessKind → Bool) :
    (k.accesses.any fun x => !(f x)) = true ↔ ¬∀ x ∈ k.accesses, f x = true := by
  simp

/-! ### The checks in their order (21_translation.md R266) -/

section
variable {s : State} (k : RefKind) (d : DataAddr) (n : Nat) (hd : s.flag Psw.D = true)
include hd

theorem State.check_miss (miss : tlbLookup s.dtlb (s.gva d.space d.offset) = none) :
    s.check k d n = .error (.trap .dataTlbMiss (.data d)) := by
  rw [State.check_virtual hd, State.checkVirtual, miss]

variable {e : TlbEntry} (he : tlbLookup s.dtlb (s.gva d.space d.offset) = some e)
include he

theorem State.check_rights (hr : ¬∀ x ∈ k.accesses, rightsOk e.rights x s.priv = true) :
    s.check k d n = .error (.trap .dataMemoryAccessRights (.data d)) := by
  rw [State.check_virtual hd, State.checkVirtual, he]
  exact if_pos ((any_not_accesses_iff k _).2 hr)

variable (hr : ∀ x ∈ k.accesses, rightsOk e.rights x s.priv = true)
include hr

theorem State.check_identifier (hp : ¬∀ x ∈ k.accesses, s.pidOk e.accessId x = true) :
    s.check k d n = .error (.trap .dataMemoryProtectionId (.data d)) := by
  rw [State.check_virtual hd, State.checkVirtual, he]
  exact (if_neg (mt (any_not_accesses_iff k _).1 (not_not.2 hr))).trans (if_pos ((any_not_accesses_iff k _).2 hp))

variable (hp : ∀ x ∈ k.accesses, s.pidOk e.accessId x = true)
include hp

/-- What is left to check of a reference that the page's rights and identifier allow. -/
theorem State.check_permitted :
    s.check k d n =
      if (s.usedOffset d.offset).toNat % n != 0 && k != .semaphore then .error (.trap .unalignedDataReference (.data d))
      else if k != .load && e.b && !(s.flag Psw.X) then .error (.trap .dataMemoryBreak (.data d))
      else if k != .load && !e.d then .error (.trap .tlbDirtyBit (.data d))
      else if e.t then .error (.trap .pageReference (.data d))
      else if region (e.translate (s.usedOffset d.offset)) = .io && !e.u then .error (.refuse .cacheableIoPage)
      else .ok ⟨e.translate (s.usedOffset d.offset), e.u⟩ := by
  rw [State.check_virtual hd, State.checkVirtual, he]
  exact (if_neg (mt (any_not_accesses_iff k _).1 (not_not.2 hr))).trans (if_neg (mt (any_not_accesses_iff k _).1 (not_not.2 hp)))

theorem State.check_unaligned (hk : k ≠ .semaphore) (ha : (s.usedOffset d.offset).toNat % n ≠ 0) :
    s.check k d n = .error (.trap .unalignedDataReference (.data d)) := by
  rw [State.check_permitted k d n hd he hr hp, if_pos (by simp [hk, ha])]

variable (ha : k = .semaphore ∨ (s.usedOffset d.offset).toNat % n = 0)
include ha

/-- What is left to check of an aligned reference, and of a semaphore. -/
theorem State.check_aligned :
    s.check k d n =
      if k != .load && e.b && !(s.flag Psw.X) then .error (.trap .dataMemoryBreak (.data d))
      else if k != .load && !e.d then .error (.trap .tlbDirtyBit (.data d))
      else if e.t then .error (.trap .pageReference (.data d))
      else if region (e.translate (s.usedOffset d.offset)) = .io && !e.u then .error (.refuse .cacheableIoPage)
      else .ok ⟨e.translate (s.usedOffset d.offset), e.u⟩ := by
  have aligned : ¬((s.usedOffset d.offset).toNat % n != 0 && k != .semaphore) = true := by
    rcases ha with rfl | ha
    · simp
    · simp [ha]
  rw [State.check_permitted k d n hd he hr hp, if_neg aligned]

theorem State.check_break (hk : k ≠ .load) (hb : e.b = true) (hx : s.flag Psw.X = false) :
    s.check k d n = .error (.trap .dataMemoryBreak (.data d)) := by
  rw [State.check_aligned k d n hd he hr hp ha, if_pos (by simp [hk, hb, hx])]

variable (hb : k = .load ∨ e.b = false ∨ s.flag Psw.X = true)
include hb

/-- What is left to check of a reference that no data memory break stops. -/
theorem State.check_unbroken :
    s.check k d n =
      if k != .load && !e.d then .error (.trap .tlbDirtyBit (.data d))
      else if e.t then .error (.trap .pageReference (.data d))
      else if region (e.translate (s.usedOffset d.offset)) = .io && !e.u then .error (.refuse .cacheableIoPage)
      else .ok ⟨e.translate (s.usedOffset d.offset), e.u⟩ := by
  have unbroken : ¬(k != .load && e.b && !(s.flag Psw.X)) = true := by
    rcases hb with rfl | hb | hb
    · simp
    · simp [hb]
    · simp [hb]
  rw [State.check_aligned k d n hd he hr hp ha, if_neg unbroken]

theorem State.check_dirty (hk : k ≠ .load) (hdirty : e.d = false) : s.check k d n = .error (.trap .tlbDirtyBit (.data d)) := by
  rw [State.check_unbroken k d n hd he hr hp ha hb, if_pos (by simp [hk, hdirty])]

variable (hdirty : k = .load ∨ e.d = true)
include hdirty

/-- What is left to check of a reference to a page that may be written, and of a load. -/
theorem State.check_writable :
    s.check k d n =
      if e.t then .error (.trap .pageReference (.data d))
      else if region (e.translate (s.usedOffset d.offset)) = .io && !e.u then .error (.refuse .cacheableIoPage)
      else .ok ⟨e.translate (s.usedOffset d.offset), e.u⟩ := by
  have writable : ¬(k != .load && !e.d) = true := by
    rcases hdirty with rfl | hdirty
    · simp
    · simp [hdirty]
  rw [State.check_unbroken k d n hd he hr hp ha hb, if_neg writable]

theorem State.check_reference (ht : e.t = true) : s.check k d n = .error (.trap .pageReference (.data d)) := by
  rw [State.check_writable k d n hd he hr hp ha hb hdirty, if_pos ht]

variable (ht : e.t = false)
include ht

theorem State.check_ioPage (hio : region (e.translate (s.usedOffset d.offset)) = .io) (hu : e.u = false) :
    s.check k d n = .error (.refuse .cacheableIoPage) := by
  rw [State.check_writable k d n hd he hr hp ha hb hdirty, if_neg (by simp [ht]), if_pos (by simp [hio, hu])]

theorem State.check_place (hio : region (e.translate (s.usedOffset d.offset)) ≠ .io ∨ e.u = true) :
    s.check k d n = .ok ⟨e.translate (s.usedOffset d.offset), e.u⟩ := by
  have outside : ¬(region (e.translate (s.usedOffset d.offset)) = .io && !e.u) = true := by simpa using imp_iff_not_or.2 hio
  rw [State.check_writable k d n hd he hr hp ha hb hdirty, if_neg (by simp [ht]), if_neg outside]

end

/-- Settles O24: the last of the checks, and the absolute address. -/
theorem dataReferencePlace : Obligations.DataReferencePlace := by
  intro s k d n
  refine ⟨fun absolute aligned => ?_, fun absolute unaligned => ?_, fun e hd he permitted aligned ht hk memory => ?_⟩
  · rw [State.check_absolute absolute, State.checkAbsolute, if_neg (by simpa using aligned)]
  · rw [State.check_absolute absolute, State.checkAbsolute, if_pos (by simpa using unaligned)]
  · exact State.check_place k d n hd he (fun x hx => (permitted x hx).1) (fun x hx => (permitted x hx).2) (.inr aligned)
      (hk.imp_right And.right) (hk.imp_right And.left) ht (.inl (by rw [memory]; decide))

/-! ### The instructions that take the check -/

section
variable {i : Instr} {s : State} {n : Nat} {e : Ea} {cc : BitVec 2} {t : BitVec 5} {d : DataAddr}

/-- The interruption of the check is the instruction's. -/
theorem traps_of_takesCheck {k : RefKind} {j : Interruption} {q : Params} (h : TakesCheck k n s e i) (hd : e.resolve s = .ok d)
    (hc : s.check k d n = .error (.trap j q)) : Traps i s j q := (h d hd).1 j q hc

/-- A semaphore stops as its place does: with t = 0 too it is no prefetch. -/
theorem semaphoreForm_stop {z : Stop} (hd : e.resolve s = .ok d) (hz : s.semaphorePlace d n = .error z) :
    s.semaphoreForm e cc n t = .error z := by
  have clears : (t = 0#5 && Config.ldcGr0IsPrefetch) = false := Bool.and_false _
  simp [State.semaphoreForm, clears, hd, hz, bind, Except.bind]

theorem semaphorePlace_unaligned (ha : (s.usedOffset d.offset).toNat % 16 ≠ 0) :
    s.semaphorePlace d n = .error (.refuse .unalignedSemaphore) := by
  rw [State.semaphorePlace, if_pos (by simpa using ha)]
  rfl

theorem semaphorePlace_stop {z : Stop} (ha : (s.usedOffset d.offset).toNat % 16 = 0) (hz : s.check .semaphore d n = .error z) :
    s.semaphorePlace d n = .error z := by
  rw [State.semaphorePlace, if_neg (by simpa using ha), hz]
  rfl

theorem takesSemaphoreCheck_semaphoreForm (hx : exec i s = complete s (s.semaphoreForm e cc n t)) : TakesSemaphoreCheck n s e i := by
  intro d hd
  have stops {z : Stop} (hz : s.semaphorePlace d n = .error z) : exec i s = complete s (.error z) := by
    rw [hx, semaphoreForm_stop hd hz]
  exact ⟨fun unaligned => stops (semaphorePlace_unaligned unaligned), fun aligned =>
    ⟨fun j q hz => stops (semaphorePlace_stop aligned hz), fun x hz => stops (semaphorePlace_stop aligned hz)⟩⟩

end

/-! ### O22 -/

/-- Settles O22: the checks in their order, the instructions that take them, and for LDW and STW each interruption by name. -/
theorem dataReferenceTraps : Obligations.DataReferenceTraps := by
  unfold Obligations.DataReferenceTraps
  refine ⟨fun s k d n r p off x hd hoff hx => ?order, fun s b r x im5 sr cc im14 im11a im10a a m u iv => ⟨fun hr => ?loads, ?stores⟩,
    fun s b r im5 sr a m cc d hd hres => ?words⟩
  case order =>
    obtain rfl : x = fun i => .error (.trap i (.data d)) := funext hx
    subst hoff
    refine ⟨State.check_miss k d n hd, fun e he hr hp => ?_⟩
    rw [← forall_accesses_iff k fun a => rightsOk e.rights a s.priv] at hr
    rw [← forall_accesses_iff k fun a => s.pidOk e.accessId a] at hp
    rw [hr, hp]
    exact ⟨State.check_rights k d n hd he, State.check_identifier k d n hd he, State.check_unaligned k d n hd he,
      fun r p a => ⟨State.check_break k d n hd he r p a, fun b => ⟨State.check_dirty k d n hd he r p a b, fun w =>
        ⟨State.check_reference k d n hd he r p a b w, State.check_ioPage k d n hd he r p a b w, State.check_place k d n hd he r p a b w⟩⟩⟩⟩
  case loads =>
    have load {i : Instr} {n : Nat} {e : Ea} (hx : exec i s = complete s (s.loadOrPrefetch e n r)) : TakesCheck .load n s e i :=
      takesCheck_loadOrPrefetch hr hx
    exact ⟨load rfl, load rfl, load rfl, load rfl, load rfl, load rfl, load rfl, load rfl, load rfl, load rfl, load rfl, load rfl,
      load rfl, load rfl⟩
  case stores =>
    have store {i : Instr} {n : Nat} {e : Ea} (hx : exec i s = complete s (s.storeForm e n r)) : TakesCheck .store n s e i :=
      takesCheck_storeForm hx
    exact ⟨store rfl, store rfl, store rfl, store rfl, store rfl, store rfl, store rfl, store rfl, store rfl, store rfl,
      takesCheck_storeBytesForm rfl, takesCheck_storeBytesForm rfl, takesSemaphoreCheck_semaphoreForm rfl,
      takesSemaphoreCheck_semaphoreForm rfl, takesSemaphoreCheck_semaphoreForm rfl, takesSemaphoreCheck_semaphoreForm rfl⟩
  case words =>
    have load {j : Interruption} (hr : r ≠ 0#5) (h : s.check .load d 4 = .error (.trap j (.data d))) :
        Traps (.ldwShort b im5 sr a cc m r) s j (.data d) := traps_of_takesCheck (takesCheck_loadOrPrefetch hr rfl) hres h
    have store {j : Interruption} (h : s.check .store d 4 = .error (.trap j (.data d))) :
        Traps (.stwShort b r sr a cc m im5) s j (.data d) := traps_of_takesCheck (takesCheck_storeForm rfl) hres h
    refine ⟨fun miss => ⟨fun hr => load hr (State.check_miss _ d 4 hd miss), store (State.check_miss _ d 4 hd miss)⟩, fun e he => ?_⟩
    have allows {f : AccessKind → Bool} {a : AccessKind} (h : f a = true) : ∀ x ∈ [a], f x = true := List.forall_mem_singleton.2 h
    have denies {f : AccessKind → Bool} {a : AccessKind} (h : f a = false) : ¬∀ x ∈ [a], f x = true :=
      mt List.forall_mem_singleton.1 (ne_true_of_eq_false h)
    refine ⟨fun h hr => load hr (State.check_rights _ d 4 hd he (denies h)), fun h => store (State.check_rights _ d 4 hd he (denies h)),
      fun r p hr => load hr (State.check_identifier _ d 4 hd he (allows r) (denies p)),
      fun r p => store (State.check_identifier _ d 4 hd he (allows r) (denies p)),
      fun r p odd hr => load hr (State.check_unaligned _ d 4 hd he (allows r) (allows p) (by decide) odd),
      fun r p odd => store (State.check_unaligned _ d 4 hd he (allows r) (allows p) (by decide) odd),
      fun r p aligned => ⟨fun hb hx => store (State.check_break _ d 4 hd he (allows r) (allows p) (.inr aligned) (by decide) hb hx),
        fun unbroken => ?_⟩,
      fun r p aligned ht hr => load hr (State.check_reference _ d 4 hd he (allows r) (allows p) (.inr aligned) (.inl rfl) (.inl rfl) ht)⟩
    have unbroken : RefKind.store = .load ∨ e.b = false ∨ s.flag Psw.X = true := .inr (by simpa [imp_iff_not_or] using unbroken)
    exact ⟨fun hdirty => store (State.check_dirty _ d 4 hd he (allows r) (allows p) (.inr aligned) unbroken (by decide) hdirty),
      fun hdirty ht => store (State.check_reference _ d 4 hd he (allows r) (allows p) (.inr aligned) unbroken (.inr hdirty) ht)⟩

end Sys2Proof.Machine
end

section
/-! SUPPORT. Where the current instruction is fetched and what stops the fetch, for O5. -/

namespace Sys2Proof.Machine

/-! ### The place (20_memory.md R159 to R162; 21_translation.md R265) -/

section
variable {s : State}

theorem State.usedOffset_narrow (hw : s.flag Psw.W = false) (o : Dword) : s.usedOffset o = low32 o := by
  rw [State.usedOffset, hw]
  rfl

theorem State.usedOffset_wide (hw : s.flag Psw.W = true) (o : Dword) : s.usedOffset o = o := by
  rw [State.usedOffset, hw]
  rfl

theorem State.fetchPlace_absolute (hc : s.flag Psw.C = false) : s.fetchPlace = .ok (s.absolute (s.usedOffset s.fetchOffset)) := by
  rw [State.fetchPlace, hc]
  rfl

theorem State.fetchPlace_miss (hc : s.flag Psw.C = true) (miss : s.fetchEntry = none) :
    s.fetchPlace = .error (.trap .instructionTlbMiss .none) := by
  rw [State.fetchPlace, hc, miss]
  rfl

theorem State.fetchPlace_hit (hc : s.flag Psw.C = true) {e : TlbEntry} (hit : s.fetchEntry = some e) :
    s.fetchPlace =
      if rightsOk e.rights .execute s.priv && s.pidOk e.accessId .execute then .ok (e.translate (s.usedOffset s.fetchOffset))
      else .error (.trap .instructionMemoryProtection .none) := by
  rw [State.fetchPlace, hc, hit]
  rfl

/-- With PSW[W] = 0 the low word of an offset below the PDC and I/O addresses is its physical address. -/
theorem State.fetchPlace_narrow (hc : s.flag Psw.C = false) (hw : s.flag Psw.W = false) (low : (low32 s.fetchOffset).toNat < 0xF0000000) :
    s.fetchPlace = .ok (low32 s.fetchOffset) ∧ region (low32 s.fetchOffset) = .memory := by
  have again : low32 (low32 s.fetchOffset) = low32 s.fetchOffset := by rw [low32, low32, BitVec.and_assoc, BitVec.and_self]
  obtain ⟨address, memory⟩ := State.absolute_narrow_memory (low32 s.fetchOffset) hw (by rwa [again])
  rw [again] at address
  rw [State.fetchPlace_absolute hc, State.usedOffset_narrow hw, address]
  exact ⟨rfl, address ▸ memory⟩

theorem State.fetchPlace_wide (hc : s.flag Psw.C = false) (hw : s.flag Psw.W = true) (inside : field s.fetchOffset 2 5 ≠ 0xF#4) :
    s.fetchPlace = .ok (s.fetchOffset &&& 0x3FFFFFFFFFFFFFFF#64) ∧ region (s.fetchOffset &&& 0x3FFFFFFFFFFFFFFF#64) = .memory := by
  obtain ⟨address, memory⟩ := State.absolute_wide_memory s.fetchOffset hw inside
  rw [State.fetchPlace_absolute hc, State.usedOffset_wide hw, address]
  exact ⟨rfl, address ▸ memory⟩

/-! ### The word (20_memory.md R144) -/

/-- Fetched from memory, the word is the four bytes in the byte order of PSW[E]. -/
theorem State.fetch_memory {pa : Dword} {a : Nat} (place : s.fetchPlace = .ok pa ∧ region pa = .memory) (ha : a = pa.toNat) :
    s.fetch = .ok (if s.flag Psw.E then s.mem.get (a + 3) ++ s.mem.get (a + 2) ++ s.mem.get (a + 1) ++ s.mem.get a
      else s.mem.get a ++ s.mem.get (a + 1) ++ s.mem.get (a + 2) ++ s.mem.get (a + 3)) := by
  have loaded : s.fetch = .ok ((s.mem.load (s.flag Psw.E) a 4).extractLsb' 0 32) := by
    rw [State.fetch, place.1]
    show (do let v ← s.loadAt pa 4; .ok (v.extractLsb' 0 32)) = _
    rw [loadAt_memory place.2, ha]
    rfl
  have low (w : Word) : (w.zeroExtend 64).extractLsb' 0 32 = w := by
    have := w.isLt
    apply BitVec.eq_of_toNat_eq
    rw [toNat_extractLsb'_eq_div_mod, BitVec.toNat_setWidth]
    omega
  rw [loaded]
  split
  next little => rw [little, Memory.load_four_little, low]
  next big => rw [Bool.not_eq_true] at big; rw [big, Memory.load_four_big, low]

theorem State.fetch_stop {z : Stop} (place : s.fetchPlace = .error z) : s.fetch = .error z := by
  rw [State.fetch, place]
  rfl

/-- With nothing pending and PSW[N] = 0 a step is what the fetch stops with. -/
theorem stepNow_unfetched {n : Interruption} {p : Params} (quiet : pendingInterruption s = none) (hn : s.flag Psw.N = false)
    (place : s.fetchPlace = .error (.trap n p)) : stepNow s = .next (takeInterruption s n p) := by
  rw [stepNow, quiet, hn]
  show executeCurrent s = _
  rw [executeCurrent, State.fetch_stop place]
  rfl

end

/-- Settles O5: the place in each mode of addressing, the four bytes there, and the stops of the place. -/
theorem fetch : Obligations.Fetch := by
  rintro s a big little rfl rfl
  refine ⟨fun hc hw low ha => ?_, fun hc hw inside ha => ?_, fun r hs quiet hn hc => ⟨fun miss => ?_, fun e hit denied => ?_⟩,
    fun hc e hit rights identifier memory ha => ?_⟩
  · exact State.fetch_memory (State.fetchPlace_narrow hc hw (ha ▸ low)) ha
  · refine State.fetch_memory (State.fetchPlace_wide hc hw inside) ?_
    rw [ha, and_low62_eq_append, toNat_append_eq_add]
    simp
  · subst hs
    exact stepNow_unfetched quiet hn (State.fetchPlace_miss hc miss)
  · subst hs
    exact stepNow_unfetched quiet hn ((State.fetchPlace_hit hc hit).trans (if_neg (ne_true_of_eq_false denied)))
  · refine State.fetch_memory ⟨(State.fetchPlace_hit hc hit).trans (if_pos ?_), memory⟩ ha
    rw [rights, identifier]
    rfl

end Sys2Proof.Machine
end

section
/-! SUPPORT. How an instruction that stores completes, and what LDCW and LDCD complete with, for O28. -/

namespace Sys2Proof.Machine

/-- A register and memory are written independently. -/
theorem State.writeGr_mem_comm (s : State) (m : Memory) (r : BitVec 5) (v : Dword) :
    State.writeGr { s with mem := m } r v = { s.writeGr r v with mem := m } := by
  unfold State.writeGr
  split <;> rfl

/-- An instruction whose meaning is `done` with `n` bytes of `v` stored in memory. -/
theorem stores_of_done {i : Instr} {s d : State} {n pa : Nat} {v : Dword} (hp : Plain s) (hm : s.mem.wf = true)
    (hx : exec i s = complete s (done s { d with mem := s.mem.store (s.flag Psw.E) pa n v } false))
    (hb : d.iaoqBack = s.iaoqBack) (hs : d.iasqBack = s.iasqBack) (hr : d.rctr = s.rctr) (hi : d.itmr = s.itmr) :
    Stores i s d n pa v := by
  obtain ⟨t, next, ended, asIn, requests, psw⟩ := completes_of_done hp hx hb hs hr hi
  have memory : t.mem = s.mem.store (s.flag Psw.E) pa n v := congrArg State.mem asIn
  refine ⟨t, next, ended, memory ▸ asIn, requests, psw, fun k hk => ?_, fun b hb => ?_⟩
  · rw [memory, Memory.get_store_inside hm _ _ hk]
  · rw [memory, Memory.get_store_outside hm _ _ hb]

section
variable {i : Instr} {s noted : State} {e : Ea} {cc hint : BitVec 2} {t : BitVec 5} {n pa : Nat} {d : DataAddr} {p : Place}
  (hhint : hint = (if cc = 1#2 then 1#2 else 0#2)) (aligned : (s.usedOffset d.offset).toNat % 16 = 0)
  (memory : region p.pa = .memory) (cacheable : p.uncacheable = false) (hpa : p.pa.toNat = pa)
  (hx : exec i s = complete s (s.semaphoreForm e cc n t)) (hr : e.resolve s = .ok d) (hc : s.check .semaphore d n = .ok p)
include hhint aligned memory cacheable hpa hx hr hc

theorem semaphore_stores (hp : Plain s) (hm : s.mem.wf = true)
    (hnoted : noted = (if s.semaphores.lookup pa = none then { s with semaphores := (pa, hint) :: s.semaphores } else s))
    (same : ∀ h, s.semaphores.lookup pa = some h → h = hint) :
    Stores i s ((e.writeBack noted).writeGr t (s.mem.load (s.flag Psw.E) pa n)) n pa 0 := by
  obtain rfl : hint = semaphoreHint cc := hhint
  subst hpa
  have state : noted =
      { s with semaphores := if s.semaphores.lookup p.pa.toNat = none then (p.pa.toNat, semaphoreHint cc) :: s.semaphores else s.semaphores } := by
    rw [hnoted]
    split <;> rfl
  have form := (semaphoreForm_memory (t := t) hr aligned memory cacheable hc).2 same
  refine stores_of_done hp hm (hx.trans ?_) (by simp [state]) (by simp [state]) (by simp [state]) (by simp [state])
  rw [form, ← State.writeGr_mem_comm, ← writeBack_mem_comm, state]

theorem semaphore_mixed (mixed : ∃ h, s.semaphores.lookup pa = some h ∧ h ≠ hint) : exec i s = .refused .mixedSemaphoreHints := by
  obtain rfl : hint = semaphoreHint cc := hhint
  subst hpa
  obtain ⟨h, first, other⟩ := mixed
  rw [hx, (semaphoreForm_memory hr aligned memory cacheable hc).1 h first other]
  rfl

end

/-- Settles O28: each form of a semaphore reads and clears with the hint of its first use, and is undefined with another. -/
theorem semaphores : Obligations.Semaphores := by
  intro s b t x im5 sr cc a m u pa d p noted hint hhint hp hm aligned memory cacheable hpa hnoted
  have stores {i : Instr} {e : Ea} {n : Nat} (same : ∀ h, s.semaphores.lookup pa = some h → h = hint)
      (hx : exec i s = complete s (s.semaphoreForm e cc n t)) (hr : e.resolve s = .ok d) (hc : s.check .semaphore d n = .ok p) :
      Stores i s ((e.writeBack noted).writeGr t (s.mem.load (s.flag Psw.E) pa n)) n pa 0 :=
    semaphore_stores hhint aligned memory cacheable hpa hx hr hc hp hm hnoted same
  have refused {i : Instr} {e : Ea} {n : Nat} (mixed : ∃ h, s.semaphores.lookup pa = some h ∧ h ≠ hint)
      (hx : exec i s = complete s (s.semaphoreForm e cc n t)) (hr : e.resolve s = .ok d) (hc : s.check .semaphore d n = .ok p) :
      exec i s = .refused .mixedSemaphoreHints := semaphore_mixed hhint aligned memory cacheable hpa hx hr hc mixed
  exact ⟨fun same => ⟨fun hr => ⟨stores same rfl hr, stores same rfl hr⟩, fun hr => ⟨stores same rfl hr, stores same rfl hr⟩⟩,
    fun mixed => ⟨fun hr => ⟨refused mixed rfl hr, refused mixed rfl hr⟩, fun hr => ⟨refused mixed rfl hr, refused mixed rfl hr⟩⟩⟩

end Sys2Proof.Machine
end

section
/-! SUPPORT. Targets, links and ends of the branches, for O31 to O34. -/

namespace Sys2Proof.Machine

/-! ### Taken branches (42_branch.md R470, R472) -/

/-- A taken branch that leaves `d`: past the end of its space it is undefined. -/
theorem branchesWithin_of_done {i : Instr} {s d : State} {n past : Bool} {o sp : Dword} (hp : Plain s)
    (hx : exec i s = complete s (.ok ⟨d, ⟨true, n, o, sp, past⟩⟩))
    (hb : d.iaoqBack = s.iaoqBack) (hs : d.iasqBack = s.iasqBack) (hr : d.rctr = s.rctr) (hi : d.itmr = s.itmr) :
    BranchesWithin i s d n past o sp := by
  refine ⟨?_, ?_⟩
  · rintro rfl
    exact branchesTo_of_done hp hx hb hs hr hi
  · rintro rfl
    exact hx.trans (finish_past rfl)

/-! ### The end of a space (20_memory.md R159) -/

theorem State.pastEnd_wide {s : State} (hw : s.flag Psw.W = true) (base disp : Dword) (k : Nat) :
    s.pastEnd base disp k = true ↔ (2 : Int) ^ 64 ≤ base.toNat + disp.toInt + k := by
  rw [State.pastEnd, hw, if_pos rfl, decide_eq_true_iff]

theorem State.pastEnd_narrow {s : State} (hw : s.flag Psw.W = false) (base disp : Dword) (k : Nat) :
    s.pastEnd base disp k = true ↔ (2 : Int) ^ 32 ≤ (base.extractLsb' 0 32).toNat + (disp.extractLsb' 0 32).toInt + k := by
  rw [State.pastEnd, hw, if_neg Bool.false_ne_true, decide_eq_true_iff]

/-! ### Relative branches (42_branch.md R475, R481, R482) -/

/-- A link and a push leave the queues and the counters. -/
theorem branchesWithin_link {i : Instr} {s : State} {t : BitVec 5} {disp : Dword} {n : BitVec 1} (hp : Plain s)
    (hd : disp.extractLsb' 0 2 = 0#2) (hx : exec i s = complete s (s.branchLinkForm t disp n)) :
    BranchesWithin i s (s.linkTo t) (isSet n) (s.pastEnd s.iaoqFront disp 8) (s.iaoqFront + disp + 8) s.iasqBack := by
  rw [← relativeTarget_eq s disp hd]
  exact branchesWithin_of_done hp hx (by simp) (by simp) (by simp) (by simp)

/-- Settles O31: the target keeps the level since a displacement is of whole words, and `pastEnd` is the sum it says. -/
theorem relativeBranches : Obligations.RelativeBranches := by
  refine ⟨?_, fun s base disp k => ⟨fun hw => State.pastEnd_wide hw base disp k, fun hw => State.pastEnd_narrow hw base disp k⟩⟩
  rintro s t w1 w3 x w2 n w _ _ hp rfl rfl
  refine ⟨branchesWithin_link hp (low_shift2 _) rfl, branchesWithin_link hp (low_shift2 _) rfl, ?_,
    branchesWithin_link hp (low_shift3 _) rfl⟩
  rw [← relativeTarget_eq s _ (low_shift2 _)]
  exact branchesWithin_of_done (d := (s.linkTo 2#5).pushBts (btsEntry s.link)) hp rfl (by simp) (by simp) (by simp) (by simp)

/-! ### Levels (42_branch.md R477) -/

theorem atLevel_high (o : Dword) (l : BitVec 2) : (atLevel o l).extractLsb' 2 62 = o.extractLsb' 2 62 := by
  rw [atLevel_append]
  apply BitVec.eq_of_toNat_eq
  have := l.isLt
  simp only [toNat_extractLsb'_eq_div_mod, toNat_append_eq_add]
  omega

theorem atLevel_low (o : Dword) (l : BitVec 2) : (atLevel o l).extractLsb' 0 2 = l := by
  rw [atLevel_append]
  apply BitVec.eq_of_toNat_eq
  have := l.isLt
  simp only [toNat_extractLsb'_eq_div_mod, toNat_append_eq_add]
  omega

/-- The level of a base-relative target is the lower of the two, the numerically greater. -/
theorem toNat_lower_level (a b : BitVec 2) : (if a < b then b else a).toNat = max a.toNat b.toNat := by
  split
  next h => exact (max_eq_right (Nat.le_of_lt h)).symm
  next h => exact (max_eq_left (Nat.le_of_not_lt h)).symm

/-! ### Base-relative branches (42_branch.md R483 to R485) -/

section
variable {i : Instr} {s d e : State} {n : BitVec 1} {past : Bool} {o sp sp' : Dword} (hp : Plain s)
  (hx : exec i s = complete s (if s.flag Psw.C then branchTo d n past o sp else branchTo e n past o sp'))
include hp hx

/-- With code translation on the branch goes to the space it selects. -/
theorem branchesWithin_virtual (hc : s.flag Psw.C = true) (hb : d.iaoqBack = s.iaoqBack) (hs : d.iasqBack = s.iasqBack)
    (hr : d.rctr = s.rctr) (hi : d.itmr = s.itmr) : BranchesWithin i s d (isSet n) past o sp := by
  rw [if_pos hc] at hx
  exact branchesWithin_of_done hp hx hb hs hr hi

/-- With code translation off the space is a free value. -/
theorem branchesWithin_absolute (hc : s.flag Psw.C = false) (hb : e.iaoqBack = s.iaoqBack) (hs : e.iasqBack = s.iasqBack)
    (hr : e.rctr = s.rctr) (hi : e.itmr = s.itmr) : BranchesWithin i s e (isSet n) past o sp' := by
  rw [if_neg (ne_true_of_eq_false hc)] at hx
  exact branchesWithin_of_done hp hx hb hs hr hi

end

/-- Settles O32: the target's parts, and each branch with code translation on and off; BVE and BVE,L pass the end of no space. -/
theorem vectoredBranches : Obligations.VectoredBranches := by
  refine ⟨fun s base disp => ⟨atLevel_high _ _, ?level⟩, fun s b x w1 sr w2 n w hp => ⟨?bv, fun hc => ?virtual⟩,
    fun s b w1 sr w2 n w hp hc => ?absolute⟩
  case level => rw [State.baseTarget, atLevel_low, toNat_lower_level]
  case bv => exact branchesWithin_of_done hp rfl rfl rfl rfl rfl
  case virtual =>
    exact ⟨branchesWithin_virtual hp rfl hc rfl rfl rfl rfl,
      branchesWithin_virtual (d := (s.linkTo 31#5).writeSr 0#3 s.iasqBack) hp rfl hc (by simp) (by simp) (by simp) (by simp),
      (branchesWithin_virtual hp rfl hc rfl rfl rfl rfl).1 rfl,
      (branchesWithin_virtual (d := s.popBts) hp rfl hc rfl rfl rfl rfl).1 rfl,
      (branchesWithin_virtual (d := s.linkTo 2#5) hp rfl hc (by simp) (by simp) (by simp) (by simp)).1 rfl,
      (branchesWithin_virtual (d := (s.linkTo 2#5).pushBts (btsEntry s.link)) hp rfl hc (by simp) (by simp) (by simp) (by simp)).1 rfl⟩
  case absolute =>
    exact ⟨branchesWithin_absolute hp rfl hc rfl rfl rfl rfl,
      branchesWithin_absolute (e := ((s.linkTo 31#5).writeSr 0#3 (s.free 1)).drawn 2) hp rfl hc (by simp) (by simp) (by simp) (by simp),
      (branchesWithin_absolute (e := s.drawn 1) hp rfl hc rfl rfl rfl rfl).1 rfl,
      (branchesWithin_absolute (e := s.popBts.drawn 1) hp rfl hc rfl rfl rfl rfl).1 rfl,
      (branchesWithin_absolute (e := (s.linkTo 2#5).drawn 1) hp rfl hc (by simp) (by simp) (by simp) (by simp)).1 rfl,
      (branchesWithin_absolute (e := ((s.linkTo 2#5).pushBts (btsEntry s.link)).drawn 1) hp rfl hc (by simp) (by simp) (by simp)
        (by simp)).1 rfl⟩

/-! ### B,GATE (42_branch.md R481) -/

theorem atLevel_zero (o : Dword) : atLevel o 0#2 = o &&& ~~~3#64 := by
  rw [atLevel, show (0#2).zeroExtend 64 = 0#64 by decide, BitVec.or_zero]

section
variable {s : State}

theorem State.gateLevel_absolute (hc : s.flag Psw.C = false) : s.gateLevel = .ok 0#2 := by
  rw [State.gateLevel, hc]
  rfl

/-- On a gateway page whose type names a higher level, one that is numerically less, the level is that. -/
theorem State.gateLevel_virtual (hc : s.flag Psw.C = true) {e : TlbEntry} (he : s.fetchEntry = some e) :
    s.gateLevel = .ok (if e.rights.extractLsb' 6 1 = 1#1 ∧ (e.rights.extractLsb' 4 2).toNat < s.priv.toNat then e.rights.extractLsb' 4 2
      else s.priv) := by
  have gateway : bitAt (field e.rights 0 2) 0 = true ↔ e.rights.extractLsb' 6 1 = 1#1 := by
    generalize e.rights = rights
    revert rights
    decide
  have level : (field e.rights 0 2).extractLsb' 0 2 = e.rights.extractLsb' 4 2 := by
    generalize e.rights = rights
    revert rights
    decide
  rw [State.gateLevel, hc, he, if_pos rfl]
  dsimp only
  rw [level]
  simp only [Bool.and_eq_true, decide_eq_true_eq, gateway, BitVec.lt_def]

/-- B,GATE to the level `l` that it promotes to. -/
theorem branchesWithin_gate {i : Instr} {t : BitVec 5} {disp : Dword} {n : BitVec 1} {l : BitVec 2} (hp : Plain s)
    (hx : exec i s = complete s (s.gateForm t disp n)) (hB : s.flag Psw.B = false) (hl : s.gateLevel = .ok l) :
    BranchesWithin i s (s.writeGr t ((s.readGr t).extractLsb' 2 62 ++ s.priv)) (isSet n) (s.pastEnd s.iaoqFront disp 8)
      (atLevel (s.iaoqFront + disp + 8) l) s.iasqBack := by
  rw [State.gateForm, if_neg (ne_true_of_eq_false hB), hl, atLevel_append] at hx
  exact branchesWithin_of_done hp hx (by simp) (by simp) (by simp) (by simp)

end

/-- Settles O33: the trap, and the level of the target in each case. -/
theorem gateBranch : Obligations.GateBranch := by
  rintro s t w1 w2 n w _ hp rfl
  refine ⟨fun hB => ?trap, fun hB hc => ?absolute, fun e hB hc he => ⟨fun stays => ?keeps, fun gateway higher => ?promotes⟩⟩
  case trap => exact congrArg (complete s) (if_pos hB)
  case absolute =>
    rw [← atLevel_zero]
    exact branchesWithin_gate hp rfl hB (State.gateLevel_absolute hc)
  case keeps =>
    have level : s.gateLevel = .ok s.priv := by
      rw [State.gateLevel_virtual hc he, if_neg]
      rintro ⟨gateway, higher⟩
      rcases stays with plain | lower
      · rw [plain] at gateway
        exact absurd gateway (by decide)
      · omega
    rw [← relativeTarget_eq s _ (low_shift2 _)]
    exact branchesWithin_gate (i := .bGate t w1 w2 n w) hp rfl hB level
  case promotes =>
    rw [← atLevel_append (s.iaoqFront + _ + 8)]
    exact branchesWithin_gate hp rfl hB ((State.gateLevel_virtual hc he).trans (by rw [if_pos ⟨gateway, higher⟩]))

/-! ### Conditional branches (42_branch.md R478, R490 to R496) -/

/-- The tail's two ends: backward is a negative displacement. -/
theorem branchesWhen_of_tail {i : Instr} {s d : State} {disp : Dword} {n : BitVec 1} {cond : Bool} (hp : Plain s)
    (hd : disp.extractLsb' 0 2 = 0#2) (hx : exec i s = complete s (s.branchTail d disp n cond))
    (hb : d.iaoqBack = s.iaoqBack) (hs : d.iasqBack = s.iasqBack) (hr : d.rctr = s.rctr) (hi : d.itmr = s.itmr) :
    BranchesWhen i s d disp n cond := by
  refine ⟨?taken, ?sequential⟩
  case taken =>
    rintro rfl
    have forward : (if disp.msb then !true else true) = decide (0 ≤ disp.toInt) := by
      rw [BitVec.msb_eq_toInt]
      by_cases h : disp.toInt < 0 <;> simp [h]
      omega
    rw [State.branchTail, forward] at hx
    rw [← relativeTarget_eq s disp hd]
    exact branchesWithin_of_done hp hx hb hs hr hi
  case sequential =>
    rintro rfl
    have backward : (if disp.msb then !false else false) = decide (disp.toInt < 0) := by
      rw [BitVec.msb_eq_toInt]
      by_cases h : disp.toInt < 0 <;> simp [h]
    rw [State.branchTail, backward] at hx
    exact completes_of_done hp hx hb hs hr hi

/-- The bit that BB names, in the low word or the doubleword (R496). -/
theorem toNat_fixedBit (d : BitVec 1) (p : BitVec 5) : (~~~d ++ p).toNat = (if d = 0#1 then 32 else 0) + p.toNat := by
  rw [toNat_append_eq_add]
  congr 1
  revert d
  decide

theorem sarBit_eq (d : BitVec 1) (i : Nat) : (if isSet d then i else 32 + i % 32) = if d = 0#1 then 32 + i % 32 else i := by
  rcases (show d = 0#1 ∨ d = 1#1 by revert d; decide) with rfl | rfl <;> rfl

/-- Settles O34: each branch is its condition and what it writes before the shared tail. -/
theorem conditionalBranches : Obligations.ConditionalBranches := by
  rintro s r2 r1 r im5 p c w1 n w k d _ hp rfl
  have writes {i : Instr} {q : BitVec 5} {v : Dword} {cond : Bool}
      (hx : exec i s = complete s (s.branchTail (s.writeGr q v) (disp12 w1 w) n cond)) :
      BranchesWhen i s (s.writeGr q v) (disp12 w1 w) n cond :=
    branchesWhen_of_tail hp (low_shift2 _) hx (by simp) (by simp) (by simp) (by simp)
  have compares {i : Instr} {cond : Bool} (hx : exec i s = complete s (s.branchTail s (disp12 w1 w) n cond)) :
      BranchesWhen i s s (disp12 w1 w) n cond := branchesWhen_of_tail hp (low_shift2 _) hx rfl rfl rfl rfl
  have adds {i : Instr} {q : BitVec 5} {x : Dword} {cond : Bool}
      (hx : exec i s = complete s (s.branchTail (s.writeGr q (sum x (s.readGr q) false).res) (disp12 w1 w) n cond)) :
      BranchesWhen i s (s.writeGr q (x + s.readGr q)) (disp12 w1 w) n cond := by
    rw [sum_add] at hx
    exact writes hx
  refine ⟨adds rfl, adds rfl, adds rfl, adds rfl, compares rfl, compares rfl, compares rfl, compares rfl, compares rfl, compares rfl,
    compares rfl, writes rfl, writes rfl, compares ?fixed, compares ?sar⟩
  case fixed =>
    rw [← toNat_fixedBit]
    rfl
  case sar =>
    rw [← sarBit_eq]
    rfl

end Sys2Proof.Machine
end

section
/-! SUPPORT. The access rights of a page by their three fields, for O23. -/

namespace Sys2Proof.Machine

/-! ### Access rights (21_translation.md R254) -/

section
variable (type : BitVec 3) (pl1 pl2 level : BitVec 2)

theorem rights_type : field (type ++ pl1 ++ pl2) 0 2 = type := Laws.high 4 2 _ pl2 (Laws.high 2 0 type pl1 BitVec.extractLsb'_eq_self rfl) rfl

theorem rights_pl1 : field (type ++ pl1 ++ pl2) 3 4 = pl1 := Laws.high 2 0 _ pl2 (Laws.low type pl1) rfl

theorem rights_pl2 : field (type ++ pl1 ++ pl2) 5 6 = pl2 := Laws.low _ pl2

theorem rightsOk_read_iff : rightsOk (type ++ pl1 ++ pl2) .read level = true ↔ type.toNat ≤ 3 ∧ level.toNat ≤ pl1.toNat := by
  simp only [rightsOk, rights_type, rights_pl1, Bool.and_eq_true, decide_eq_true_eq, BitVec.le_def]

theorem rightsOk_write_iff :
    rightsOk (type ++ pl1 ++ pl2) .write level = true ↔ (type = 1#3 ∨ type = 3#3) ∧ level.toNat ≤ pl2.toNat := by
  simp only [rightsOk, rights_type, rights_pl2, Bool.and_eq_true, Bool.or_eq_true, beq_iff_eq, decide_eq_true_eq, BitVec.le_def,
    ← BitVec.toNat_inj, BitVec.toNat_ofNat, Nat.reduceMod, Nat.reducePow]

theorem rightsOk_execute_iff : rightsOk (type ++ pl1 ++ pl2) .execute level = true ↔
    2 ≤ type.toNat ∧ pl2.toNat ≤ level.toNat ∧ level.toNat ≤ pl1.toNat := by
  simp only [rightsOk, rights_type, rights_pl1, rights_pl2, Bool.and_eq_true, decide_eq_true_eq, BitVec.le_def, and_assoc]

end

/-- Settles O23: each kind of access reads its own fields of the seven bits. -/
theorem accessRights : Obligations.AccessRights := fun type pl1 pl2 level =>
  ⟨rightsOk_read_iff type pl1 pl2 level, rightsOk_write_iff type pl1 pl2 level, rightsOk_execute_iff type pl1 pl2 level⟩

end Sys2Proof.Machine
end

section
/-! SUPPORT. The loads and stores of the coprocessors 2 to 7 by what their reference answers, for O52. -/

namespace Sys2Proof.Machine

/-! ### The reference (48_assist_sfu_copr.md R758) -/

section
variable {s : State} {k : RefKind} {a : DataAddr} {n : Nat} {c : Config.CoprTransfer} {p : Place}

theorem coprReference_raises (on : s.coprEnabled c.unit = true) (raises : transferRaises c = true) :
    s.coprReference k a n c = .error (trapInstr .assistException) := by
  simp [State.coprReference, on, raises, bind, Except.bind]

theorem coprReference_off (off : s.coprEnabled c.unit = false) (hc : s.check k a n = .ok p) :
    s.coprReference k a n c = .error (.trap .assistEmulation (.data a)) := by
  simp [State.coprReference, off, hc, bind, Except.bind]

theorem coprReference_on (on : s.coprEnabled c.unit = true) (quiet : transferRaises c = false) (hc : s.check k a n = .ok p) :
    s.coprReference k a n c = .ok p := by
  simp [State.coprReference, on, quiet, hc, bind, Except.bind]

end

/-! ### An instruction that makes a reference of a coprocessor and goes on with its place -/

section
variable {i : Instr} {s : State} {k : RefKind} {e : Ea} {n pa : Nat} {c : Config.CoprTransfer} {f : Place → Res Done}
  (hx : exec i s = complete s (e.resolve s >>= fun a => s.coprReference k a n c >>= f))
include hx

theorem exec_of_coprReference {a : DataAddr} {r : Res Place} (ha : e.resolve s = .ok a) (hr : s.coprReference k a n c = r) :
    exec i s = complete s (r >>= f) := by
  rw [hx, ha, ← hr]
  rfl

theorem traps_of_coprRaises (on : s.coprEnabled c.unit = true) (raises : transferRaises c = true) (ha : ∃ a, e.resolve s = .ok a) :
    Traps i s .assistException .instr := by
  obtain ⟨a, ha⟩ := ha
  exact exec_of_coprReference hx ha (coprReference_raises on raises)

theorem takesCheck_of_coprReference (quiet : s.coprEnabled c.unit = true → transferRaises c = false) : TakesCheck k n s e i :=
  takesCheck_of_stop hx fun a z ha hz => by rw [ha]; show s.coprReference k a n c >>= f = _; rw [coprReference_stop quiet hz]; rfl

theorem traps_of_coprOff (off : s.coprEnabled c.unit = false) (reaches : Reaches s k e n pa) :
    ∃ a, e.resolve s = .ok a ∧ Traps i s .assistEmulation (.data a) := by
  obtain ⟨a, p, ha, hc, -, -⟩ := reaches
  exact ⟨a, ha, exec_of_coprReference hx ha (coprReference_off off hc)⟩

/-- The unit takes the datum: the instruction goes on with a place in memory. -/
theorem exec_of_coprOn (on : s.coprEnabled c.unit = true) (quiet : transferRaises c = false) (reaches : Reaches s k e n pa) :
    ∃ p : Place, region p.pa = .memory ∧ p.pa.toNat = pa ∧ exec i s = complete s (f p) := by
  obtain ⟨a, p, ha, hc, memory, hpa⟩ := reaches
  exact ⟨p, memory, hpa, exec_of_coprReference hx ha (coprReference_on on quiet hc)⟩

end

/-! ### The two forms (R767 to R769, R774) -/

section
variable {i : Instr} {s : State} {e : Ea} {unit : BitVec 3} {double : Bool} {t : BitVec 5} (hp : Plain s)
include hp

theorem coprLoads_of_form (hx : exec i s = complete s (s.coprLoadForm e unit double t)) : CoprLoads i s e unit double t := by
  rintro pa c rfl
  refine ⟨traps_of_coprRaises hx, takesCheck_of_coprReference hx, fun reaches => ⟨fun off => traps_of_coprOff hx off reaches,
    fun on quiet => ?_⟩⟩
  obtain ⟨p, memory, rfl, hx⟩ := exec_of_coprOn hx on quiet reaches
  rw [loadAt_memory memory] at hx
  refine completes_of_done hp (hx.trans ?_) (by simp) (by simp) (by simp) (by simp)
  cases double <;> rfl

theorem coprStores_of_form (hm : s.mem.wf = true) (hx : exec i s = complete s (s.coprStoreForm e unit double t)) :
    CoprStores i s e unit double t := by
  rintro pa c rfl
  refine ⟨traps_of_coprRaises hx, takesCheck_of_coprReference hx, fun reaches => ⟨fun off => traps_of_coprOff hx off reaches,
    fun on quiet => ?_⟩⟩
  obtain ⟨p, memory, rfl, hx⟩ := exec_of_coprOn hx on quiet reaches
  rw [storeAt_memory memory] at hx
  refine stores_of_done hp hm (hx.trans ?_) (by simp) (by simp) (by simp) (by simp)
  rw [← writeBack_mem_comm]
  rfl

end

/-- Settles O52: every row is one of the two forms, at its address and for its unit. -/
theorem coprLoadsStores : Obligations.CoprLoadsStores := by
  intro s b x im5 t sr cc a u m lo lo4 hp
  have load {i : Instr} {e : Ea} {unit : BitVec 3} {double : Bool} (hx : exec i s = complete s (s.coprLoadForm e unit double t)) :
      CoprLoads i s e unit double t := coprLoads_of_form hp hx
  refine ⟨load rfl, load rfl, load rfl, load rfl, load rfl, load rfl, load rfl, load rfl, fun hm => ?_⟩
  have store {i : Instr} {e : Ea} {unit : BitVec 3} {double : Bool} (hx : exec i s = complete s (s.coprStoreForm e unit double t)) :
      CoprStores i s e unit double t := coprStores_of_form hp hm hx
  exact ⟨store rfl, store rfl, store rfl, store rfl, store rfl, store rfl, store rfl, store rfl⟩

end Sys2Proof.Machine
end

section
/-! SUPPORT. The floating-point loads and stores by what their reference answers, for O53. -/

namespace Sys2Proof.Machine

/-! ### What comes before the access (48_assist_sfu_copr.md R756, R758; 50_fp_instructions.md R871 to R875, R880) -/

theorem fpWordRegister_iff (r : BitVec 5) (h : BitVec 1) : fpWordRegister r h = true ↔ 4 ≤ r.toNat ∨ (r = 0#5 ∧ h = 0#1) := by
  simp [fpWordRegister]

theorem fpWordRegister_eq_false {r : BitVec 5} {h : BitVec 1} (hr : r.toNat < 4) (hh : r ≠ 0#5 ∨ h = 1#1) :
    fpWordRegister r h = false := by
  rw [← Bool.not_eq_true, fpWordRegister_iff]
  rintro (large | ⟨rfl, rfl⟩)
  · omega
  · simp at hh

/-- Both configuration bits are 1, and nothing is left over from an earlier instruction that keeps this one from its access. -/
def FpClear (s : State) (cancels : Bool) : Prop :=
  s.coprEnabled 0#3 = true ∧ s.coprEnabled 1#3 = true ∧ (cancels = true ∨ (s.fpTrap = false ∧ s.fpSequence ≠ .identified))

section
variable {s : State} {k : RefKind} {e : Ea} {n : Nat} {cancels allowed : Bool} {a : DataAddr} {p : Place}

theorem fpClear_of_fpOn (on : FpOn s) : FpClear s cancels := by
  obtain ⟨first, second, untrapped, unidentified⟩ := on
  exact ⟨first, second, .inr ⟨untrapped, unidentified⟩⟩

theorem fpReference_mixed (mixed : s.coprEnabled 0#3 ≠ s.coprEnabled 1#3) :
    s.fpReference k e n cancels allowed = .error (.refuse .mixedFpEnable) := by
  simp [State.fpReference, State.fpMixed, mixed, bind, Except.bind]

theorem fpReference_off (h0 : s.coprEnabled 0#3 = false) (h1 : s.coprEnabled 1#3 = false) (ha : e.resolve s = .ok a)
    (hc : s.check k a n = .ok p) : s.fpReference k e n cancels allowed = .error (.trap .assistEmulation (.data a)) := by
  simp [State.fpReference, State.fpMixed, State.fpOff, h0, h1, ha, hc, bind, Except.bind]

theorem fpReference_identified (h0 : s.coprEnabled 0#3 = true) (h1 : s.coprEnabled 1#3 = true) (identified : s.fpSequence = .identified) :
    s.fpReference k e n false allowed = .error (.refuse .fpIdentifyAlone) := by
  simp [State.fpReference, State.fpMixed, State.fpOff, State.fpAfterFid, h0, h1, identified, bind, Except.bind]

theorem fpReference_trap (h0 : s.coprEnabled 0#3 = true) (h1 : s.coprEnabled 1#3 = true) (unidentified : s.fpSequence ≠ .identified)
    (trap : s.fpTrap = true) : s.fpReference k e n false allowed = .error (trapInstr .assistException) := by
  simp [State.fpReference, State.fpMixed, State.fpOff, State.fpAfterFid, h0, h1, unidentified, trap, bind, Except.bind]

/-- With nothing left over, an instruction on a register it may name makes its reference, and one on another is undefined. -/
theorem fpReference_clear (clear : FpClear s cancels) :
    s.fpReference k e n cancels allowed =
      if allowed then e.resolve s >>= fun a => s.check k a n else .error (.refuse .fpExceptionWord) := by
  obtain ⟨h0, h1, left⟩ := clear
  have identified : (s.fpAfterFid && !cancels) = false := by
    rcases left with rfl | ⟨-, unidentified⟩
    · exact Bool.and_false _
    · simp [State.fpAfterFid, unidentified]
  have trapped : (s.fpTrap && !cancels) = false := by
    rcases left with rfl | ⟨untrapped, -⟩
    · exact Bool.and_false _
    · simp [untrapped]
  have on : s.fpOff = false := by simp [State.fpOff, h0]
  have same : s.fpMixed = false := by simp [State.fpMixed, h0, h1]
  have pass (r : Res Place) : (r >>= fun p => .ok p) = r := by cases r <;> rfl
  cases allowed
  · simp [State.fpReference, same, on, identified, trapped, bind, Except.bind]
  · simp only [State.fpReference, same, on, identified, trapped, Bool.not_false, Bool.true_and, Bool.false_eq_true, if_false, pass,
      Bool.not_true, if_true]

end

/-! ### An instruction that makes a floating-point reference and goes on with its place -/

section
variable {i : Instr} {s : State} {k : RefKind} {e : Ea} {n pa : Nat} {cancels allowed : Bool} {f : Place → Res Done}
  (hx : exec i s = complete s (s.fpReference k e n cancels allowed >>= f))
include hx

theorem exec_of_fpReference {r : Res Place} (hr : s.fpReference k e n cancels allowed = r) : exec i s = complete s (r >>= f) := by
  rw [hx, hr]

theorem takesCheck_of_fpClear (clear : FpClear s cancels) (ha : allowed = true) : TakesCheck k n s e i :=
  takesCheck_of_stop hx fun d z hd hz => by
    rw [fpReference_clear clear, if_pos ha, hd]
    show s.check k d n >>= f = _
    rw [hz]
    rfl

theorem refused_of_fpClear (clear : FpClear s cancels) (ha : allowed = false) : exec i s = .refused .fpExceptionWord :=
  exec_of_fpReference hx ((fpReference_clear clear).trans (if_neg (ne_true_of_eq_false ha)))

/-- The instruction goes on with a place in memory. -/
theorem exec_of_fpClear (clear : FpClear s cancels) (ha : allowed = true) (reaches : Reaches s k e n pa) :
    ∃ p : Place, region p.pa = .memory ∧ p.pa.toNat = pa ∧ exec i s = complete s (f p) := by
  obtain ⟨a, p, hd, hc, memory, hpa⟩ := reaches
  refine ⟨p, memory, hpa, exec_of_fpReference hx (r := .ok p) ?_⟩
  rw [fpReference_clear clear, if_pos ha, hd]
  exact hc

theorem fpReference_of_exec : FpReference i s k e n pa cancels := by
  refine ⟨fun mixed => exec_of_fpReference hx (fpReference_mixed mixed), fun h0 h1 => ⟨?check, ?emulation⟩, fun h0 h1 hc => ?_⟩
  case check =>
    have off : s.fpOff = true := by simp [State.fpOff, h0, h1]
    have same : s.fpMixed = false := by simp [State.fpMixed, h0, h1]
    exact takesCheck_of_stop hx fun d z hd hz => by rw [fpReference_stop same (.inl off) hd hz]; rfl
  case emulation =>
    rintro ⟨a, p, ha, hc, -, -⟩
    exact ⟨a, ha, exec_of_fpReference hx (fpReference_off h0 h1 ha hc)⟩
  subst hc
  exact ⟨fun identified => exec_of_fpReference hx (fpReference_identified h0 h1 identified),
    fun unidentified trap => exec_of_fpReference hx (fpReference_trap h0 h1 unidentified trap)⟩

end

/-! ### Loads (R871, R872) -/

/-- The T bit of a word for the Status Register, in the doubleword it was loaded into. -/
theorem getMsbD_word (v : Dword) : (v.extractLsb' 0 32).getMsbD Fpsr.T = bitAt v (32 + Fpsr.T) := by
  simp [bitAt, Fpsr.T, BitVec.getMsbD]

section
variable {i : Instr} {s : State} {e : Ea} {t : BitVec 5} {h : BitVec 1} (hp : Plain s)
include hp

theorem fpLoadsWord_of_form (hx : exec i s = complete s (s.fpLoadWord e t h)) : FpLoadsWord i s e t h := by
  rintro pa w rfl
  have named : 4 ≤ t.toNat ∨ (t = 0#5 ∧ h = 0#1) → fpWordRegister t h = true := (fpWordRegister_iff t h).2
  have loaded (on : FpOn s) (reaches : Reaches s .load e 4 pa) (ht : 4 ≤ t.toNat ∨ (t = 0#5 ∧ h = 0#1)) : exec i s =
      complete s (if t = 0#5 && bitAt (s.mem.load (s.flag Psw.E) pa 4) (32 + Fpsr.T) then .error (.refuse .fpLoadOfTrapBit)
        else done s (((e.writeBack s).writeFpr t (withHalf h (s.readFpr t) ((s.mem.load (s.flag Psw.E) pa 4).extractLsb' 0 32))).fpLoaded t
          false) false) := by
    obtain ⟨p, memory, rfl, hx⟩ := exec_of_fpClear hx (fpClear_of_fpOn on) (named ht) reaches
    rw [hx, loadAt_memory memory]
    show complete s (if _ then _ else _) = _
    split <;> rfl
  refine ⟨fpReference_of_exec hx, fun on ht => takesCheck_of_fpClear hx (fpClear_of_fpOn on) (named ht),
    fun on small ht => refused_of_fpClear hx (fpClear_of_fpOn on) (fpWordRegister_eq_false small ht),
    fun on reaches ht hh trap => ?_, fun on reaches ht => ?_⟩
  · rw [loaded on reaches (.inr ⟨ht, hh⟩), if_pos]
    · rfl
    · rw [← getMsbD_word]
      exact Bool.and_eq_true_iff.2 ⟨decide_eq_true ht, trap⟩
  · refine completes_of_done hp ((loaded on reaches ?_).trans (congrArg _ (if_neg ?_))) (by simp) (by simp) (by simp) (by simp)
    · exact ht.imp_right fun ⟨ht, hh, _⟩ => ⟨ht, hh⟩
    · rw [← getMsbD_word]
      rcases ht with large | ⟨-, -, untrapped⟩
      · have : t ≠ 0#5 := by rintro rfl; simp at large
        simp [this]
      · simp [Fpsr.T, untrapped]

theorem fpLoadsDouble_of_form (hx : exec i s = complete s (s.fpLoadDouble e t)) : FpLoadsDouble i s e t := by
  refine fun pa => ⟨fpReference_of_exec hx, fun on => takesCheck_of_fpClear hx (fpClear_of_fpOn on) rfl, fun on reaches => ?_⟩
  obtain ⟨p, memory, rfl, hx⟩ := exec_of_fpClear hx (fpClear_of_fpOn on) rfl reaches
  rw [loadAt_memory memory] at hx
  exact completes_of_done hp hx (by simp) (by simp) (by simp) (by simp)

end

/-! ### Stores (R873, R874) -/

section
variable (s : State)

theorem State.fpStoredFrom_eq_drawn (r : BitVec 5) : s.fpStoredFrom r = s.drawn (if r = 0#5 then 1 else 0) := by
  unfold State.fpStoredFrom
  split <;> rfl

theorem State.fpStoredFrom_of_ne {r : BitVec 5} (hr : r ≠ 0#5) : s.fpStoredFrom r = s := if_neg hr

theorem State.fpStored_of_ne {r : BitVec 5} (hr : r ≠ 0#5) : s.fpStored r = s.readFpr r := if_neg hr

/-- Free values drawn and the base register written back do not meet. -/
theorem writeBack_drawn (e : Ea) (n : Nat) : e.writeBack (s.drawn n) = (e.writeBack s).drawn n := by
  unfold Ea.writeBack
  split
  · rfl
  · unfold State.writeGr
    split <;> rfl

/-- A store to memory, then the base register's modification, then `g`. -/
theorem fpStore_memory {pa : Dword} {n : Nat} {v : Dword} {r : BitVec 5} {e : Ea} {g : State → State} (memory : region pa = .memory) :
    ((s.fpStoredFrom r).storeAt pa n v >>= fun s' => done s (g (e.writeBack s')) false) =
      done s (g { (e.writeBack s).fpStoredFrom r with mem := s.mem.store (s.flag Psw.E) pa.toNat n v }) false := by
  rw [State.fpStoredFrom_eq_drawn, State.fpStoredFrom_eq_drawn, storeAt_memory memory, ← writeBack_drawn, ← writeBack_mem_comm]
  rfl

end

section
variable {i : Instr} {s : State} {e : Ea} {r : BitVec 5} {h : BitVec 1} (hp : Plain s) (hm : s.mem.wf = true)
include hp hm

theorem fpStoresWord_of_form (hx : exec i s = complete s (s.fpStoreWord e r h)) : FpStoresWord i s e r h := by
  intro pa
  have named : 4 ≤ r.toNat ∨ (r = 0#5 ∧ h = 0#1) → fpWordRegister r h = true := (fpWordRegister_iff r h).2
  have stored (on : FpOn s) (reaches : Reaches s .store e 4 pa) (hr : 4 ≤ r.toNat ∨ (r = 0#5 ∧ h = 0#1)) :
      Stores i s (((e.writeBack s).fpStoredFrom r).fpDid .other) 4 pa ((half h (s.fpStored r)).zeroExtend 64) := by
    obtain ⟨p, memory, rfl, hx⟩ := exec_of_fpClear hx (fpClear_of_fpOn on) (named hr) reaches
    refine stores_of_done hp hm (hx.trans (congrArg _ (fpStore_memory s (g := (·.fpDid .other)) memory))) ?_ ?_ ?_ ?_
    all_goals simp [State.fpStoredFrom_eq_drawn]
  refine ⟨fpReference_of_exec hx, fun on hr => takesCheck_of_fpClear hx (fpClear_of_fpOn on) (named hr),
    fun on small hr => refused_of_fpClear hx (fpClear_of_fpOn on) (fpWordRegister_eq_false small hr), fun on reaches large => ?_,
    fun on reaches hr hh => ?_⟩
  · have hr : r ≠ 0#5 := by rintro rfl; simp at large
    have stored := stored on reaches (.inl large)
    rwa [State.fpStoredFrom_of_ne _ hr, State.fpStored_of_ne _ hr] at stored
  · subst hr hh
    exact stored on reaches (.inr ⟨rfl, rfl⟩)

theorem fpStoresDouble_of_form (hx : exec i s = complete s (s.fpStoreDouble e r)) : FpStoresDouble i s e r := by
  intro pa
  have stored (clear : FpClear s (r = 0#5)) (reaches : Reaches s .store e 8 pa) :
      Stores i s (if r = 0#5 then (((e.writeBack s).fpStoredFrom r).setFpTrap false).fpDid .stored
        else ((e.writeBack s).fpStoredFrom r).fpDid .other) 8 pa (s.fpStored r) := by
    obtain ⟨p, memory, rfl, hx⟩ := exec_of_fpClear hx clear rfl reaches
    refine stores_of_done hp hm (hx.trans (congrArg _ ((fpStore_memory s
      (g := fun t => if r = 0#5 then (t.setFpTrap false).fpDid .stored else t.fpDid .other) memory).trans ?_))) ?_ ?_ ?_ ?_
    · split <;> rfl
    all_goals split <;> simp [State.fpStoredFrom_eq_drawn]
  refine ⟨fpReference_of_exec hx, fun on => takesCheck_of_fpClear hx (fpClear_of_fpOn on) rfl,
    fun h0 h1 hr => takesCheck_of_fpClear hx ⟨h0, h1, .inl (decide_eq_true hr)⟩ rfl, fun on reaches hr => ?_, fun h0 h1 reaches hr => ?_⟩
  · have stored := stored (fpClear_of_fpOn on) reaches
    rwa [if_neg hr, State.fpStoredFrom_of_ne _ hr, State.fpStored_of_ne _ hr] at stored
  · subst hr
    exact stored ⟨h0, h1, .inl rfl⟩ reaches

end

/-- What a load tells the later compares, tests and FID (R880, R898). -/
theorem fpLoaded_eq (s : State) (t : BitVec 5) (double : Bool) : s.fpLoaded t double =
    if t = 0#5 then { s with fpQueue := 12, fpArray := 0x7F#7, fpSequence := if double then .stored else .other }
    else { s with fpSequence := .other } := rfl

/-- Settles O53: every format is one of the four forms, at its address. -/
theorem fpLoadsStores : Obligations.FpLoadsStores := by
  refine ⟨fpLoaded_eq, fun s b x im5 t sr cc im11a im10a a u m h iv hp => ?_⟩
  have loadWord {i : Instr} {e : Ea} (hx : exec i s = complete s (s.fpLoadWord e t h)) : FpLoadsWord i s e t h :=
    fpLoadsWord_of_form hp hx
  have loadDouble {i : Instr} {e : Ea} (hx : exec i s = complete s (s.fpLoadDouble e t)) : FpLoadsDouble i s e t :=
    fpLoadsDouble_of_form hp hx
  refine ⟨loadWord rfl, loadWord rfl, loadWord rfl, loadWord rfl, loadDouble rfl, loadDouble rfl, loadDouble rfl, fun hm => ?_⟩
  have storeWord {i : Instr} {e : Ea} (hx : exec i s = complete s (s.fpStoreWord e t h)) : FpStoresWord i s e t h :=
    fpStoresWord_of_form hp hm hx
  have storeDouble {i : Instr} {e : Ea} (hx : exec i s = complete s (s.fpStoreDouble e t)) : FpStoresDouble i s e t :=
    fpStoresDouble_of_form hp hm hx
  exact ⟨storeWord rfl, storeWord rfl, storeWord rfl, storeWord rfl, storeDouble rfl, storeDouble rfl, storeDouble rfl⟩

end Sys2Proof.Machine
end

section
/-! SUPPORT. The rows of the opcode table that a word can belong to, and that no row takes another's words, for O1 and O3. -/

namespace Sys2Proof

/-! ### The rows that a field of a word leaves open (30_encoding.md R371) -/

/-- The row allows the value `v` in the field whose rightmost bit is the word's bit `start` from the right. -/
def Row.admits (r : Row) (start : Nat) {n : Nat} (v : BitVec n) : Bool := v &&& r.mask.extractLsb' start n == r.bits.extractLsb' start n

theorem Row.hits_iff {r : Row} {w : BitVec 32} : r.hits w = true ↔ w &&& r.mask = r.bits := beq_iff_eq

/-- A row that a word belongs to admits every field of the word. -/
theorem Row.admits_of_hits {r : Row} {w : BitVec 32} (h : r.hits w = true) (start n : Nat) : r.admits start (w.extractLsb' start n) = true := by
  rw [Row.admits, ← BitVec.extractLsb'_and, Row.hits_iff.1 h, beq_self_eq_true]

/-- The rows of a major opcode (30_encoding.md R301). -/
def majorRows (op : BitVec 6) : List Row := opcodeTable.filter (·.admits 26 op)

theorem mem_majorRows {r : Row} {w : BitVec 32} (hr : r ∈ opcodeTable) (h : r.hits w = true) : r ∈ majorRows (w.extractLsb' 26 6) :=
  List.mem_filter.2 ⟨hr, Row.admits_of_hits h 26 6⟩

theorem mem_opcodeTable {r : Row} {op : BitVec 6} (hr : r ∈ majorRows op) : r ∈ opcodeTable := (List.mem_filter.1 hr).1

/-- A word belongs to a row of its own major opcode or to none. -/
theorem find?_majorRows (w : BitVec 32) : (majorRows (w.extractLsb' 26 6)).find? (·.hits w) = opcodeTable.find? (·.hits w) := by
  rw [majorRows, List.find?_filter]
  refine congrArg (List.find? · opcodeTable) (funext fun r => ?_)
  cases h : r.hits w with
  | true => simpa using Row.admits_of_hits h 26 6
  | false => exact decide_eq_false fun both => Bool.false_ne_true both.2

/-! ### Rows that share a word -/

/-- The row `a`, standing before the row `r`, takes no well-formed instruction's word from it: the rows require different values of a
bit, or `a` is one word, as PUSHNOM's and CLRBTS's, which is no well-formed instruction of `r` (42_branch.md R500 to R503). -/
def Row.yields (a r : Row) : Bool :=
  a.mask &&& r.mask &&& (a.bits ^^^ r.bits) != 0#32 || (a.mask == BitVec.allOnes 32 && !(r.build a.bits).wellFormed)

theorem majorRows_pairwise_yields : ∀ op, (majorRows op).Pairwise (·.yields · = true) := by decide +kernel

/-- A word of both rows is no well-formed instruction of the second. -/
theorem Row.not_wellFormed_of_yields {a r : Row} {w : BitVec 32} (h : a.yields r = true) (ha : a.hits w = true) (hr : r.hits w = true) :
    (r.build w).wellFormed = false := by
  rw [Row.hits_iff] at ha hr
  rw [Row.yields, Bool.or_eq_true, Bool.and_eq_true, Bool.not_eq_true', bne_iff_ne, beq_iff_eq] at h
  obtain apart | ⟨full, illFormed⟩ := h
  · refine absurd ?_ apart
    rw [← ha, ← hr]
    ext i
    simp only [BitVec.getElem_and, BitVec.getElem_xor, BitVec.getElem_zero]
    cases w[i] <;> cases a.mask[i] <;> cases r.mask[i] <;> rfl
  · rwa [← ha, full, BitVec.and_allOnes] at illFormed

theorem find?_hits_of_pairwise_yields {l : List Row} {r : Row} {w : BitVec 32} (hl : l.Pairwise (·.yields · = true)) (hr : r ∈ l)
    (hit : r.hits w = true) (wf : (r.build w).wellFormed = true) : l.find? (·.hits w) = some r := by
  induction l with
  | nil => cases hr
  | cons a l ih =>
    obtain ⟨first, rest⟩ := List.pairwise_cons.1 hl
    obtain rfl | later := List.mem_cons.1 hr
    · exact List.find?_cons_of_pos hit
    · rw [List.find?_cons_of_neg, ih rest later]
      intro taken
      rw [Row.not_wellFormed_of_yields (first r later) taken hit] at wf
      cases wf

/-! ### Decoding by the rows -/

theorem rawDecode_eq (w : BitVec 32) : rawDecode w = ((majorRows (w.extractLsb' 26 6)).find? (·.hits w)).map (·.build w) := by
  rw [find?_majorRows, rawDecode]

/-- A word decodes to the well-formed instruction of a row that it belongs to, whatever other row it belongs to. -/
theorem decode_of_hits {r : Row} {w : BitVec 32} (hr : r ∈ opcodeTable) (hit : r.hits w = true) (wf : (r.build w).wellFormed = true) :
    decode w = .ok (r.build w) := by
  have found := find?_hits_of_pairwise_yields (majorRows_pairwise_yields _) (mem_majorRows hr hit) hit wf
  rw [decode, rawDecode_eq, found]
  exact if_pos wf

/-! ### O1 -/

/-- Every instruction is written in its row: `InTable` of each constructor, in their order. -/
theorem inTable : ∀ i, Laws.InTable.Statement i := by
  open Laws.InTable in
  exact Instr.rec
    ldbLong ldhLong ldwLong ldwLongMod stbLong sthLong stwLong stwLongMod ldwLong11 stwLong11 lddLong stdLong ldbShort ldbIndexed ldhShort ldhIndexed
    ldwShort ldwIndexed lddShort lddIndexed lddaShort lddaIndexed ldcdShort ldcdIndexed ldwaShort ldwaIndexed ldcwShort ldcwIndexed stbShort sthShort
    stwShort stdShort stby stdby stwa stda ldo ldil addil bl17 bGate blPush bl22 pushbts popbts blr bv bve bveL be beL addbT addbF addibT addibF
    cmpbT cmpbF cmpbDT cmpbDF cmpibT cmpibF cmpibD movb movib bbFixed bbSar add addC addL addTsv addCTsv sub subTc subB subTsv subTsvTc subBTsv and
    andcm or xor cmpclr uxor uaddcm uaddcmTc shladd shladdL shladdTsv ds dcor dcorI addi addiTc subi cmpiclr shrpwSar shrpdSar shrpwFixed shrpdFixed
    extrwSar extrdSar extrwFixed extrdFixed depwSar depdSar depwFixed depwiSar depdiSar depwiFixed depdFixed depdiFixed hadd haddSs haddUs hsub
    hsubSs hsubUs havg hshladd hshradd hshl hshrU hshrS mixhL mixhR mixwL mixwR permh brk ssm rsm mtsm ldsid mtsp mfsp mtctl mtsarcm mfctl mfia diag
    iitlbt pitlb pitlbL pitlbe ficExplicit fice idtlbt pdtlb pdtlbL pdtlbe fdcIndexed fdcShort fdce pdc ficImplicit probeR probeW probeiR probeiW lpa
    lci spop0 spop1 spop2 spop3 pmdis copr1 copr3 copr4to7 cldwIndexed2 cldwShort2 cldwIndexed4 cldwShort4 cstwIndexed2 cstwShort2 cstwIndexed4
    cstwShort4 clddIndexed2 clddShort2 clddIndexed4 clddShort4 cstdIndexed2 cstdShort2 cstdIndexed4 cstdShort4 fldwLong fldwLongMod fldwShort
    fldwIndexed fstwLong fstwLongMod fstwShort fstwIndexed flddLong flddShort flddIndexed fstdLong fstdShort fstdIndexed fcpy fcpyE fabs fabsE fsqrt
    fsqrtE frnd frndE fneg fnegE fnegabs fnegabsE fcnvFF fcnvFFE fcnvXF fcnvXFE fcnvFX fcnvFXE fcnvFXT fcnvFXTE fcnvUF fcnvUFE fcnvFU fcnvFUE fcnvFUT
    fcnvFUTE fcmp fcmpE ftest fadd faddE fsub fsubE fmpy fmpyE fdiv fdivE xmpyu fmpyadd fmpysub fmpyfadd fmpynfadd pushnom clrbts sync syncdma rfi
    rfiR pmenb fid

/-- Settles O1: the encoding belongs to the instruction's row, which rebuilds it, and no other row takes the word. -/
theorem decodeOfEncode : Obligations.DecodeOfEncode := by
  intro i wf
  obtain ⟨r, hr, hit, built⟩ := inTable i wf
  have decoded := decode_of_hits hr hit
  rw [built] at decoded
  exact decoded wf

end Sys2Proof
end

section
/-! SUPPORT. The words that no instruction has: what the machine does with them by their class, and which fields leave no row of the
opcode table open, or only rows whose instruction is ill formed, for O3. -/

namespace Sys2Proof.Machine

/-! ### The outcome of a word by its class (30_encoding.md R370, D11) -/

section
variable {s : State} {w : Word} {x : Reject}

theorem executeWord_of_reject (h : decode w = .error x) : executeWord s w = complete (s.latch w) ((s.latch w).rejectResult x) := by
  rw [executeWord, h]
  rfl

theorem illegalWord_of_decode (h : decode w = .error .illegal) : IllegalWord s w := ⟨h, executeWord_of_reject h⟩

theorem undefinedPmWord_of_decode (h : decode w = .error .pmUndefined) : UndefinedPmWord s w := by
  refine ⟨h, fun on => ?_, fun off => ?_⟩
  · have enabled : (s.latch w).coprEnabled 2#3 = true := on
    rw [executeWord_of_reject h, State.rejectResult, enabled]
    rfl
  · have disabled : (s.latch w).coprEnabled 2#3 = false := off
    rw [executeWord_of_reject h, State.rejectResult, disabled]
    rfl

theorem latch_fpMixed (s : State) (w : Word) : (s.latch w).fpMixed = (s.coprEnabled 0#3 != s.coprEnabled 1#3) := rfl

theorem latch_fpOff (s : State) (w : Word) : (s.latch w).fpOff = (!(s.coprEnabled 0#3) && !(s.coprEnabled 1#3)) := rfl

theorem reservedFpWord_of_decode (h : decode w = .error .fpReserved) : ReservedFpWord s w := by
  have outcome : executeWord s w = complete (s.latch w) ((s.latch w).fpGate >>= fun _ => .error (trapInstr .assistException)) :=
    executeWord_of_reject h
  refine ⟨h, fun mixed => ?_, fun h0 h1 => ?_, fun h0 h1 unidentified ready => ?_⟩
  · rw [outcome, State.fpGate, latch_fpMixed, bne_iff_ne.2 mixed]
    rfl
  · rw [outcome, State.fpGate, latch_fpMixed, latch_fpOff, h0, h1]
    rfl
  · have after : (s.latch w).fpAfterFid = false := decide_eq_false unidentified
    rw [outcome, State.fpGate, latch_fpMixed, latch_fpOff, h0, h1, after]
    obtain trap | quiet := ready
    · have trap : (s.latch w).fpTrap = true := trap
      rw [trap]
      rfl
    · have quiet : (s.latch w).fpPending = false := quiet
      rw [quiet]
      cases (s.latch w).fpTrap <;> rfl

/-- The major opcode as a field and as the number that the statement compares. -/
theorem major_eq_iff {n : Nat} (hn : n < 64) : w >>> 26 = BitVec.ofNat 32 n ↔ w.extractLsb' 26 6 = BitVec.ofNat 6 n := by
  rw [← BitVec.toNat_inj, ← BitVec.toNat_inj, BitVec.toNat_ushiftRight, Nat.shiftRight_eq_div_pow, toNat_extractLsb'_eq_div_mod,
    BitVec.toNat_ofNat, BitVec.toNat_ofNat]
  omega

theorem emulateUndefined_operation (h : w >>> 26 ≠ 0x0B#32) : s.emulateUndefined w = .error emulationTrap :=
  if_neg (mt (major_eq_iff (by decide)).2 h)

theorem emulateUndefined_reference (h : w >>> 26 = 0x0B#32) : s.emulateUndefined w =
    ((s.undefinedEa w).resolve s >>= fun a => s.check (if w.extractLsb' 9 1 = 1#1 then .store else .load) a 8 >>= fun _ =>
      .error (.trap .assistEmulation (.data a))) :=
  if_pos ((major_eq_iff (by decide)).1 h)

theorem undefinedFpWord_of_decode (h : decode w = .error .fpUndefined) : UndefinedFpWord s w := by
  have outcome := executeWord_of_reject (s := s) h
  rw [State.rejectResult, latch_fpMixed, latch_fpOff] at outcome
  refine ⟨h, fun mixed => ?_, fun h0 h1 => ?_, fun h0 h1 => ?_⟩
  · rw [outcome, bne_iff_ne.2 mixed]
    rfl
  · rw [outcome, h0, h1]
    rfl
  · have off : executeWord s w = complete (s.latch w) ((s.latch w).emulateUndefined w) := by
      rw [outcome, h0, h1]
      rfl
    refine ⟨fun operation => ?_, fun k a reference hk ha => ?_⟩
    · rw [off, emulateUndefined_operation operation]
      rfl
    · subst hk
      rw [off, emulateUndefined_reference reference, ha]
      refine ⟨fun p allowed => ?_, fun i p stopped => ?_⟩
      · change complete _ ((s.latch w).check _ a 8 >>= _) = _
        rw [allowed]
        rfl
      · change complete _ ((s.latch w).check _ a 8 >>= _) = _
        rw [stopped]
        rfl

end

/-! ### The class of a word (50_fp_instructions.md R912; 48_assist_sfu_copr.md R770) -/

section
variable {w : Word}

theorem rejectClass_of_ne (hB : w.extractLsb' 26 6 ≠ 0x0B#6) (hC : w.extractLsb' 26 6 ≠ 0x0C#6) (hE : w.extractLsb' 26 6 ≠ 0x0E#6) :
    rejectClass w = .illegal := by
  simp [rejectClass, hB, hC, hE]

theorem rejectClass_operation (hC : w.extractLsb' 26 6 = 0x0C#6) (unit : w.extractLsb' 6 3 = 0#3) : rejectClass w =
    if w.extractLsb' 9 2 = 3#2 ∧ w.extractLsb' 5 1 = 0#1 ∧
      (w.extractLsb' 13 3 = 4#3 ∨ w.extractLsb' 13 3 = 5#3 ∨ w.extractLsb' 13 3 = 6#3) then .fpReserved else .fpUndefined :=
  if_pos ⟨hC, unit⟩

theorem rejectClass_extended (hE : w.extractLsb' 26 6 = 0x0E#6) : rejectClass w =
    if w.extractLsb' 9 2 = 3#2 ∧ w.extractLsb' 8 1 = 0#1 ∧ w.extractLsb' 5 1 = 0#1 ∧
      (w.extractLsb' 13 3 = 5#3 ∨ w.extractLsb' 13 3 = 6#3) then .fpReserved else .fpUndefined := by
  simp [rejectClass, hE]

theorem rejectClass_monitor (hC : w.extractLsb' 26 6 = 0x0C#6) (unit : w.extractLsb' 6 3 = 2#3) : rejectClass w = .pmUndefined := by
  simp [rejectClass, hC, unit]

theorem rejectClass_reference (hB : w.extractLsb' 26 6 = 0x0B#6) (unit : w.extractLsb' 6 3 = 1#3) : rejectClass w = .fpUndefined := by
  simp [rejectClass, hB, unit]

/-- The floating-point words that are not reserved are undefined. -/
theorem rejectClass_of_ne_reserved (fp : (w.extractLsb' 26 6 = 0x0C#6 ∧ w.extractLsb' 6 3 = 0#3) ∨ w.extractLsb' 26 6 = 0x0E#6)
    (h : rejectClass w ≠ .fpReserved) : rejectClass w = .fpUndefined := by
  obtain ⟨hC, unit⟩ | hE := fp
  · rw [rejectClass_operation hC unit] at h ⊢
    exact if_neg fun reserved => h (if_pos reserved)
  · rw [rejectClass_extended hE] at h ⊢
    exact if_neg fun reserved => h (if_pos reserved)

theorem rejectClass_ne_reserved (hC : ¬(w.extractLsb' 26 6 = 0x0C#6 ∧ w.extractLsb' 6 3 = 0#3)) (hE : w.extractLsb' 26 6 ≠ 0x0E#6) :
    rejectClass w ≠ .fpReserved := by
  rw [rejectClass, if_neg hC, if_neg hE]
  split
  · simp
  · split <;> simp

/-- The reserved sub-opcodes of class 3 (50_fp_instructions.md R912). -/
theorem rejectClass_eq_fpReserved_iff : rejectClass w = .fpReserved ↔ w.extractLsb' 9 2 = 3#2 ∧ w.extractLsb' 5 1 = 0#1 ∧
    ((w >>> 26 = 0x0C ∧ w.extractLsb' 6 3 = 0#3 ∧ w.extractLsb' 13 3 ∈ [4#3, 5#3, 6#3]) ∨
      (w >>> 26 = 0x0E ∧ w.extractLsb' 8 1 = 0#1 ∧ w.extractLsb' 13 3 ∈ [5#3, 6#3])) := by
  have hC : w >>> 26 = 0x0C ↔ w.extractLsb' 26 6 = 0x0C#6 := major_eq_iff (by decide)
  have hE : w >>> 26 = 0x0E ↔ w.extractLsb' 26 6 = 0x0E#6 := major_eq_iff (by decide)
  simp only [hC, hE, List.mem_cons, List.not_mem_nil, or_false]
  constructor
  · intro reserved
    by_cases operation : w.extractLsb' 26 6 = 0x0C#6 ∧ w.extractLsb' 6 3 = 0#3
    · simp only [rejectClass_operation operation.1 operation.2, ite_eq_left_iff, reduceCtorEq, imp_false, not_not] at reserved
      obtain ⟨cls, low, sub⟩ := reserved
      exact ⟨cls, low, .inl ⟨operation.1, operation.2, sub⟩⟩
    · by_cases extended : w.extractLsb' 26 6 = 0x0E#6
      · simp only [rejectClass_extended extended, ite_eq_left_iff, reduceCtorEq, imp_false, not_not] at reserved
        obtain ⟨cls, fmt, low, sub⟩ := reserved
        exact ⟨cls, low, .inr ⟨extended, fmt, sub⟩⟩
      · exact absurd reserved (rejectClass_ne_reserved operation extended)
  · rintro ⟨cls, low, ⟨hC, unit, sub⟩ | ⟨hE, fmt, sub⟩⟩
    · rw [rejectClass_operation hC unit, if_pos ⟨cls, low, sub⟩]
    · rw [rejectClass_extended hE, if_pos ⟨cls, fmt, low, sub⟩]

end

/-! ### The rows that fields of a word leave open -/

/-- A field of a word, from its rightmost bit's number on, and its value. -/
structure FieldValue where
  start : Nat
  width : Nat
  value : BitVec width

/-- The word has the value in the field. -/
def FieldValue.Of (f : FieldValue) (w : BitVec 32) : Prop := w.extractLsb' f.start f.width = f.value

/-- The rows of a major opcode that the values of some fields leave open. -/
def openRows (op : BitVec 6) (fs : List FieldValue) : List Row := (majorRows op).filter fun r => fs.all fun f => r.admits f.start f.value

/-- Which rows' instructions the word makes well formed. -/
def verdicts (rows : List Row) (w : BitVec 32) : List Bool := rows.map fun r => (r.build w).wellFormed

section
variable {s : State} {w : Word} {n : Nat} {fs : List FieldValue}

theorem decode_eq_error (h : ∀ r ∈ opcodeTable, r.hits w = true → (r.build w).wellFormed = false) : decode w = .error (rejectClass w) := by
  rw [decode, rawDecode]
  cases found : opcodeTable.find? (·.hits w) with
  | none => rfl
  | some r =>
    have illFormed := h r (List.mem_of_find?_eq_some found) (List.find?_some (p := fun r : Row => r.hits w) found)
    exact if_neg (Bool.eq_false_iff.1 illFormed)

theorem mem_openRows {r : Row} (hr : r ∈ opcodeTable) (hit : r.hits w = true) (hf : ∀ f ∈ fs, f.Of w) :
    r ∈ openRows (w.extractLsb' 26 6) fs := by
  refine List.mem_filter.2 ⟨mem_majorRows hr hit, List.all_eq_true.2 fun f mem => ?_⟩
  rw [← hf f mem]
  exact Row.admits_of_hits hit f.start f.width

/-- A word decodes to nothing when every row that its fields leave open makes an ill-formed instruction of it. -/
theorem decode_eq_error_of_verdicts (hop : w.extractLsb' 26 6 = BitVec.ofNat 6 n) (hf : ∀ f ∈ fs, f.Of w)
    (h : ∀ v ∈ verdicts (openRows (BitVec.ofNat 6 n) fs) w, v = false) : decode w = .error (rejectClass w) :=
  decode_eq_error fun _ hr hit => h _ (List.mem_map_of_mem (hop ▸ mem_openRows hr hit hf))

end

/-! ### Fields that leave no row open (30_encoding.md R334 to R345) -/

/-- The fields leave no row of the major opcode open. -/
abbrev Unassigned (op : BitVec 6) (fs : List FieldValue) : Prop := (openRows op fs).isEmpty = true

theorem verdicts_of_unassigned {op : BitVec 6} {fs : List FieldValue} {w : Word} (h : Unassigned op fs) :
    ∀ v ∈ verdicts (openRows op fs) w, v = false := by
  rw [verdicts, List.isEmpty_iff.1 h]
  exact fun _ none => nomatch none

theorem unassigned_majors : ∀ n ∈ [0x07, 0x15, 0x1D, 0x37, 0x3F, 0x0F], Unassigned (BitVec.ofNat 6 n) [] := by decide +kernel

theorem unassigned_00 : ∀ ext : BitVec 8, ext ∉ [0x00#8, 0x20, 0x60, 0x65, 0x6B, 0x73, 0xC3, 0x85, 0xC1, 0x25, 0xA5, 0xC2, 0xC6, 0x45] →
    Unassigned 0x00 [⟨5, 8, ext⟩] := by decide +kernel

theorem unassigned_00_mtctl : ∀ (ext : BitVec 8) (low : BitVec 5), ext = 0xC2#8 → low ≠ 0#5 →
    Unassigned 0x00 [⟨5, 8, ext⟩, ⟨0, 5, low⟩] := by
  decide +kernel

theorem unassigned_01_instruction : ∀ (bit : BitVec 1) (ext : BitVec 7), bit = 0#1 → ext ∉ [0x20#7, 0x08, 0x18, 0x09, 0x0A, 0x0B] →
    Unassigned 0x01 [⟨12, 1, bit⟩, ⟨6, 7, ext⟩] := by decide +kernel

theorem unassigned_01_data : ∀ (bit : BitVec 1) (ext : BitVec 8), bit = 1#1 →
    ext ∉ [0x60#8, 0x48, 0x49, 0x58, 0x4A, 0xCA, 0x4B, 0x4E, 0x4F, 0x46, 0xC6, 0x47, 0xC7, 0x4D, 0x4C] →
    Unassigned 0x01 [⟨12, 1, bit⟩, ⟨6, 8, ext⟩] := by decide +kernel

theorem unassigned_02 :
    ∀ ext ∈ [0x01#6, 0x02, 0x03, 0x06, 0x12, 0x20, 0x21, 0x23, 0x24, 0x25, 0x2C, 0x2D, 0x31, 0x32, 0x35, 0x36, 0x37, 0x3D, 0x3E, 0x3F],
    Unassigned 0x02 [⟨6, 6, ext⟩] := by decide +kernel

theorem unassigned_02_halfword : ∀ ext ∈ [0x04#6, 0x05, 0x07, 0x0B, 0x0C, 0x0D, 0x0F, 0x15, 0x16, 0x17, 0x1D, 0x1E, 0x1F],
    ∀ (d : BitVec 1) (c : BitVec 3) (f : BitVec 1), d = 1#1 ∨ c ≠ 0#3 ∨ f = 1#1 →
    Unassigned 0x02 [⟨6, 6, ext⟩, ⟨5, 1, d⟩, ⟨13, 3, c⟩, ⟨12, 1, f⟩] := by decide +kernel

theorem unassigned_03 : ∀ short store : BitVec 1, short = 0#1 → store = 1#1 → Unassigned 0x03 [⟨12, 1, short⟩, ⟨9, 1, store⟩] := by
  decide +kernel

theorem unassigned_34_pair : ∀ (ext : BitVec 3) (rest : BitVec 4), ext = 0#3 → rest ≠ 0#4 →
    Unassigned 0x34 [⟨10, 3, ext⟩, ⟨5, 4, rest⟩] := by
  decide +kernel

theorem unassigned_34_extract : ∀ (ext : BitVec 2) (rest : BitVec 3) (form : BitVec 2), ext = 2#2 → rest ≠ 0#3 ∨ form = 1#2 →
    Unassigned 0x34 [⟨11, 2, ext⟩, ⟨5, 3, rest⟩, ⟨8, 2, form⟩] := by decide +kernel

theorem unassigned_35 : ∀ (ext : BitVec 1) (rest : BitVec 3) (form : BitVec 2), ext = 0#1 → rest ≠ 0#3 ∨ form = 1#2 →
    Unassigned 0x35 [⟨11, 1, ext⟩, ⟨5, 3, rest⟩, ⟨8, 2, form⟩] := by decide +kernel

theorem unassigned_3A : ∀ (ext : BitVec 3) (bit : BitVec 1), ext = 3#3 ∨ (ext = 7#3 ∧ bit = 0#1) →
    Unassigned 0x3A [⟨13, 3, ext⟩, ⟨12, 1, bit⟩] := by
  decide +kernel

theorem unassigned_3E : ∀ (first second third : BitVec 1) (ext : BitVec 2), first = 1#1 → third = 1#1 ∨ (second = 0#1 ∧ ext = 3#2) →
    Unassigned 0x3E [⟨15, 1, first⟩, ⟨14, 1, second⟩, ⟨13, 1, third⟩, ⟨10, 2, ext⟩] := by decide +kernel

theorem unassigned_0B : ∀ uid : BitVec 3, uid = 1#3 → Unassigned 0x0B [⟨6, 3, uid⟩] := by decide +kernel

theorem unassigned_0C : ∀ (uid : BitVec 3) (cls : BitVec 2) (sub ext : BitVec 3), uid = 0#3 →
    (cls = 0#2 ∧ sub = 1#3) ∨ (cls = 1#2 ∧ ext = 4#3) ∨ (cls = 3#2 ∧ 4 ≤ sub.toNat) →
    Unassigned 0x0C [⟨6, 3, uid⟩, ⟨9, 2, cls⟩, ⟨13, 3, sub⟩, ⟨15, 3, ext⟩] := by decide +kernel

theorem unassigned_0C_monitor : ∀ (uid : BitVec 3) (sub : BitVec 5), uid = 2#3 → sub ≠ 1#5 → sub ≠ 3#5 →
    Unassigned 0x0C [⟨6, 3, uid⟩, ⟨9, 5, sub⟩] := by decide +kernel

theorem unassigned_0E : ∀ (cls : BitVec 2) (sub ext : BitVec 3) (low : BitVec 1),
    (cls = 0#2 ∧ sub.toNat < 2) ∨ (cls = 1#2 ∧ ext = 4#3) ∨ (cls = 2#2 ∧ low = 1#1) ∨ (cls = 3#2 ∧ 4 ≤ sub.toNat) →
    Unassigned 0x0E [⟨9, 2, cls⟩, ⟨13, 3, sub⟩, ⟨15, 3, ext⟩, ⟨5, 1, low⟩] := by decide +kernel

theorem unassigned_0E_multiply : ∀ (cls : BitVec 2) (half : BitVec 1) (sub : BitVec 3), cls = 3#2 → half = 1#1 → sub ≠ 2#3 →
    Unassigned 0x0E [⟨9, 2, cls⟩, ⟨8, 1, half⟩, ⟨13, 3, sub⟩] := by decide +kernel

/-! ### Fields that leave only rows with a check open (43_computation.md R540, R541, R560; 49_floating_point.md R839 to R843) -/

section
variable (w : Word)

theorem verdicts_logical : ∀ ext ∈ [0x00#6, 0x08, 0x09, 0x0A],
    verdicts (openRows 0x02 [⟨6, 6, ext⟩]) w = [logicalCondOk (w.extractLsb' 13 3)] := by
  simp only [List.forall_mem_cons]
  exact ⟨rfl, rfl, rfl, rfl, fun _ h => nomatch h⟩

theorem verdicts_unit : ∀ ext ∈ [0x26#6, 0x27, 0x2E, 0x2F],
    verdicts (openRows 0x02 [⟨6, 6, ext⟩]) w = [unitCondOk (w.extractLsb' 13 3) (w.extractLsb' 5 1)] := by
  simp only [List.forall_mem_cons]
  exact ⟨rfl, rfl, rfl, rfl, fun _ h => nomatch h⟩

theorem verdicts_uxor : verdicts (openRows 0x02 [⟨6, 6, 0x0E#6⟩]) w = [uxorCondOk (w.extractLsb' 13 3) (w.extractLsb' 5 1)] := rfl

/-- The formats that a word of opcode 0C names: those of a conversion, and the one of every other operation. -/
theorem verdicts_format :
    let format := fmtOk (w.extractLsb' 11 2)
    let conversion := fmtOk (w.extractLsb' 13 2) && format
    verdicts (openRows 0x0C [⟨6, 3, 0#3⟩, ⟨11, 2, 2#2⟩]) w = [format, format, format, format, format, format,
      conversion && w.extractLsb' 13 2 != w.extractLsb' 11 2, conversion, conversion, conversion, conversion, conversion, conversion,
      format, format, format, format, format] := rfl

theorem verdicts_conversion :
    let conversion := fmtOk (w.extractLsb' 13 2) && fmtOk (w.extractLsb' 11 2)
    verdicts (openRows 0x0C [⟨6, 3, 0#3⟩, ⟨9, 2, 1#2⟩]) w =
      [conversion && w.extractLsb' 13 2 != w.extractLsb' 11 2, conversion, conversion, conversion, conversion, conversion, conversion] := rfl

theorem verdicts_floatConversion : verdicts (openRows 0x0C [⟨6, 3, 0#3⟩, ⟨9, 2, 1#2⟩, ⟨15, 3, 0#3⟩]) w =
    [fmtOk (w.extractLsb' 13 2) && fmtOk (w.extractLsb' 11 2) && w.extractLsb' 13 2 != w.extractLsb' 11 2] := rfl

theorem verdicts_test : verdicts (openRows 0x0C [⟨6, 3, 0#3⟩, ⟨9, 2, 2#2⟩, ⟨5, 1, 1#1⟩]) w =
    [ftestOk (w.extractLsb' 13 3) (w.extractLsb' 0 5)] := rfl

theorem verdicts_extendedConversion :
    verdicts (openRows 0x0E [⟨9, 2, 1#2⟩, ⟨15, 3, 0#3⟩]) w = [w.extractLsb' 13 1 != w.extractLsb' 11 1] := rfl

end

/-! ### The opcodes and fields that leave no word unassigned -/

/-- The row requires no value of a bit outside the fields. -/
def onlyReads (r : Row) (fs : List FieldValue) : Bool :=
  (List.range 32).all fun i => (!(r.mask.getLsbD i) && !(r.bits.getLsbD i)) || fs.any fun f => f.start ≤ i && i < f.start + f.width

theorem getLsbD_of_admits {r : Row} {w : Word} {start n i : Nat} (h : r.admits start (w.extractLsb' start n) = true) (lower : start ≤ i)
    (upper : i < start + n) : (w.getLsbD i && r.mask.getLsbD i) = r.bits.getLsbD i := by
  have bit := congrArg (·.getLsbD (i - start)) (beq_iff_eq.1 h)
  simpa [BitVec.getLsbD_extractLsb', show i - start < n by omega, Nat.add_sub_cancel' lower] using bit

/-- A word belongs to a row that all the fields it reads admit. -/
theorem hits_of_onlyReads {r : Row} {w : Word} {fs : List FieldValue} (reads : onlyReads r fs = true) (hf : ∀ f ∈ fs, f.Of w)
    (admits : ∀ f ∈ fs, r.admits f.start f.value = true) : r.hits w = true := by
  refine Row.hits_iff.2 (BitVec.eq_of_getLsbD_eq fun i hi => ?_)
  rw [BitVec.getLsbD_and]
  have covered := List.all_eq_true.1 reads i (List.mem_range.2 hi)
  simp only [Bool.or_eq_true, Bool.and_eq_true, Bool.not_eq_true', List.any_eq_true, decide_eq_true_eq] at covered
  obtain ⟨unread, zero⟩ | ⟨f, hmem, lower, upper⟩ := covered
  · rw [unread, zero, Bool.and_false]
  · have admitted := admits f hmem
    rw [← hf f hmem] at admitted
    exact getLsbD_of_admits admitted lower upper

/-- Some row of the major opcode reads these fields alone and admits them. -/
abbrev Covers (op : BitVec 6) (fs : List FieldValue) : Prop := (openRows op fs).any (onlyReads · (⟨26, 6, op⟩ :: fs)) = true

theorem exists_hits_of_covers {w : Word} {op : BitVec 6} {fs : List FieldValue} (h : Covers op fs) (hop : w.extractLsb' 26 6 = op)
    (hf : ∀ f ∈ fs, f.Of w) : ∃ r ∈ majorRows op, r.hits w = true := by
  obtain ⟨r, hopen, reads⟩ := List.any_eq_true.1 h
  obtain ⟨hr, admitted⟩ := List.mem_filter.1 hopen
  have holds : ∀ f ∈ ⟨26, 6, op⟩ :: fs, FieldValue.Of f w := List.forall_mem_cons.2 ⟨hop, hf⟩
  have admits : ∀ f ∈ (⟨26, 6, op⟩ : FieldValue) :: fs, r.admits f.start f.value = true :=
    List.forall_mem_cons.2 ⟨(List.mem_filter.1 hr).2, List.all_eq_true.1 admitted⟩
  exact ⟨r, hr, hits_of_onlyReads reads holds admits⟩

theorem covers_complete : ∀ n ∈ [0x04, 0x09, 0x36, 0x3C, 0x3D], ∀ (mid : BitVec 4) (uid : BitVec 3),
    Covers (BitVec.ofNat 6 n) [⟨9, 4, mid⟩, ⟨6, 3, uid⟩] := by decide +kernel

theorem covers_0B : ∀ (mid : BitVec 4) (uid : BitVec 3), uid ≠ 1#3 → Covers 0x0B [⟨9, 4, mid⟩, ⟨6, 3, uid⟩] := by decide +kernel

/-- No row of these opcodes has a check. -/
theorem verdicts_complete (w : Word) : ∀ n ∈ [0x04, 0x09, 0x36, 0x3C, 0x3D], ∀ v ∈ verdicts (majorRows (BitVec.ofNat 6 n)) w, v = true := by
  have all {rows : List Row} (k : Nat) (h : verdicts rows w = List.replicate k true) : ∀ v ∈ verdicts rows w, v = true :=
    fun v hv => List.eq_of_mem_replicate (h ▸ hv)
  simp only [List.forall_mem_cons]
  exact ⟨all 4 rfl, all 12 rfl, all 1 rfl, all 1 rfl, all 1 rfl, fun _ h => nomatch h⟩

theorem decode_complete {w : Word} {n : Nat} (hn : n ∈ [0x04, 0x09, 0x36, 0x3C, 0x3D]) (hop : w.extractLsb' 26 6 = BitVec.ofNat 6 n) :
    ∃ i, decode w = .ok i := by
  obtain ⟨r, hr, hit⟩ := exists_hits_of_covers (covers_complete n hn (w.extractLsb' 9 4) (w.extractLsb' 6 3)) hop (by simp [FieldValue.Of])
  exact ⟨_, decode_of_hits (mem_opcodeTable hr) hit (verdicts_complete w n hn _ (List.mem_map_of_mem hr))⟩

/-! ### The words of the table's rows (30_encoding.md R371) -/

theorem assigned_rows : ∀ r ∈ opcodeTable, ∃ g ∈ assignedWords, g.1 = r.mask ∧ r.bits ∈ g.2 := by decide +kernel

theorem assigned_of_hits {r : Row} {w : Word} (hr : r ∈ opcodeTable) (hit : r.hits w = true) : Assigned w := by
  obtain ⟨g, hg, mask, bits⟩ := assigned_rows r hr
  exact ⟨g, hg, by rwa [mask, Row.hits_iff.1 hit]⟩

theorem decode_of_not_assigned {w : Word} (h : ¬Assigned w) : decode w = .error (rejectClass w) :=
  decode_eq_error fun _ hr hit => absurd (assigned_of_hits hr hit) h

theorem uid_of_not_assigned {w : Word} (h : ¬Assigned w) (hop : w.extractLsb' 26 6 = 0x0B#6) : w.extractLsb' 6 3 = 1#3 := by
  by_contra uid
  obtain ⟨r, hr, hit⟩ := exists_hits_of_covers (covers_0B (w.extractLsb' 9 4) _ uid) hop (by simp [FieldValue.Of])
  exact h (assigned_of_hits (mem_opcodeTable hr) hit)

/-! ### Conditions and formats that are undefined -/

theorem logicalCondOk_undefined : ∀ c ∈ [4#3, 5#3, 6#3], logicalCondOk c = false := by decide

theorem unitCondOk_undefined : ∀ c ∈ [1#3, 5#3], unitCondOk c 0#1 = false := by decide

theorem uxorCondOk_undefined : ∀ (c : BitVec 3) (d : BitVec 1), 4 ≤ c.toNat ∨ (c = 1#3 ∧ d = 0#1) → uxorCondOk c d = false := by decide

theorem four_le_of_mem : ∀ sub ∈ [4#3, 5#3, 6#3], 4 ≤ sub.toNat := by decide

theorem fmtOk_undefined : fmtOk 2#2 = false := rfl

theorem ftestOk_undefined : ∀ (y : BitVec 3) (c : BitVec 5),
    (y ≠ 1#3 ∧ c ≠ 0#5) ∨ c ∉ [0#5, 1#5, 2#5, 5#5, 6#5, 9#5, 13#5, 17#5] → ftestOk y c = false := by decide

/-! ### O3 -/

section
variable {s : State} {w : Word} {fs : List FieldValue}

/-- A word outside the assists that decodes to nothing is illegal. -/
theorem illegalWord_of_error (hB : w >>> 26 ≠ 0x0B#32) (hC : w >>> 26 ≠ 0x0C#32) (hE : w >>> 26 ≠ 0x0E#32)
    (h : decode w = .error (rejectClass w)) : IllegalWord s w := by
  refine illegalWord_of_decode (h.trans (congrArg _ (rejectClass_of_ne ?_ ?_ ?_)))
  · exact mt (major_eq_iff (by decide)).2 hB
  · exact mt (major_eq_iff (by decide)).2 hC
  · exact mt (major_eq_iff (by decide)).2 hE

theorem illegalWord_of_verdicts (n : Nat) (hop : w >>> 26 = BitVec.ofNat 32 n)
    (h : ∀ v ∈ verdicts (openRows (BitVec.ofNat 6 n) fs) w, v = false)
    (hn : n < 64 ∧ BitVec.ofNat 32 n ∉ [0x0B#32, 0x0C#32, 0x0E#32] := by decide) (hf : ∀ f ∈ fs, f.Of w := by simp [FieldValue.Of]) :
    IllegalWord s w := by
  obtain ⟨lt, other⟩ := hn
  simp only [← hop, List.mem_cons, List.not_mem_nil, or_false, not_or] at other
  obtain ⟨hB, hC, hE⟩ := other
  exact illegalWord_of_error hB hC hE (decode_eq_error_of_verdicts ((major_eq_iff lt).1 hop) hf h)

theorem illegalWord_of_unassigned (n : Nat) (hop : w >>> 26 = BitVec.ofNat 32 n) (h : Unassigned (BitVec.ofNat 6 n) fs)
    (hn : n < 64 ∧ BitVec.ofNat 32 n ∉ [0x0B#32, 0x0C#32, 0x0E#32] := by decide) (hf : ∀ f ∈ fs, f.Of w := by simp [FieldValue.Of]) :
    IllegalWord s w :=
  illegalWord_of_verdicts n hop (verdicts_of_unassigned h) hn hf

/-- An instruction of opcode 02 whose condition fails its check. -/
theorem illegalWord_of_check {ext : BitVec 6} {check : Bool} (hop : w >>> 26 = 0x02#32) (hext : w.extractLsb' 6 6 = ext)
    (h : verdicts (openRows 0x02#6 [⟨6, 6, ext⟩]) w = [check]) (undefined : check = false) : IllegalWord s w := by
  refine illegalWord_of_verdicts 0x02 hop ?_ (fs := [⟨6, 6, ext⟩]) (hf := by simp [FieldValue.Of, hext])
  rw [h, undefined]
  simp

theorem undefinedFpWord_of_error (fp : (w.extractLsb' 26 6 = 0x0C#6 ∧ w.extractLsb' 6 3 = 0#3) ∨ w.extractLsb' 26 6 = 0x0E#6)
    (unreserved : rejectClass w ≠ .fpReserved) (h : decode w = .error (rejectClass w)) : UndefinedFpWord s w :=
  undefinedFpWord_of_decode (h.trans (congrArg _ (rejectClass_of_ne_reserved fp unreserved)))

/-- An operation of opcode 0C that no row gives a well-formed instruction. -/
theorem undefinedFpWord_operation (hop : w >>> 26 = 0x0C#32) (unit : w.extractLsb' 6 3 = 0#3)
    (unreserved : w.extractLsb' 9 2 = 3#2 → w.extractLsb' 13 3 ∉ [4#3, 5#3, 6#3])
    (h : ∀ v ∈ verdicts (openRows 0x0C fs) w, v = false) (hf : ∀ f ∈ fs, f.Of w) : UndefinedFpWord s w := by
  have opcode := (major_eq_iff (by decide)).1 hop
  refine undefinedFpWord_of_error (.inl ⟨opcode, unit⟩) ?_ (decode_eq_error_of_verdicts (n := 0x0C) opcode hf h)
  rw [rejectClass_operation opcode unit]
  simp only [ne_eq, ite_eq_left_iff, reduceCtorEq, imp_false, not_not]
  rintro ⟨cls, -, sub⟩
  exact unreserved cls (by simpa using sub)

/-- An operation of opcode 0E that no row gives a well-formed instruction. -/
theorem undefinedFpWord_extended (hop : w >>> 26 = 0x0E#32)
    (unreserved : w.extractLsb' 9 2 = 3#2 → w.extractLsb' 8 1 = 0#1 → w.extractLsb' 13 3 ∉ [5#3, 6#3])
    (h : ∀ v ∈ verdicts (openRows 0x0E fs) w, v = false) (hf : ∀ f ∈ fs, f.Of w) : UndefinedFpWord s w := by
  have opcode := (major_eq_iff (by decide)).1 hop
  refine undefinedFpWord_of_error (.inr opcode) ?_ (decode_eq_error_of_verdicts (n := 0x0E) opcode hf h)
  rw [rejectClass_extended opcode]
  simp only [ne_eq, ite_eq_left_iff, reduceCtorEq, imp_false, not_not]
  rintro ⟨cls, half, -, sub⟩
  exact unreserved cls half (by simpa using sub)

theorem reservedFpWord_of_class (h : rejectClass w = .fpReserved) : ReservedFpWord s w := by
  refine reservedFpWord_of_decode (Eq.trans ?_ (congrArg _ h))
  obtain ⟨cls, -, ⟨hop, unit, sub⟩ | ⟨hop, -, sub⟩⟩ := rejectClass_eq_fpReserved_iff.1 h
  · exact decode_eq_error_of_verdicts (n := 0x0C) ((major_eq_iff (by decide)).1 hop) (by simp [FieldValue.Of])
      (verdicts_of_unassigned (unassigned_0C _ _ _ (w.extractLsb' 15 3) unit (.inr (.inr ⟨cls, four_le_of_mem _ sub⟩))))
  · have large := four_le_of_mem _ (List.mem_cons_of_mem _ sub)
    exact decode_eq_error_of_verdicts (n := 0x0E) ((major_eq_iff (by decide)).1 hop) (by simp [FieldValue.Of])
      (verdicts_of_unassigned (unassigned_0E _ _ (w.extractLsb' 15 3) (w.extractLsb' 5 1) (.inr (.inr (.inr ⟨cls, large⟩)))))

theorem undefinedFpWord_subopcode (hop : w >>> 26 = 0x0C#32) (unit : w.extractLsb' 6 3 = 0#3)
    (undefined : (w.extractLsb' 9 2 = 0#2 ∧ w.extractLsb' 13 3 = 1#3) ∨ (w.extractLsb' 9 2 = 1#2 ∧ w.extractLsb' 15 3 = 4#3) ∨
      (w.extractLsb' 9 2 = 3#2 ∧ w.extractLsb' 13 3 = 7#3)) : UndefinedFpWord s w := by
  have table := unassigned_0C _ _ (w.extractLsb' 13 3) (w.extractLsb' 15 3) unit
    (undefined.imp_right (Or.imp_right fun ⟨cls, sub⟩ => ⟨cls, by simp [sub]⟩))
  refine undefinedFpWord_operation hop unit (fun cls => ?_) (verdicts_of_unassigned table) (by simp [FieldValue.Of])
  obtain ⟨zero, -⟩ | ⟨one, -⟩ | ⟨-, sub⟩ := undefined
  · simp [zero] at cls
  · simp [one] at cls
  · simp [sub]

theorem undefinedFpWord_format (hop : w >>> 26 = 0x0C#32) (unit : w.extractLsb' 6 3 = 0#3) (format : w.extractLsb' 11 2 = 2#2)
    (cls : w.extractLsb' 9 2 ≠ 3#2 ∨ (w.extractLsb' 13 3).toNat < 4) : UndefinedFpWord s w := by
  refine undefinedFpWord_operation hop unit (fun three sub => ?_) ?_ (fs := [⟨6, 3, 0#3⟩, ⟨11, 2, 2#2⟩])
    (by simp [FieldValue.Of, unit, format])
  · exact absurd (cls.resolve_left (not_not_intro three)) (four_le_of_mem _ sub).not_gt
  · rw [verdicts_format, format, fmtOk_undefined]
    simp

theorem undefinedFpWord_conversion (hop : w >>> 26 = 0x0C#32) (unit : w.extractLsb' 6 3 = 0#3) (cls : w.extractLsb' 9 2 = 1#2)
    (undefined : w.extractLsb' 13 2 = 2#2 ∨ (w.extractLsb' 15 3 = 0#3 ∧ w.extractLsb' 13 2 = w.extractLsb' 11 2)) :
    UndefinedFpWord s w := by
  obtain format | ⟨ext, same⟩ := undefined
  · refine undefinedFpWord_operation hop unit (by simp [cls]) ?_ (fs := [⟨6, 3, 0#3⟩, ⟨9, 2, 1#2⟩]) (by simp [FieldValue.Of, unit, cls])
    rw [verdicts_conversion, format, fmtOk_undefined]
    simp
  · refine undefinedFpWord_operation hop unit (by simp [cls]) ?_ (fs := [⟨6, 3, 0#3⟩, ⟨9, 2, 1#2⟩, ⟨15, 3, 0#3⟩])
      (by simp [FieldValue.Of, unit, cls, ext])
    rw [verdicts_floatConversion, same]
    simp

theorem undefinedFpWord_test (hop : w >>> 26 = 0x0C#32) (unit : w.extractLsb' 6 3 = 0#3) (cls : w.extractLsb' 9 2 = 2#2)
    (test : w.extractLsb' 5 1 = 1#1) (undefined : (w.extractLsb' 13 3 ≠ 1#3 ∧ w.extractLsb' 0 5 ≠ 0#5) ∨
      w.extractLsb' 0 5 ∉ [0#5, 1#5, 2#5, 5#5, 6#5, 9#5, 13#5, 17#5]) : UndefinedFpWord s w := by
  refine undefinedFpWord_operation hop unit (by simp [cls]) ?_ (fs := [⟨6, 3, 0#3⟩, ⟨9, 2, 2#2⟩, ⟨5, 1, 1#1⟩])
    (by simp [FieldValue.Of, unit, cls, test])
  rw [verdicts_test, ftestOk_undefined _ _ undefined]
  simp

theorem undefinedFpWord_extendedOperation (hop : w >>> 26 = 0x0E#32)
    (undefined : (w.extractLsb' 9 2 = 0#2 ∧ (w.extractLsb' 13 3).toNat < 2) ∨ (w.extractLsb' 9 2 = 1#2 ∧ w.extractLsb' 15 3 = 4#3) ∨
      (w.extractLsb' 9 2 = 2#2 ∧ w.extractLsb' 5 1 = 1#1) ∨
      (w.extractLsb' 9 2 = 1#2 ∧ w.extractLsb' 15 3 = 0#3 ∧ w.extractLsb' 13 1 = w.extractLsb' 11 1) ∨
      (w.extractLsb' 9 2 = 3#2 ∧ (w.extractLsb' 13 3 = 4#3 ∨ w.extractLsb' 13 3 = 7#3)) ∨
      (w.extractLsb' 9 2 = 3#2 ∧ w.extractLsb' 8 1 = 1#1 ∧ w.extractLsb' 13 3 ≠ 2#3)) : UndefinedFpWord s w := by
  have table (unreserved : w.extractLsb' 9 2 = 3#2 → w.extractLsb' 8 1 = 0#1 → w.extractLsb' 13 3 ∉ [5#3, 6#3])
      (h : (w.extractLsb' 9 2 = 0#2 ∧ (w.extractLsb' 13 3).toNat < 2) ∨ (w.extractLsb' 9 2 = 1#2 ∧ w.extractLsb' 15 3 = 4#3) ∨
        (w.extractLsb' 9 2 = 2#2 ∧ w.extractLsb' 5 1 = 1#1) ∨ (w.extractLsb' 9 2 = 3#2 ∧ 4 ≤ (w.extractLsb' 13 3).toNat)) :
      UndefinedFpWord s w :=
    undefinedFpWord_extended hop unreserved (verdicts_of_unassigned (unassigned_0E _ _ _ _ h)) (by simp [FieldValue.Of])
  obtain ⟨cls, sub⟩ | ⟨cls, ext⟩ | ⟨cls, low⟩ | ⟨cls, ext, same⟩ | ⟨cls, sub⟩ | ⟨cls, half, sub⟩ := undefined
  · exact table (by simp [cls]) (.inl ⟨cls, sub⟩)
  · exact table (by simp [cls]) (.inr (.inl ⟨cls, ext⟩))
  · exact table (by simp [cls]) (.inr (.inr (.inl ⟨cls, low⟩)))
  · refine undefinedFpWord_extended hop (by simp [cls]) ?_ (fs := [⟨9, 2, 1#2⟩, ⟨15, 3, 0#3⟩]) (by simp [FieldValue.Of, cls, ext])
    rw [verdicts_extendedConversion, same]
    simp
  · obtain sub | sub := sub
    · exact table (by simp [sub]) (.inr (.inr (.inr ⟨cls, by simp [sub]⟩)))
    · exact table (by simp [sub]) (.inr (.inr (.inr ⟨cls, by simp [sub]⟩)))
  · exact undefinedFpWord_extended hop (by simp [half]) (verdicts_of_unassigned (unassigned_0E_multiply _ _ _ cls half sub))
      (by simp [FieldValue.Of])

theorem undefinedFpWord_of_reference (hop : w >>> 26 = 0x0B#32) (unit : w.extractLsb' 6 3 = 1#3) : UndefinedFpWord s w := by
  have opcode := (major_eq_iff (by decide)).1 hop
  refine undefinedFpWord_of_decode ((decode_eq_error_of_verdicts (n := 0x0B) opcode ?_ (verdicts_of_unassigned (unassigned_0B _ unit))).trans
    (congrArg _ (rejectClass_reference opcode unit)))
  simp [FieldValue.Of]

theorem undefinedPmWord_of_error (hop : w >>> 26 = 0x0C#32) (unit : w.extractLsb' 6 3 = 2#3) (h : decode w = .error (rejectClass w)) :
    UndefinedPmWord s w :=
  undefinedPmWord_of_decode (h.trans (congrArg _ (rejectClass_monitor ((major_eq_iff (by decide)).1 hop) unit)))

end

/-- Settles O3: in each clause the fields leave no row open or rows whose checks fail, and the class of the word says what it does. -/
theorem undefinedOpcodes : Obligations.UndefinedOpcodes := by
  rintro s w _ _ _ _ _ _ _ _ rsv rfl rfl rfl rfl rfl rfl rfl rfl hrsv
  have reserved : rsv ↔ rejectClass w = .fpReserved := by rw [hrsv, rejectClass_eq_fpReserved_iff]
  refine ⟨?_, ?_, ?_, ?_, ?_, ?_, ?_, ?_, ?_, ?_, ?_, ?_, ?_, ?_, ?_, ?_, ?_, ?_, ?_, ?_, ?_, ?_, ?_, ?_, ?_, ?_, ?_, ?_⟩
  · exact fun unassigned hB hC hE => illegalWord_of_error hB hC hE (decode_of_not_assigned unassigned)
  · intro unassigned fp unreserved
    refine undefinedFpWord_of_error (fp.imp ?_ (major_eq_iff (by decide)).1) (mt reserved.2 unreserved) (decode_of_not_assigned unassigned)
    exact And.imp_left (major_eq_iff (by decide)).1
  · exact fun unassigned hop => undefinedFpWord_of_reference hop (uid_of_not_assigned unassigned ((major_eq_iff (by decide)).1 hop))
  · exact fun unassigned hop unit => undefinedPmWord_of_error hop unit (decode_of_not_assigned unassigned)
  · intro hop
    obtain ⟨n, hn, hop⟩ := List.mem_map.1 (show w >>> 26 ∈ [0x04, 0x09, 0x36, 0x3C, 0x3D].map (BitVec.ofNat 32) from hop)
    exact decode_complete hn ((major_eq_iff (by clear hop; revert n; decide)).1 hop.symm)
  · intro hop
    obtain ⟨n, hn, hop⟩ := List.mem_map.1 (show w >>> 26 ∈ [0x07, 0x15, 0x1D, 0x37, 0x3F, 0x0F].map (BitVec.ofNat 32) from hop)
    exact illegalWord_of_unassigned n hop.symm (unassigned_majors n hn) (by clear hop; revert n; decide)
  · exact fun hop ext => illegalWord_of_unassigned 0x00 hop (unassigned_00 _ ext)
  · exact fun hop ext low => illegalWord_of_unassigned 0x00 hop (unassigned_00_mtctl _ _ ext low)
  · exact fun hop bit ext => illegalWord_of_unassigned 0x01 hop (unassigned_01_instruction _ _ bit ext)
  · exact fun hop bit ext => illegalWord_of_unassigned 0x01 hop (unassigned_01_data _ _ bit ext)
  · exact fun hop ext => illegalWord_of_unassigned 0x02 hop (unassigned_02 _ ext)
  · exact fun hop ext c => illegalWord_of_check hop rfl (verdicts_logical w _ ext) (logicalCondOk_undefined _ c)
  · exact fun hop ext word c => illegalWord_of_check hop rfl (verdicts_unit w _ ext) (word ▸ unitCondOk_undefined _ c)
  · exact fun hop ext c => illegalWord_of_check hop ext (verdicts_uxor w) (uxorCondOk_undefined _ _ c)
  · exact fun hop ext rest => illegalWord_of_unassigned 0x02 hop (unassigned_02_halfword _ ext _ _ _ rest)
  · exact fun hop short store => illegalWord_of_unassigned 0x03 hop (unassigned_03 _ _ short store)
  · exact fun hop ext rest => illegalWord_of_unassigned 0x34 hop (unassigned_34_pair _ _ ext rest)
  · rintro (⟨hop, ext⟩ | ⟨hop, ext⟩) rest
    · exact illegalWord_of_unassigned 0x34 hop (unassigned_34_extract _ _ _ ext rest)
    · exact illegalWord_of_unassigned 0x35 hop (unassigned_35 _ _ _ ext rest)
  · exact fun hop ext => illegalWord_of_unassigned 0x3A hop (unassigned_3A _ _ ext)
  · exact fun hop first ext => illegalWord_of_unassigned 0x3E hop (unassigned_3E _ _ _ _ first ext)
  · exact undefinedFpWord_subopcode
  · exact undefinedFpWord_format
  · exact undefinedFpWord_conversion
  · exact undefinedFpWord_test
  · exact undefinedFpWord_extendedOperation
  · exact undefinedFpWord_of_reference
  · exact fun h => reservedFpWord_of_class (reserved.1 h)
  · exact fun hop unit pmdis pmenb => undefinedPmWord_of_error hop unit (decode_eq_error_of_verdicts (n := 0x0C)
      ((major_eq_iff (by decide)).1 hop) (by simp [FieldValue.Of]) (verdicts_of_unassigned (unassigned_0C_monitor _ _ unit pmdis pmenb)))

end Sys2Proof.Machine
end

section
/-! SUPPORT. The loads and stores of the general registers by their forms: at a place in memory, at IO_EIR, and at an absolute address, for
O25, O26 and O27. -/

namespace Sys2Proof.Machine

/-! ### The base register after the reference (40_memory_reference.md R402, R404) -/

theorem writeBack_of_newBase {e : Ea} {v : Dword} (h : e.newBase = some v) (s : State) : e.writeBack s = s.writeGr e.b v := by
  rw [Ea.writeBack, h]

theorem State.longModifyEa_writeBack (s : State) (b : BitVec 5) (sr : BitVec 2) (im14 : BitVec 14) (d : State) :
    (s.longModifyEa b sr im14).writeBack d = d.writeGr b (s.readGr b + s.disp14 sr im14) :=
  writeBack_of_newBase (s.longModifyEa_address b sr im14).1 d

theorem State.long11Ea_writeBack (s : State) (b : BitVec 5) (sr : BitVec 2) (im11a : BitVec 11) (iv : BitVec 1) (d : State) :
    (s.long11Ea b sr im11a iv).writeBack d = d.writeGr b (s.readGr b + s.disp11 sr im11a iv) :=
  writeBack_of_newBase (s.long11Ea_address b sr im11a iv).1 d

/-! ### How a load or a store ends -/

section
variable {i : Instr} {s : State} {e : Ea} {n pa : Nat} {v : Dword} (hp : Plain s)
include hp

/-- A load whose datum is at hand: base register first, target last (R402). -/
theorem completes_of_loaded {t : BitVec 5} (hx : exec i s = complete s (done s ((e.writeBack s).writeGr t v) false)) :
    Completes i s ((e.writeBack s).writeGr t v) false :=
  completes_of_done hp hx (by simp) (by simp) (by simp) (by simp)

/-- A store whose place is memory: the bytes, then the base register (R402). -/
theorem stores_of_stored (hm : s.mem.wf = true)
    (hx : exec i s = complete s (done s (e.writeBack { s with mem := s.mem.store (s.flag Psw.E) pa n v }) false)) :
    Stores i s (e.writeBack s) n pa v := by
  rw [writeBack_mem_comm] at hx
  exact stores_of_done hp hm hx (by simp) (by simp) (by simp) (by simp)

/-- A word store whose place is IO_EIR: the request, then the base register (60_exceptions.md R1058). -/
theorem completes_of_requested {w : BitVec 32} (hx : exec i s = complete s (done s (e.writeBack (withIoEir s w)) false)) :
    Completes i s (e.writeBack (withIoEir s w)) false :=
  completes_of_done hp hx (writeBack_iaoqBack e _) (writeBack_iasqBack e _) (writeBack_rctr e _) (writeBack_itmr e _)

end

/-! ### IO_EIR (60_exceptions.md R1058) -/

theorem State.writeIoEir_low32 (s : State) (v : Dword) : s.writeIoEir (low32 v) = withIoEir s (v.extractLsb' 0 32) := by
  have number : (low32 v).toNat = (v.extractLsb' 0 32).toNat := by
    rw [toNat_low32, toNat_extractLsb'_eq_div_mod, Nat.pow_zero, Nat.div_one]
  rw [State.writeIoEir, withIoEir, number]
  rfl

theorem storeAt_ioEir {s : State} {pa v : Dword} (io : region pa = .io) (ha : pa = Config.ioEirAddress) :
    s.storeAt pa 4 v = .ok (withIoEir s (v.extractLsb' 0 32)) := by
  rw [State.storeAt, if_pos (by simp [io, ← ha]), State.writeIoEir_low32]

/-! ### Loads and stores with a space (R410 to R413, R415 to R418) -/

section
variable {i : Instr} {s : State} {e : Ea} {n pa : Nat} {r : BitVec 5} (hp : Plain s)
include hp

theorem completes_of_load (hr : r ≠ 0#5) (hx : exec i s = complete s (s.loadOrPrefetch e n r)) (reaches : Reaches s .load e n pa) :
    Completes i s ((e.writeBack s).writeGr r (s.mem.load (s.flag Psw.E) pa n)) false := by
  obtain ⟨a, ha, loaded⟩ := memLoad_reaches reaches
  refine completes_of_loaded hp (hx.trans ?_)
  rw [State.loadOrPrefetch, if_neg hr, State.loadForm, ha]
  show complete s (s.memLoad a n >>= _) = _
  rw [loaded]
  rfl

/-- A load to general register 0 makes no reference (R405). -/
theorem completes_of_prefetch (hx : exec i s = complete s (s.loadOrPrefetch e n 0#5)) : Completes i s (e.writeBack s) false :=
  completes_of_done hp hx (by simp) (by simp) (by simp) (by simp)

theorem stores_of_store (hm : s.mem.wf = true) (hx : exec i s = complete s (s.storeForm e n r)) (reaches : Reaches s .store e n pa) :
    Stores i s (e.writeBack s) n pa (s.readGr r) := by
  obtain ⟨a, ha, stored⟩ := memStore_reaches (v := s.readGr r) reaches
  refine stores_of_stored hp hm (hx.trans ?_)
  rw [State.storeForm, ha]
  show complete s (s.memStore a n (s.readGr r) >>= _) = _
  rw [stored]
  rfl

theorem completes_of_ioEirStore (hx : exec i s = complete s (s.storeForm e 4 r)) (reaches : ReachesIoEir s e) :
    Completes i s (e.writeBack (withIoEir s ((s.readGr r).extractLsb' 0 32))) false := by
  obtain ⟨a, p, ha, hc, io, address⟩ := reaches
  refine completes_of_requested hp (hx.trans ?_)
  rw [State.storeForm, ha]
  show complete s ((s.check .store a 4 >>= _) >>= _) = _
  rw [hc]
  show complete s (s.storeAt p.pa 4 (s.readGr r) >>= _) = _
  rw [storeAt_ioEir io address]
  rfl

end

/-! ### Absolute loads and stores (R420 to R423) -/

section
variable {s : State} {offset : Dword} {n : Nat}

theorem State.checkAbsolute_aligned (aligned : (s.usedOffset offset).toNat % n = 0) :
    s.checkAbsolute offset n = .ok ⟨s.absolute (s.usedOffset offset), false⟩ :=
  if_neg (by simpa using aligned)

theorem State.checkAbsolute_unaligned (unaligned : (s.usedOffset offset).toNat % n ≠ 0) :
    s.checkAbsolute offset n = .error (.refuse .unalignedAbsolute) :=
  if_pos (by simpa using unaligned)

end

theorem memory_of_eq_ofNat {x : Dword} {pa : Nat} (hx : x = BitVec.ofNat 64 pa) (low : pa < 0xF000000000000000) :
    region x = .memory ∧ x.toNat = pa := by
  have number : x.toNat = pa := by rw [hx, BitVec.toNat_ofNat]; omega
  exact ⟨(region_eq_memory_iff x).2 (by omega), number⟩

/-! An instruction that makes an absolute reference at level 0 and goes on with its place. -/

section
variable {i : Instr} {s : State} {offset : Dword} {n : Nat} {f : Place → Res Done}
  (hx : exec i s = complete s (s.privileged >>= fun _ => s.checkAbsolute offset n >>= f)) (level : s.priv = 0#2)
include hx level

theorem exec_of_checkAbsolute {c : Res Place} (hc : s.checkAbsolute offset n = c) : exec i s = complete s (c >>= f) := by
  rw [hx, State.privileged, if_pos level, hc]
  rfl

theorem refused_of_unalignedAbsolute (unaligned : (s.usedOffset offset).toNat % n ≠ 0) : exec i s = .refused .unalignedAbsolute :=
  exec_of_checkAbsolute hx level (State.checkAbsolute_unaligned unaligned)

theorem exec_of_alignedAbsolute (aligned : (s.usedOffset offset).toNat % n = 0) :
    exec i s = complete s (f ⟨s.absolute (s.usedOffset offset), false⟩) :=
  exec_of_checkAbsolute hx level (State.checkAbsolute_aligned aligned)

end

section
variable {i : Instr} {s : State} {e : Ea} {n pa : Nat} {r : BitVec 5} (hp : Plain s) (level : s.priv = 0#2)
  (aligned : (s.usedOffset e.offset).toNat % n = 0)
include hp level aligned

theorem completes_of_absoluteLoad (hx : exec i s = complete s (s.loadAbsoluteForm e n r))
    (ha : s.absolute (s.usedOffset e.offset) = BitVec.ofNat 64 pa) (low : pa < 0xF000000000000000) :
    Completes i s ((e.writeBack s).writeGr r (s.mem.load (s.flag Psw.E) pa n)) false := by
  obtain ⟨memory, number⟩ := memory_of_eq_ofNat ha low
  refine completes_of_loaded hp ((exec_of_alignedAbsolute hx level aligned).trans ?_)
  rw [loadAt_memory memory, number]
  rfl

theorem stores_of_absoluteStore (hm : s.mem.wf = true) (hx : exec i s = complete s (s.storeAbsoluteForm e n r))
    (ha : s.absolute (s.usedOffset e.offset) = BitVec.ofNat 64 pa) (low : pa < 0xF000000000000000) :
    Stores i s (e.writeBack s) n pa (s.readGr r) := by
  obtain ⟨memory, number⟩ := memory_of_eq_ofNat ha low
  refine stores_of_stored hp hm ((exec_of_alignedAbsolute hx level aligned).trans ?_)
  rw [storeAt_memory memory, number]
  rfl

end

theorem completes_of_absoluteIoEirStore {i : Instr} {s : State} {e : Ea} {r : BitVec 5} (hp : Plain s) (level : s.priv = 0#2)
    (aligned : (s.usedOffset e.offset).toNat % 4 = 0) (hx : exec i s = complete s (s.storeAbsoluteForm e 4 r))
    (io : region (s.absolute (s.usedOffset e.offset)) = .io) (ha : s.absolute (s.usedOffset e.offset) = Config.ioEirAddress) :
    Completes i s (e.writeBack (withIoEir s ((s.readGr r).extractLsb' 0 32))) false := by
  refine completes_of_requested hp ((exec_of_alignedAbsolute hx level aligned).trans ?_)
  rw [storeAt_ioEir io ha]
  rfl

/-! ### O25, O26 and O27 -/

/-- Settles O25: every format is the one form of a load at its address, and that form with t = 0 only modifies the base register. -/
theorem loads : Obligations.Loads := by
  intro s b t x im5 sr cc im14 im11a im10a a m u iv hp
  have prefetch (n : Nat) {i : Instr} {e : Ea} {d : State} (hd : e.writeBack s = d)
      (hx : exec i s = complete s (s.loadOrPrefetch e n 0#5)) : Completes i s d false := hd ▸ completes_of_prefetch hp hx
  refine ⟨fun pa ht => ?_, prefetch 1 rfl rfl, prefetch 2 rfl rfl, prefetch 4 rfl rfl, prefetch 4 (s.longModifyEa_writeBack b sr im14 s) rfl,
    prefetch 4 (s.long11Ea_writeBack b sr im11a iv s) rfl, prefetch 8 rfl rfl, prefetch 1 rfl rfl, prefetch 2 rfl rfl, prefetch 4 rfl rfl,
    prefetch 8 rfl rfl, prefetch 1 rfl rfl, prefetch 2 rfl rfl, prefetch 4 rfl rfl, prefetch 8 rfl rfl⟩
  have load {i : Instr} {e : Ea} {n : Nat} {d : State} (hd : e.writeBack s = d) (hx : exec i s = complete s (s.loadOrPrefetch e n t))
      (reaches : Reaches s .load e n pa) : Completes i s (d.writeGr t (s.mem.load (s.flag Psw.E) pa n)) false :=
    hd ▸ completes_of_load hp ht hx reaches
  exact ⟨load rfl rfl, load rfl rfl, load rfl rfl, load (s.longModifyEa_writeBack b sr im14 s) rfl,
    load (s.long11Ea_writeBack b sr im11a iv s) rfl, load rfl rfl, load rfl rfl, load rfl rfl, load rfl rfl, load rfl rfl, load rfl rfl,
    load rfl rfl, load rfl rfl, load rfl rfl⟩

/-- Settles O26: every format is the one form of a store at its address, in memory and, for a word, at IO_EIR. -/
theorem storesComplete : Obligations.StoresComplete := by
  intro s b r im5 sr cc im14 im11a im10a a m iv pa hp hm
  have store {i : Instr} {e : Ea} {n : Nat} {d : State} (hd : e.writeBack s = d) (hx : exec i s = complete s (s.storeForm e n r))
      (reaches : Reaches s .store e n pa) : Stores i s d n pa (s.readGr r) := hd ▸ stores_of_store hp hm hx reaches
  refine ⟨store rfl rfl, store rfl rfl, store rfl rfl, store (s.longModifyEa_writeBack b sr im14 s) rfl,
    store (s.long11Ea_writeBack b sr im11a iv s) rfl, store rfl rfl, store rfl rfl, store rfl rfl, store rfl rfl, store rfl rfl, ?_⟩
  rintro requested rfl
  have request {i : Instr} {e : Ea} {d : State} (hd : e.writeBack (withIoEir s ((s.readGr r).extractLsb' 0 32)) = d)
      (hx : exec i s = complete s (s.storeForm e 4 r)) (reaches : ReachesIoEir s e) : Completes i s d false :=
    hd ▸ completes_of_ioEirStore hp hx reaches
  refine ⟨request rfl rfl, request (s.longModifyEa_writeBack b sr im14 _) rfl, request (s.long11Ea_writeBack b sr im11a iv _) rfl,
    request rfl rfl, ?_⟩
  rintro e off rfl rfl level aligned io address
  exact completes_of_absoluteIoEirStore hp level aligned rfl io address

/-- Settles O27: an aligned reference reaches its absolute address in memory, one off its alignment is refused. -/
theorem absoluteLoadsStores : Obligations.AbsoluteLoadsStores := by
  intro s b t r x im5 cc a m u pa hp hm level
  refine ⟨fun ha low => ⟨fun word => ⟨?_, ?_⟩, fun double => ⟨?_, ?_⟩⟩, fun word ha low => ?_, fun double ha low => ?_, fun word => ⟨?_, ?_⟩,
    fun double => ⟨?_, ?_⟩, fun word => ?_, fun double => ?_⟩
  · exact completes_of_absoluteLoad hp level word rfl ha low
  · exact stores_of_absoluteStore hp level word hm rfl ha low
  · exact completes_of_absoluteLoad hp level double rfl ha low
  · exact stores_of_absoluteStore hp level double hm rfl ha low
  · exact completes_of_absoluteLoad hp level word rfl ha low
  · exact completes_of_absoluteLoad hp level double rfl ha low
  · exact refused_of_unalignedAbsolute rfl level word
  · exact refused_of_unalignedAbsolute rfl level word
  · exact refused_of_unalignedAbsolute rfl level double
  · exact refused_of_unalignedAbsolute rfl level double
  · exact refused_of_unalignedAbsolute rfl level word
  · exact refused_of_unalignedAbsolute rfl level double

end Sys2Proof.Machine
end

section
/-! SUPPORT. The bytes that STBY and STDBY store, as the bytes of a shifted datum, for O29. -/

namespace Sys2Proof.Machine

/-! ### A part of the bytes of a datum (40_memory_reference.md R435, R436) -/

/-- With PSW[E] = 1 the byte at distance `k` does not depend on the size of the datum. -/
theorem byteOf_little (n k : Nat) (v : Dword) : byteOf true n k v = BitVec.ofNat 8 (v.toNat >>> (8 * k)) := rfl

theorem byteOf_big (n k : Nat) (v : Dword) : byteOf false n k v = BitVec.ofNat 8 (v.toNat >>> (8 * (n - 1 - k))) := rfl

theorem byteOf_drop (little : Bool) (n k j : Nat) (v : Dword) :
    byteOf little n (k + j) v = byteOf little (n - k) j (if little then v >>> (8 * k) else v) := by
  cases little
  case false => rw [byteOf_big, byteOf_big, if_neg Bool.false_ne_true, show n - 1 - (k + j) = n - k - 1 - j by omega]
  case true => rw [byteOf_little, byteOf_little, if_pos rfl, BitVec.toNat_ushiftRight, ← Nat.shiftRight_add, Nat.mul_add]

theorem byteOf_take (little : Bool) {n k j : Nat} (hj : j < k) (hk : k ≤ n) (v : Dword) :
    byteOf little n j v = byteOf little k j (if little then v else v >>> (8 * (n - k))) := by
  cases little
  case false =>
    rw [byteOf_big, byteOf_big, if_neg Bool.false_ne_true, BitVec.toNat_ushiftRight, ← Nat.shiftRight_add, ← Nat.mul_add,
      show n - 1 - j = n - k + (k - 1 - j) by omega]
  case true => rw [byteOf_little, byteOf_little, if_pos rfl]

theorem drop_image (little : Bool) (n k : Nat) (v : Dword) :
    (swapIf little (toBytes n v.toNat)).drop k =
      swapIf little (toBytes (n - k) (if little then v >>> (8 * k) else v).toNat) := by
  refine List.ext_getElem (by simp) fun j _ _ => ?_
  rw [List.getElem_drop, getElem_swapIf_toBytes, getElem_swapIf_toBytes, byteOf_drop]

theorem take_image (little : Bool) {n k : Nat} (hk : k ≤ n) (v : Dword) :
    (swapIf little (toBytes n v.toNat)).take k =
      swapIf little (toBytes k (if little then v else v >>> (8 * (n - k))).toNat) := by
  refine List.ext_getElem (by simpa using hk) fun j _ hj => ?_
  rw [List.getElem_take, getElem_swapIf_toBytes, getElem_swapIf_toBytes, byteOf_take little (by simpa using hj) hk]

/-- The bytes of a word are those of the low word. -/
theorem toBytes_low32 (v : Dword) : toBytes 4 (low32 v).toNat = toBytes 4 v.toNat := by
  refine List.map_congr_left fun k hk => BitVec.eq_of_toNat_eq ?_
  have inside : k < 4 := List.mem_range.1 hk
  rw [toNat_low32, BitVec.toNat_ofNat, BitVec.toNat_ofNat, Nat.shiftRight_eq_div_pow, Nat.shiftRight_eq_div_pow]
  interval_cases k <;> omega

/-! ### Memory with a part of a datum stored -/

/-- Memory with the bytes of `partialBytes` stored from their address on. -/
def Memory.storePart (m : Memory) (little : Bool) (n pa : Nat) (ending : Bool) (v : Dword) : Memory :=
  m.setBytes (partialBytes little n pa ending v).1 (partialBytes little n pa ending v).2

section
variable (m : Memory) (little : Bool) {n : Nat} (pa : Nat) {v w : Dword}

/-- Ending at the first byte of the datum nothing is stored. -/
theorem Memory.storePart_first (first : pa % n = 0) : m.storePart little n pa true v = m := by
  simp [storePart, partialBytes, first, setBytes]

variable (hw : toBytes n w.toNat = toBytes n v.toNat)
include hw

/-- From the addressed byte on, the part is a shorter datum; `w` is `v` or has the same bytes. -/
theorem Memory.storePart_begin :
    m.storePart little n pa false v = m.store little pa (n - pa % n) (if little then w >>> (8 * (pa % n)) else v) := by
  show m.setBytes pa ((swapIf little (toBytes n v.toNat)).drop (pa % n)) = _
  cases little
  case false => rw [drop_image]; rfl
  case true => rw [← hw, drop_image]; rfl

/-- Up to before the addressed byte, the part is a shorter datum. -/
theorem Memory.storePart_end (hn : 0 < n) :
    m.storePart little n pa true v = m.store little (pa - pa % n) (pa % n) (if little then v else w >>> (8 * (n - pa % n))) := by
  have below : pa % n ≤ n := (Nat.mod_lt pa hn).le
  show m.setBytes (pa - pa % n) ((swapIf little (toBytes n v.toNat)).take (pa % n)) = _
  cases little
  case false => rw [← hw, take_image _ below]; rfl
  case true => rw [take_image _ below]; rfl

end

/-! ### The form at its place -/

theorem inMemory_memory {pa : Dword} (memory : region pa = .memory) : inMemory pa = .ok pa.toNat := by
  rw [inMemory, memory, Config_paMask, BitVec.and_allOnes]

section
variable {i : Instr} {s : State} {e : Ea} {n : Nat} {ending : Bool} {r : BitVec 5} {d : DataAddr} {p : Place} {w : Dword}
  (hr : e.resolve s = .ok d) (hc : s.check .store d 1 = .ok p)
include hr hc

theorem State.storeBytesForm_checked :
    s.storeBytesForm e n ending r =
      if ending && p.pa.toNat % n == 0 then done s (e.writeBack s) false
      else inMemory p.pa >>= fun pa =>
        done s (e.writeBack { s with mem := s.mem.storePart (s.flag Psw.E) n pa ending (s.readGr r) }) false := by
  rw [State.storeBytesForm, hr]
  show (s.check .store d 1 >>= _) = _
  rw [hc]
  rfl

theorem State.storeBytesForm_memory (memory : region p.pa = .memory) :
    s.storeBytesForm e n ending r =
      done s (e.writeBack { s with mem := s.mem.storePart (s.flag Psw.E) n p.pa.toNat ending (s.readGr r) }) false := by
  rw [State.storeBytesForm_checked hr hc, inMemory_memory memory]
  split
  next nothing =>
    obtain ⟨rfl, first⟩ := Bool.and_eq_true_iff.1 nothing
    rw [Memory.storePart_first _ _ _ (by simpa using first)]
  next => rfl

variable (hp : Plain s)
include hp

/-- Ending at the first byte, wherever that is. -/
theorem completes_of_storeNothing (hx : exec i s = complete s (s.storeBytesForm e n true r)) (first : p.pa.toNat % n = 0) :
    Completes i s (e.writeBack s) false := by
  rw [State.storeBytesForm_checked hr hc, if_pos (by simpa using first)] at hx
  exact completes_of_done hp hx (by simp) (by simp) (by simp) (by simp)

variable (hm : s.mem.wf = true) (memory : region p.pa = .memory) (hw : toBytes n w.toNat = toBytes n (s.readGr r).toNat)
include hm memory hw

theorem stores_of_storeBegin (hx : exec i s = complete s (s.storeBytesForm e n false r)) :
    Stores i s (e.writeBack s) (n - p.pa.toNat % n) p.pa.toNat
      (if s.flag Psw.E then w >>> (8 * (p.pa.toNat % n)) else s.readGr r) := by
  rw [State.storeBytesForm_memory hr hc memory, Memory.storePart_begin _ _ _ hw] at hx
  exact stores_of_stored hp hm hx

theorem stores_of_storeEnd (hn : 0 < n) (hx : exec i s = complete s (s.storeBytesForm e n true r)) :
    Stores i s (e.writeBack s) (p.pa.toNat % n) (p.pa.toNat - p.pa.toNat % n)
      (if s.flag Psw.E then s.readGr r else w >>> (8 * (n - p.pa.toNat % n))) := by
  rw [State.storeBytesForm_memory hr hc memory, Memory.storePart_end _ _ _ hw hn] at hx
  exact stores_of_stored hp hm hx

end

/-- Settles O29: each part is a shorter datum at its own address; a word is taken as its low word, whose bytes are the same. -/
theorem storeBytes : Obligations.StoreBytes := by
  refine ⟨?parts, fun s b r im5 sr cc m d p hp hc =>
    ⟨fun hr => completes_of_storeNothing hr hc hp rfl, fun hr => completes_of_storeNothing hr hc hp rfl⟩⟩
  rintro s b r im5 sr cc m d p _ _ hp hm memory hc rfl rfl
  have word := toBytes_low32 (s.readGr r)
  refine ⟨fun hr => ?_, fun hr => ?_, fun hr => ?_, fun hr => ?_⟩
  · exact stores_of_storeBegin hr hc hp hm memory word rfl
  · exact stores_of_storeEnd hr hc hp hm memory word (by decide) rfl
  · exact stores_of_storeBegin hr hc hp hm memory rfl rfl
  · exact stores_of_storeEnd hr hc hp hm memory rfl (by decide) rfl

end Sys2Proof.Machine
end

section
/-! SUPPORT. The long immediate instructions, for O30. -/

namespace Sys2Proof.Machine

/-- Settles O30: each instruction completes by one write to a general register, and the `rfl`s are the values written, where
the immediate of LDIL and ADDIL is `leftImmediate`. -/
theorem immediates : Obligations.Immediates := by
  intro s b t r iv im14 im21 hp
  refine ⟨?ldo, ?ldil, ?addil⟩
  case ldo => exact completes_writeGr hp rfl
  case ldil => exact completes_writeGr hp rfl
  case addil => exact completes_writeGr hp rfl

end Sys2Proof.Machine
end

section
/-! SUPPORT. The step of a nullified instruction and the transfer traps that may follow it, for O6. -/

namespace Sys2Proof.Machine

/-! ### The state after a nullified instruction (42_branch.md R471) -/

/-- What a nullified instruction leaves, before a transfer trap. -/
def State.skipped (s : State) : State := (s.advance (s.sequential false)).tick

theorem nullified_eq_finish (s : State) : nullified s = finish s (s.sequential false) s.skipped := rfl

theorem step_of_nullified {r s : State} (hs : s = r.passTime) (quiet : pendingInterruption s = none) (hn : s.flag Psw.N = true) :
    step r = nullified s := by
  rw [step, ← hs, stepNow, quiet]
  exact if_pos hn

/-- Neither nullifying nor a taken branch, an instruction leaves all of `statusBits` clear. -/
theorem endPsw_clear {fl : Flow} (hn : fl.nullify = false) (ht : fl.taken = false) (p : Dword) : endPsw p fl = p &&& ~~~statusBits := by
  have masks : ~~~(bitMask Psw.X ||| bitMask Psw.Y ||| bitMask Psw.Z) &&& (~~~bitMask Psw.N &&& ~~~bitMask Psw.B) = ~~~statusBits := by decide
  rw [← masks, ← BitVec.and_assoc, ← BitVec.and_assoc, endPsw, hn, ht]
  rfl

theorem State.skipped_psw (s : State) : s.skipped.psw = s.psw &&& ~~~statusBits :=
  endPsw_clear (fl := s.sequential false) rfl rfl s.psw

theorem State.skipped_requests (s : State) : SameRequests s s.skipped := tick_eirr (s.advance (s.sequential false))

/-! ### The group 4 trap by the levels of the two instructions (60_exceptions.md R1004) -/

section
variable {old : Dword} {level : BitVec 2} {taken : Bool} {s : State}

theorem groupFour_lower (lower : level < s.priv) (hl : bitAt old Psw.L = true) :
    groupFour old level taken s = some .lowerPrivilegeTransfer := by
  rw [groupFour, decide_eq_true lower, hl]
  rfl

theorem groupFour_higher (higher : s.priv < level) (hh : bitAt old Psw.H = true) :
    groupFour old level taken s = some .higherPrivilegeTransfer := by
  have notLower : ¬level < s.priv := by bv_omega
  rw [groupFour, decide_eq_false notLower, decide_eq_true higher, hh]
  rfl

/-- An instruction that is no taken branch takes no trap but the two of the levels. -/
theorem groupFour_quiet (lower : level < s.priv → bitAt old Psw.L = false) (higher : s.priv < level → bitAt old Psw.H = false) :
    groupFour old level false s = none := by
  rw [groupFour, if_neg, if_neg, if_neg]
  · exact Bool.false_ne_true
  · simpa using higher
  · simpa using lower

end

/-- Settles O6: the step is `finish` on `State.skipped`, and which group 4 trap follows is by the level at the back of the queue. -/
theorem nullifiedStep : Obligations.NullifiedStep := by
  intro r s hs quiet hn
  rw [step_of_nullified hs quiet hn, nullified_eq_finish]
  refine ⟨fun atEnd => finish_past atEnd, fun inside => ?_⟩
  refine ⟨s.skipped, rfl, rfl, rfl, rfl, s.skipped_psw, rfl, rfl, s.skipped_requests, rfl, ?lower, ?higher, ?quiet⟩
  all_goals rw [finish_groupFour inside]
  case lower =>
    intro lower hl
    rw [groupFour_lower (s := s.skipped) lower hl]
  case higher =>
    intro higher hh
    rw [groupFour_higher (s := s.skipped) higher hh]
  case quiet =>
    intro lower higher
    rw [show (s.sequential false).taken = false from rfl, groupFour_quiet (s := s.skipped) lower higher]

end Sys2Proof.Machine
end

section
/-! SUPPORT. Popping the branch target stack, entry by entry, and its instructions, for O35. -/

namespace Sys2Proof.Machine

/-! ### An entry with its valid bit cleared (10_state.md R101) -/

/-- An entry is its address and its valid bit. -/
theorem entry_eq_append (e : BitVec 63) : e = e.extractLsb' 1 62 ++ e.extractLsb' 0 1 := by
  have := e.isLt
  apply BitVec.eq_of_toNat_eq
  rw [toNat_append_eq_add, toNat_extractLsb'_eq_div_mod, toNat_extractLsb'_eq_div_mod]
  omega

theorem btsInvalid_eq_append (e : BitVec 63) : btsInvalid e = e.extractLsb' 1 62 ++ 0#1 := by
  conv_lhs => rw [btsInvalid, entry_eq_append e]
  rw [show ~~~1#63 = BitVec.allOnes 62 ++ 0#1 by decide, BitVec.and_append, BitVec.and_allOnes, BitVec.and_zero]

theorem btsInvalid_btsInvalid (e : BitVec 63) : btsInvalid (btsInvalid e) = btsInvalid e := by
  rw [btsInvalid, btsInvalid, BitVec.and_assoc, BitVec.and_self]

/-! ### Popping (42_branch.md R502) -/

section
variable {l : List (BitVec 63)} {f : BitVec 63} {k : Nat}

theorem getElem?_popEntries (hk : k + 1 < l.length) : (popEntries l)[k]? = l[k + 1]? := by
  cases l with
  | nil => rfl
  | cons e t => exact List.getElem?_append_left (Nat.lt_of_succ_lt_succ hk)

theorem getLast?_popEntries (hf : l.getLast? = some f) : (popEntries l).getLast? = some (btsInvalid f) := by
  cases l with
  | nil => cases hf
  | cons e t =>
    rw [List.getLast?_cons, Option.some_inj] at hf
    rw [popEntries, List.getLast?_concat, List.getLastD_eq_getLast?, hf]

theorem getElem?_popTimes_kept {i : Nat} (hk : k + i < l.length) : (popTimes i l)[k]? = l[k + i]? := by
  induction i generalizing l with
  | zero => rfl
  | succ i ih =>
    rw [popTimes, ih (by rw [popEntries_length]; omega), getElem?_popEntries (k := k + i) hk]
    rfl

/-- The entries filled in from the bottom: the bottom entry comes up, made invalid by the first pop. -/
theorem getElem?_popTimes_filled {i : Nat} (hk : k < l.length) (hi : l.length ≤ k + i) (hf : l.getLast? = some f) :
    (popTimes i l)[k]? = some (btsInvalid f) := by
  induction i generalizing l f with
  | zero => omega
  | succ i ih =>
    have length := popEntries_length l
    have bottom := getLast?_popEntries hf
    rw [popTimes]
    rcases Nat.lt_or_ge (k + i) l.length with first | later
    · rw [getElem?_popTimes_kept (by omega), ← bottom, List.getLast?_eq_getElem?]
      congr 1
      omega
    · rw [ih (by omega) (by omega) bottom, btsInvalid_btsInvalid]

end

/-! ### The instructions (R500 to R503) -/

/-- An instruction that changes nothing but the branch target stack. -/
theorem completes_withStack {i : Instr} {s : State} {l : List (BitVec 63)} (hp : Plain s)
    (hx : exec i s = complete s (done s { s with bts := l } false)) : Completes i s { s with bts := l } false :=
  completes_of_done hp hx rfl rfl rfl rfl

/-- Settles O35: each instruction puts a list in the place of the stack, and the entries of a popped list are those further down or the
bottom one made invalid. -/
theorem branchTargetStack : Obligations.BranchTargetStack := by
  refine ⟨fun s r iv hp => ⟨?pushbts, ?pushnom, ?popbts, ?clrbts⟩, fun i k l => ⟨popTimes_length i l, rfl, getElem?_popTimes_kept, ?filled⟩⟩
  case pushbts => exact completes_withStack hp rfl
  case pushnom => exact completes_withStack hp rfl
  case popbts => exact completes_withStack hp rfl
  case clrbts =>
    rw [← funext btsInvalid_eq_append]
    exact completes_withStack hp rfl
  case filled =>
    intro f hk hi hf
    rw [← btsInvalid_eq_append]
    exact getElem?_popTimes_filled hk hi hf

end Sys2Proof.Machine
end

section
/-! SUPPORT. An addition and its conditions as statements about numbers, of the doubleword and of the low word at once, for O36, O37 and O38. -/

namespace Sys2Proof.Machine

/-! ### Digits put together from the left -/

/-- A word built from the left, a digit of `w` bits at a time. -/
theorem getLsbD_foldl_digits {m w : Nat} (digit : Nat → BitVec w) {n k j : Nat} (hk : k < n) (hj : j < w) (hm : w * k + j < m) :
    ((List.range n).foldl (fun (acc : BitVec m) i => (acc <<< w) ||| (digit i).setWidth m) 0#m).getLsbD (w * k + j) =
      (digit (n - 1 - k)).getLsbD j := by
  induction n generalizing k with
  | zero => omega
  | succ n ih =>
    rw [List.range_succ, List.foldl_append, List.foldl_cons, List.foldl_nil, BitVec.getLsbD_or, BitVec.getLsbD_shiftLeft,
      BitVec.getLsbD_setWidth]
    cases k with
    | zero => simp [hj, show j < m by omega]
    | succ k =>
      rw [Nat.mul_succ] at hm ⊢
      have rest := ih (k := k) (by omega) (by omega)
      rw [show w * k + w + j - w = w * k + j by omega, rest, BitVec.getLsbD_of_ge (digit n) _ (by omega),
        show n + 1 - 1 - (k + 1) = n - 1 - k by omega]
      simp [hm, show ¬(w * k + w + j < w) by omega]

/-- The carry field holds the carry out of each digit, leftmost digit first (43_computation.md R532). -/
theorem bitAt_digitCarries (x y : Dword) (cin : Bool) {k : Nat} (hk : k < 16) : bitAt (digitCarries x y cin) k = digitCarry x y cin k := by
  have digit := getLsbD_foldl_digits (m := 16) (fun i => bitOf (digitCarry x y cin i)) (n := 16) (k := 15 - k) (j := 0) (by omega) (by decide)
    (by omega)
  rw [bitAt, BitVec.getMsbD, decide_eq_true hk, Bool.true_and]
  rw [Nat.one_mul, Nat.add_zero, show 16 - 1 - (15 - k) = k by omega] at digit
  refine digit.trans ?_
  cases digitCarry x y cin k <;> rfl

theorem digitCarry_iff (x y : Dword) (cin : Bool) (k : Nat) : digitCarry x y cin k = true ↔
    2 ^ (64 - 4 * k) ≤ x.toNat % 2 ^ (64 - 4 * k) + y.toNat % 2 ^ (64 - 4 * k) + cin.toNat := decide_eq_true_iff

/-! ### The operands of a size: the doubleword (`true`) or its low word (`false`) (R534) -/

/-- The number of bits of the size that `d` selects. -/
def widthOf : Bool → Nat
  | true => 64
  | false => 32

/-- The doubleword or its low word as a number without sign. -/
def unsignedOf : Bool → Dword → Nat
  | true, v => v.toNat
  | false, v => (v.extractLsb' 0 32).toNat

/-- The doubleword or its low word as a number with sign. -/
def signedOf : Bool → Dword → Int
  | true, v => v.toInt
  | false, v => (v.extractLsb' 0 32).toInt

section
variable (d : Bool) (v : Dword)

/-- Half of the numbers of a size are the negative ones when they have a sign. -/
theorem two_pow_widthOf : ((2 ^ widthOf d : Nat) : Int) = 2 * 2 ^ (widthOf d - 1) := by
  cases d <;> rfl

theorem unsignedOf_eq_mod : unsignedOf d v = v.toNat % 2 ^ widthOf d := by
  cases d with
  | true => exact (Nat.mod_eq_of_lt v.isLt).symm
  | false => rw [unsignedOf, toNat_extractLsb'_eq_div_mod, Nat.pow_zero, Nat.div_one, widthOf]

theorem unsignedOf_lt : unsignedOf d v < 2 ^ widthOf d := by
  rw [unsignedOf_eq_mod]
  exact Nat.mod_lt _ (Nat.two_pow_pos _)

theorem signedOf_eq :
    signedOf d v = if 2 * unsignedOf d v < 2 ^ widthOf d then (unsignedOf d v : Int) else unsignedOf d v - (2 ^ widthOf d : Nat) := by
  cases d <;> exact BitVec.toInt_eq_toNat_cond _

/-- The number with sign is the one without, or in the upper half of the range that much less. -/
theorem signedOf_cases :
    (0 ≤ signedOf d v ∧ signedOf d v = unsignedOf d v) ∨ (signedOf d v < 0 ∧ signedOf d v = unsignedOf d v - (2 ^ widthOf d : Nat)) := by
  have inside := unsignedOf_lt d v
  rw [signedOf_eq]
  split <;> omega

/-- The bounds of a number with sign. -/
theorem signedOf_bounds : -2 ^ (widthOf d - 1) ≤ signedOf d v ∧ signedOf d v < 2 ^ (widthOf d - 1) := by
  have half := two_pow_widthOf d
  have inside := unsignedOf_lt d v
  rw [signedOf_eq]
  split <;> omega

theorem isZero_iff : isZero d v = true ↔ unsignedOf d v = 0 := by
  cases d with
  | true => exact beq_iff_eq.trans BitVec.toNat_inj.symm
  | false =>
    rw [unsignedOf_eq_mod, widthOf, ← toNat_low32]
    exact beq_iff_eq.trans BitVec.toNat_inj.symm

theorem isNegative_eq : isNegative d v = decide (signedOf d v < 0) := by
  cases d with
  | true => exact BitVec.msb_eq_toInt
  | false =>
    have word : (v.extractLsb' 0 32).msb = v.getMsbD 32 := by simp [BitVec.msb_eq_getLsbD_last, BitVec.getMsbD]
    exact word.symm.trans BitVec.msb_eq_toInt

theorem unsignedOf_not : unsignedOf d (~~~v) = 2 ^ widthOf d - 1 - unsignedOf d v := by
  cases d with
  | true => exact BitVec.toNat_not
  | false =>
    have word : (~~~v).extractLsb' 0 32 = ~~~(v.extractLsb' 0 32) := by ext i hi; simp; omega
    rw [unsignedOf, word]
    exact BitVec.toNat_not

theorem signedOf_not : signedOf d (~~~v) = -1 - signedOf d v := by
  have := unsignedOf_not d v
  have := unsignedOf_lt d v
  have := signedOf_bounds d v
  have := signedOf_bounds d (~~~v)
  have := two_pow_widthOf d
  have := signedOf_cases d v
  have := signedOf_cases d (~~~v)
  omega

end

theorem bitAt_last_iff (v : Dword) : bitAt v 63 = true ↔ v.toNat % 2 = 1 := by
  rw [bitAt, BitVec.getMsbD_eq_getLsbD]
  simp [BitVec.getLsbD, Nat.testBit_zero]

/-! ### The sum and what its conditions look at (R532 to R534) -/

section
variable (d : Bool) (x y : Dword) (cin : Bool)

theorem toNat_sum : (sum x y cin).res.toNat = (x.toNat + y.toNat + cin.toNat) % 2 ^ 64 := by
  rw [sum_addc]
  cases cin <;> simp [BitVec.toNat_add]

theorem unsignedOf_sum : unsignedOf d (sum x y cin).res = (unsignedOf d x + unsignedOf d y + cin.toNat) % 2 ^ widthOf d := by
  rw [unsignedOf_eq_mod, unsignedOf_eq_mod d x, unsignedOf_eq_mod d y, toNat_sum]
  cases d <;> simp only [widthOf] <;> omega

/-- The result is the exact sum or, carried out of its size, that much less. -/
theorem unsignedOf_sum_cases :
    unsignedOf d (sum x y cin).res = unsignedOf d x + unsignedOf d y + cin.toNat ∨
    unsignedOf d (sum x y cin).res + 2 ^ widthOf d = unsignedOf d x + unsignedOf d y + cin.toNat := by
  have := unsignedOf_lt d x
  have := unsignedOf_lt d y
  have := cin.toNat_le
  rw [unsignedOf_sum]
  rcases Nat.lt_or_ge (unsignedOf d x + unsignedOf d y + cin.toNat) (2 ^ widthOf d) with inside | outside
  · exact .inl (Nat.mod_eq_of_lt inside)
  · rw [Nat.mod_eq_sub_mod outside, Nat.mod_eq_of_lt (by omega)]
    omega

theorem carry_iff : (sum x y cin).carry d = true ↔ 2 ^ widthOf d ≤ unsignedOf d x + unsignedOf d y + cin.toNat := by
  rw [unsignedOf_eq_mod, unsignedOf_eq_mod]
  cases d <;> exact (Bool.eq_iff_iff.1 (bitAt_digitCarries x y cin (by decide))).trans (digitCarry_iff x y cin _)

theorem overflow_eq : (sum x y cin).overflow d =
    (isNegative d x == isNegative d y && isNegative d (sum x y cin).res != isNegative d x) := by
  cases d <;> rfl

/-- The result with sign is the exact sum, or that is out of range and the result has the other sign. -/
theorem signedOf_sum_cases {total : Int} (h : total = signedOf d x + signedOf d y + cin.toNat) :
    (signedOf d (sum x y cin).res = total ∧ -2 ^ (widthOf d - 1) ≤ total ∧ total < 2 ^ (widthOf d - 1)) ∨
    (signedOf d (sum x y cin).res < 0 ∧ 2 ^ (widthOf d - 1) ≤ total) ∨
    (0 ≤ signedOf d (sum x y cin).res ∧ total < -2 ^ (widthOf d - 1)) := by
  have := two_pow_widthOf d
  have := unsignedOf_sum_cases d x y cin
  have := cin.toNat_le
  have := signedOf_bounds d x
  have := signedOf_bounds d y
  have := signedOf_bounds d (sum x y cin).res
  have := signedOf_cases d x
  have := signedOf_cases d y
  have := signedOf_cases d (sum x y cin).res
  omega

/-- The signs of the operands and of the result show whether the exact sum is in range. -/
theorem overflow_iff : (sum x y cin).overflow d = true ↔
    signedOf d x + signedOf d y + cin.toNat < -2 ^ (widthOf d - 1) ∨ (2 : Int) ^ (widthOf d - 1) ≤ signedOf d x + signedOf d y + cin.toNat := by
  have := cin.toNat_le
  have := signedOf_bounds d x
  have := signedOf_bounds d y
  have := signedOf_sum_cases d x y cin rfl
  rw [overflow_eq, isNegative_eq, isNegative_eq, isNegative_eq]
  simp only [Bool.and_eq_true, beq_iff_eq, bne_iff_ne, ne_eq, decide_eq_decide]
  omega

/-- The sign of the result is the exact sum's unless that overflows. -/
theorem negative_xor_overflow_iff : (isNegative d (sum x y cin).res ^^ (sum x y cin).overflow d) = true ↔
    signedOf d x + signedOf d y + cin.toNat < 0 := by
  have := signedOf_sum_cases d x y cin rfl
  have positive : (0 : Int) < 2 ^ (widthOf d - 1) := pow_pos (by decide) _
  rw [← Bool.bne_eq_xor, bne_iff_ne, ne_eq, Bool.eq_iff_iff, overflow_iff, isNegative_eq, decide_eq_true_iff]
  omega

end

/-- Settles O36: the carries are those of `digitCarry`, and with the complement of `y` a digit and all below it carry out when those of `x`
are not less than those of `y`. -/
theorem sums : Obligations.Sums := by
  intro x y cin
  refine ⟨?sum, fun k hk => ?carry, fun k hk => ?noBorrow, overflow_iff true x y cin, overflow_iff false x y cin⟩
  case sum =>
    apply BitVec.eq_of_toNat_eq
    rw [toNat_sum, BitVec.toNat_ofNat]
  case carry =>
    rw [show (sum x y cin).carries = digitCarries x y cin from rfl, bitAt_digitCarries x y cin hk, digitCarry_iff]
  case noBorrow =>
    have complement : (~~~y).toNat % 2 ^ (64 - 4 * k) = 2 ^ (64 - 4 * k) - 1 - y.toNat % 2 ^ (64 - 4 * k) := by
      rw [← BitVec.toNat_setWidth, BitVec.setWidth_not (by omega), BitVec.toNat_not, BitVec.toNat_setWidth]
    have below : y.toNat % 2 ^ (64 - 4 * k) < 2 ^ (64 - 4 * k) := Nat.mod_lt _ (Nat.two_pow_pos _)
    rw [show (sum x (~~~y) true).carries = digitCarries x (~~~y) true from rfl, bitAt_digitCarries _ _ _ hk, digitCarry_iff, complement,
      Bool.toNat_true]
    omega

/-! ### The conditions (R534 to R538) -/

theorem Sum.condition_negated (r : Sum) (c : BitVec 3) (d : Bool) : r.condition c true d = !(r.condition c false d) := by
  rw [condition, condition, Bool.xor_true, Bool.xor_false]

theorem Sum.condition_plain (r : Sum) (c : BitVec 3) (d : Bool) : r.condition c false d = r.base c d := Bool.xor_false _

section
variable (d : Bool) (x y : Dword) (cin : Bool)

theorem condition_zero_iff : (sum x y cin).condition 1#3 false d = true ↔
    (unsignedOf d x + unsignedOf d y + cin.toNat) % 2 ^ widthOf d = 0 := by
  rw [← unsignedOf_sum, ← isZero_iff, Sum.condition_plain]
  rfl

theorem condition_less_iff : (sum x y cin).condition 2#3 false d = true ↔ signedOf d x + signedOf d y + cin.toNat < 0 := by
  rw [← negative_xor_overflow_iff, Sum.condition_plain]
  rfl

theorem condition_noCarry_iff : (sum x y cin).condition 4#3 false d = true ↔
    unsignedOf d x + unsignedOf d y + cin.toNat < 2 ^ widthOf d := by
  rw [← Nat.not_le, ← carry_iff, Sum.condition_plain, Bool.not_eq_true, ← Bool.not_eq_true']
  rfl

theorem condition_overflow_iff : (sum x y cin).condition 6#3 false d = true ↔
    signedOf d x + signedOf d y + cin.toNat < -2 ^ (widthOf d - 1) ∨ (2 : Int) ^ (widthOf d - 1) ≤ signedOf d x + signedOf d y + cin.toNat := by
  rw [← overflow_iff, Sum.condition_plain]
  rfl

theorem condition_odd_iff : (sum x y cin).condition 7#3 false d = true ↔ (x.toNat + y.toNat + cin.toNat) % 2 = 1 := by
  have odd := bitAt_last_iff (sum x y cin).res
  rw [toNat_sum, Nat.mod_mod_of_dvd _ (by decide)] at odd
  rw [← odd, Sum.condition_plain]
  rfl

theorem Sum.condition_zero_or_less (r : Sum) : r.condition 3#3 false d = (r.condition 1#3 false d || r.condition 2#3 false d) := by
  rw [condition_plain, condition_plain, condition_plain]
  rfl

theorem Sum.condition_zero_or_noCarry (r : Sum) : r.condition 5#3 false d = (r.condition 1#3 false d || r.condition 4#3 false d) := by
  rw [condition_plain, condition_plain, condition_plain]
  rfl

end

/-! ### Comparisons: the conditions of x + ~y + 1 (R535, R536) -/

section
variable (d : Bool) (x y : Dword)

theorem compare_equal_iff : (sum x (~~~y) true).condition 1#3 false d = true ↔ unsignedOf d x = unsignedOf d y := by
  have := unsignedOf_lt d x
  have := unsignedOf_lt d y
  have := unsignedOf_lt d (sum x (~~~y) true).res
  have result := unsignedOf_sum_cases d x (~~~y) true
  rw [unsignedOf_not, Bool.toNat_true] at result
  rw [condition_zero_iff, ← unsignedOf_sum]
  omega

theorem compare_less_iff : (sum x (~~~y) true).condition 2#3 false d = true ↔ signedOf d x < signedOf d y := by
  rw [condition_less_iff, signedOf_not, Bool.toNat_true]
  omega

theorem compare_below_iff : (sum x (~~~y) true).condition 4#3 false d = true ↔ unsignedOf d x < unsignedOf d y := by
  have := unsignedOf_lt d y
  rw [condition_noCarry_iff, unsignedOf_not, Bool.toNat_true]
  omega

theorem compare_overflow_iff : (sum x (~~~y) true).condition 6#3 false d = true ↔
    signedOf d x - signedOf d y < -2 ^ (widthOf d - 1) ∨ (2 : Int) ^ (widthOf d - 1) ≤ signedOf d x - signedOf d y := by
  rw [condition_overflow_iff, signedOf_not, Bool.toNat_true,
    show signedOf d x + (-1 - signedOf d y) + (1 : Nat) = signedOf d x - signedOf d y by omega]

theorem signedOf_inj : signedOf d x = signedOf d y ↔ unsignedOf d x = unsignedOf d y := by
  cases d with
  | true => exact BitVec.toInt_inj.trans BitVec.toNat_inj.symm
  | false => exact BitVec.toInt_inj.trans BitVec.toNat_inj.symm

theorem compare_lessEqual_iff : (sum x (~~~y) true).condition 3#3 false d = true ↔ signedOf d x ≤ signedOf d y := by
  rw [Sum.condition_zero_or_less, Bool.or_eq_true, compare_equal_iff, compare_less_iff, ← signedOf_inj]
  omega

theorem compare_belowEqual_iff : (sum x (~~~y) true).condition 5#3 false d = true ↔ unsignedOf d x ≤ unsignedOf d y := by
  rw [Sum.condition_zero_or_noCarry, Bool.or_eq_true, compare_equal_iff, compare_below_iff]
  omega

theorem compare_odd_iff : (sum x (~~~y) true).condition 7#3 false d = true ↔ (x - y).toNat % 2 = 1 := by
  rw [← sum_sub, ← bitAt_last_iff, Sum.condition_plain]
  rfl

end

theorem Sum.condition_negated_iff (r : Sum) (c : BitVec 3) (d : Bool) : r.condition c true d = true ↔ ¬r.condition c false d = true := by
  rw [condition_negated, Bool.not_eq_true', Bool.not_eq_true]

/-- Settles O37: each condition of x + ~y + 1 as a relation of the operands of its size. Conditions 0 to 3 of opcode 3B are conditions 4 and 1 to
3 of the doublewords, 4 to 7 the same negated, and so each is one of those up to computation. -/
theorem compareConditions : Obligations.CompareConditions := by
  rintro x y f c _ _ rfl rfl
  have equal : (sum x (~~~y) true).condition 1#3 false true = true ↔ x = y := (compare_equal_iff true x y).trans BitVec.toNat_inj
  have less := compare_less_iff true x y
  have lessEqual := compare_lessEqual_iff true x y
  have below := compare_below_iff true x y
  have negated (c : BitVec 3) := Sum.condition_negated_iff (sum x (~~~y) true) c true
  exact ⟨Sum.condition_negated _ c f, Sum.condition_plain _ 0#3 f, equal, less, lessEqual, below, compare_belowEqual_iff true x y,
    compare_overflow_iff true x y, (compare_equal_iff false x y).trans BitVec.toNat_inj, compare_less_iff false x y,
    compare_lessEqual_iff false x y, compare_below_iff false x y, compare_belowEqual_iff false x y, compare_overflow_iff false x y,
    compare_odd_iff f x y, below, equal, less, lessEqual, (negated 4#3).trans (below.not.trans Nat.not_lt), (negated 1#3).trans equal.not,
    (negated 2#3).trans (less.not.trans Int.not_lt), (negated 3#3).trans (lessEqual.not.trans Int.not_le)⟩

/-- Settles O38: each condition as a relation of the operands of its size, and which of them ADDB and ADDIB take. -/
theorem addConditions : Obligations.AddConditions := by
  rintro x y cin f _ _ rfl rfl
  refine ⟨fun c => Sum.condition_negated _ c f, Sum.condition_plain _ 0#3 f, condition_zero_iff true x y cin, condition_less_iff true x y cin,
    condition_noCarry_iff true x y cin, condition_overflow_iff true x y cin, condition_zero_iff false x y cin, condition_less_iff false x y cin,
    condition_noCarry_iff false x y cin, condition_overflow_iff false x y cin, Sum.condition_zero_or_less f _,
    Sum.condition_zero_or_noCarry f _, condition_odd_iff f x y cin, fun wide c => ?negated, fun c hc => ?low, fun c => rfl, fun c hc => ?high⟩
  case negated =>
    rw [Sum.conditionAddBranch, Sum.conditionAddBranch]
    split <;> rw [Bool.xor_true, Bool.xor_false]
  case low =>
    rw [Sum.conditionAddBranch, if_neg (by simpa using hc)]
    rfl
  case high =>
    rw [Sum.conditionAddBranch, if_pos (by simpa using hc)]
    rfl

end Sys2Proof.Machine
end

section
/-! SUPPORT. How the instructions that add and subtract end, for O39, O40 and O41. -/

namespace Sys2Proof.Machine

/-- An instruction with neither trap completes. -/
theorem completes_of_noTraps {i : Instr} {s e : State} {overflow cond : Bool} (h : TrapsOrCompletes i s e false false overflow cond) :
    Completes i s e cond := by
  obtain ⟨-, -, completes⟩ := h
  exact completes rfl rfl

/-- An instruction that writes its target and may nullify. -/
theorem completes_target {i : Instr} {s : State} {t : BitVec 5} {v : Dword} {n : Bool} (hp : Plain s)
    (hx : exec i s = complete s (done s (s.writeGr t v) n)) : Completes i s (s.writeGr t v) n :=
  completes_of_done hp hx (by simp) (by simp) (by simp) (by simp)

/-! ### Adds and subtracts (43_computation.md R544, R545, R547, R548) -/

section
variable {i : Instr} {s : State} {x y res : Dword} {cin : Bool} {c : BitVec 3} {f d : BitVec 1} {t : BitVec 5}

/-- An add or subtract that sets C/B, with its traps; `res` is the sum in the instruction's own terms. -/
theorem trapsOrCompletes_of_sum {ov tc : Bool} (hp : Plain s) (hres : (sum x y cin).res = res)
    (hx : exec i s = complete s (s.sumForm ⟨ov, tc, true⟩ x y cin c f d t)) :
    TrapsOrCompletes i s ((s.writeGr t res).setCarryBorrow (sum x y cin).carries) ov tc ((sum x y cin).overflow (isSet d))
      ((sum x y cin).condition c (isSet f) (isSet d)) := by
  rw [← hres]
  exact arith_trapsOrCompletes hp hx

theorem completes_of_sum (hp : Plain s) (hres : (sum x y cin).res = res)
    (hx : exec i s = complete s (s.sumForm ⟨false, false, true⟩ x y cin c f d t)) :
    Completes i s ((s.writeGr t res).setCarryBorrow (sum x y cin).carries) ((sum x y cin).condition c (isSet f) (isSet d)) :=
  completes_of_noTraps (trapsOrCompletes_of_sum hp hres hx)

end

/-- Settles O39: each instruction is a sum without traps, its result the sum in its own terms. -/
theorem addSubtract : Obligations.AddSubtract := by
  rintro s r2 r1 r t c f d im11 x y cin hp rfl rfl hcin
  obtain rfl : cin = s.carryIn d := hcin.trans (carryIn_eq s d).symm
  refine ⟨?add, ?addC, ?addL, ?sub, ?subB, ?addi, ?subi⟩
  case add => exact completes_of_sum hp (sum_add _ _) rfl
  case addC => exact completes_of_sum hp (sum_addc _ _ _) rfl
  case addL =>
    rw [← sum_add]
    exact completes_target hp rfl
  case sub => exact completes_of_sum hp (sum_sub _ _) rfl
  case subB => exact completes_of_sum hp (sum_subb _ _ _) rfl
  case addi => exact completes_of_sum (d := 0#1) hp (sum_add _ _) rfl
  case subi => exact completes_of_sum (d := 0#1) hp (sum_sub _ _) rfl

/-- Settles O40: each instruction is a sum with the traps of its form. -/
theorem trappingArithmetic : Obligations.TrappingArithmetic := by
  rintro s r2 r1 r t c f d e1 im11 x y z cin hp rfl rfl rfl hcin
  obtain rfl : cin = s.carryIn d := hcin.trans (carryIn_eq s d).symm
  refine ⟨?addTsv, ?addCTsv, ?subTc, ?subTsv, ?subTsvTc, ?subBTsv, ?addi, ?addiTc, ?subi⟩
  case addTsv => exact trapsOrCompletes_of_sum hp (sum_add _ _) rfl
  case addCTsv => exact trapsOrCompletes_of_sum hp (sum_addc _ _ _) rfl
  case subTc => exact trapsOrCompletes_of_sum hp (sum_sub _ _) rfl
  case subTsv => exact trapsOrCompletes_of_sum hp (sum_sub _ _) rfl
  case subTsvTc => exact trapsOrCompletes_of_sum hp (sum_sub _ _) rfl
  case subBTsv => exact trapsOrCompletes_of_sum hp (sum_subb _ _ _) rfl
  case addi => exact trapsOrCompletes_of_sum (d := 0#1) hp (sum_add _ _) rfl
  case addiTc => exact trapsOrCompletes_of_sum (d := 0#1) hp (sum_add _ _) rfl
  case subi => exact trapsOrCompletes_of_sum (d := 0#1) hp (sum_sub _ _) rfl

/-! ### What a shift to the left loses (R533, R546) -/

section
variable (d : Bool) (x : Dword)

/-- The bits of the doubleword or of its low word, from the left. -/
theorem bitAt_eq_testBit {i : Nat} (hi : i < widthOf d) :
    bitAt x ((if d then 0 else 32) + i) = (unsignedOf d x).testBit (widthOf d - 1 - i) := by
  have place : (if d then 0 else 32) + i < 64 ∧ 64 - 1 - ((if d then 0 else 32) + i) = widthOf d - 1 - i := by
    cases d <;> simp only [widthOf, if_true, Bool.false_eq_true, if_false] at hi ⊢ <;> omega
  obtain ⟨inside, index⟩ := place
  rw [unsignedOf_eq_mod, Nat.testBit_mod_two_pow, decide_eq_true (by omega), Bool.true_and, bitAt, BitVec.getMsbD_eq_getLsbD,
    decide_eq_true inside, Bool.true_and, index]
  rfl

theorem bitAt_not_leftmost {i : Nat} (hi : i < widthOf d) :
    bitAt (~~~x) ((if d then 0 else 32) + i) = !(bitAt x ((if d then 0 else 32) + i)) := by
  have inside : (if d then 0 else 32) + i < 64 := by
    cases d <;> simp only [widthOf, if_true, Bool.false_eq_true, if_false] at hi ⊢ <;> omega
  simp [bitAt, inside]

/-- The leftmost `n` bits are clear just when the number needs only the rest. -/
theorem leftmost_clear_iff {n : Nat} (hn : n ≤ widthOf d) :
    (∀ i < n, bitAt x ((if d then 0 else 32) + i) = false) ↔ unsignedOf d x < 2 ^ (widthOf d - n) := by
  constructor
  · intro clear
    refine Nat.lt_pow_two_of_testBit _ fun k hk => ?_
    rcases Nat.lt_or_ge k (widthOf d) with inside | outside
    · have bit := bitAt_eq_testBit d x (i := widthOf d - 1 - k) (by omega)
      rw [clear _ (by omega), show widthOf d - 1 - (widthOf d - 1 - k) = k by omega] at bit
      exact bit.symm
    · exact Nat.testBit_lt_two_pow ((unsignedOf_lt d x).trans_le (Nat.pow_le_pow_right (by decide) outside))
  · intro small i hi
    rw [bitAt_eq_testBit d x (by omega)]
    exact Nat.testBit_lt_two_pow (small.trans_le (Nat.pow_le_pow_right (by decide) (by omega)))

theorem shiftLosesOne_iff {sa : Nat} (hsa : sa ≤ widthOf d) : shiftLosesOne x sa d = true ↔ 2 ^ widthOf d ≤ unsignedOf d x * 2 ^ sa := by
  have clear : shiftLosesOne x sa d = false ↔ unsignedOf d x < 2 ^ (widthOf d - sa) := by
    rw [← leftmost_clear_iff d x hsa]
    simp [shiftLosesOne]
  have pow : 2 ^ widthOf d = 2 ^ (widthOf d - sa) * 2 ^ sa := by rw [← Nat.pow_add, Nat.sub_add_cancel hsa]
  rw [pow, Nat.mul_le_mul_right_iff (Nat.two_pow_pos sa), ← Nat.not_lt, ← clear, Bool.not_eq_false]

/-- The bits shifted out and the new sign agree when they are all clear in the number or all in its complement. -/
theorem shiftKeepsSign_iff_clear {sa : Nat} (hsa : sa < widthOf d) : shiftKeepsSign x sa d = true ↔
    (∀ i < sa + 1, bitAt x ((if d then 0 else 32) + i) = false) ∨ (∀ i < sa + 1, bitAt (~~~x) ((if d then 0 else 32) + i) = false) := by
  have complement (i : Nat) (hi : i < sa + 1) :
      bitAt (~~~x) ((if d then 0 else 32) + i) = false ↔ bitAt x ((if d then 0 else 32) + i) = true := by
    rw [bitAt_not_leftmost d x (by omega), Bool.not_eq_false']
  rw [shiftKeepsSign, List.all_eq_true]
  simp only [List.mem_range, beq_iff_eq]
  constructor
  · intro same
    have all (i : Nat) (hi : i < sa + 1) : bitAt x ((if d then 0 else 32) + i) = bitAt x ((if d then 0 else 32) + sa) := by
      rcases Nat.lt_succ_iff_lt_or_eq.1 hi with out | rfl
      · exact same i out
      · rfl
    cases sign : bitAt x ((if d then 0 else 32) + sa) with
    | false => exact .inl fun i hi => (all i hi).trans sign
    | true => exact .inr fun i hi => (complement i hi).2 ((all i hi).trans sign)
  · rintro (clear | clear) i hi
    · rw [clear i (by omega), clear sa (by omega)]
    · rw [(complement i (by omega)).1 (clear i (by omega)), (complement sa (by omega)).1 (clear sa (by omega))]

/-- A number without sign that needs fewer bits than its size is the number with sign. -/
theorem unsignedOf_lt_two_pow_iff {n : Nat} (hn : n ≤ widthOf d - 1) :
    unsignedOf d x < 2 ^ n ↔ 0 ≤ signedOf d x ∧ signedOf d x < 2 ^ n := by
  have cast : ((2 ^ n : Nat) : Int) = 2 ^ n := by push_cast; rfl
  have small : (2 : Int) ^ n ≤ 2 ^ (widthOf d - 1) := pow_le_pow_right₀ (by decide) hn
  have := two_pow_widthOf d
  have := signedOf_bounds d x
  have := signedOf_cases d x
  omega

theorem shiftKeepsSign_iff {sa : Nat} (hsa : sa < widthOf d) : shiftKeepsSign x sa d = true ↔
    -2 ^ (widthOf d - 1) ≤ signedOf d x * 2 ^ sa ∧ signedOf d x * 2 ^ sa < 2 ^ (widthOf d - 1) := by
  have needs (v : Dword) := unsignedOf_lt_two_pow_iff d v (n := widthOf d - (sa + 1)) (by omega)
  have bounds : shiftKeepsSign x sa d = true ↔ -2 ^ (widthOf d - (sa + 1)) ≤ signedOf d x ∧ signedOf d x < 2 ^ (widthOf d - (sa + 1)) := by
    rw [shiftKeepsSign_iff_clear d x hsa, leftmost_clear_iff d x hsa, leftmost_clear_iff d (~~~x) hsa, needs, needs, signedOf_not]
    omega
  have pow : (2 : Int) ^ (widthOf d - 1) = 2 ^ (widthOf d - (sa + 1)) * 2 ^ sa := by
    rw [← pow_add, show widthOf d - (sa + 1) + sa = widthOf d - 1 by omega]
  have positive : (0 : Int) < 2 ^ sa := pow_pos (by decide) _
  rw [bounds, pow, ← Int.neg_mul, mul_le_mul_iff_of_pos_right positive, mul_lt_mul_iff_of_pos_right positive]

end

/-! ### A condition that may be free (R539) -/

theorem openCondition_eq (c : BitVec 3) (so : Bool) : openCondition c so = decide (so = true ∧ (c = 2#3 ∨ c = 3#3)) := by
  rw [openCondition, Bool.eq_iff_iff]
  simp

section
variable (c : BitVec 3) (f d so u free : Bool) (q : Sum)

theorem shiftedCondition_closed (h : openCondition c so = false) : shiftedCondition c f d q so u free =
    (baseCondition c (isZero d q.res) (isNegative d q.res) (so || q.overflow d) u (bitAt q.res 63) ^^ f) :=
  if_neg (ne_true_of_eq_false h)

/-- The condition is the free value where it is open, and depends on it nowhere else. -/
theorem shiftedCondition_eq : shiftedCondition c f d q so u free =
    if so = true ∧ (c = 2#3 ∨ c = 3#3) then free else shiftedCondition c f d q so u false := by
  have whenOpen := openCondition_eq c so
  split
  next h => exact if_pos (whenOpen.trans (decide_eq_true h))
  next h =>
    have closed := whenOpen.trans (decide_eq_false h)
    rw [shiftedCondition_closed _ _ _ _ _ _ _ closed, shiftedCondition_closed _ _ _ _ _ _ _ closed]

end

theorem State.drawnIf_openCondition (s : State) (c : BitVec 3) (so : Bool) :
    s.drawnIf (openCondition c so) = if so = true ∧ (c = 2#3 ∨ c = 3#3) then s.drawn 1 else s := by
  rw [drawnIf, openCondition_eq]
  simp only [decide_eq_true_eq]

/-! ### SHLADD and DS (R546, R551) -/

/-- Drawing a free value leaves the queues. -/
theorem State.done_drawnIf (s t : State) (b n : Bool) : done (s.drawnIf b) t n = done s t n := by
  cases b <;> rfl

theorem State.drawnIf_frame (s : State) (b : Bool) : (s.drawnIf b).iaoqBack = s.iaoqBack ∧ (s.drawnIf b).iasqBack = s.iasqBack ∧
    (s.drawnIf b).rctr = s.rctr ∧ (s.drawnIf b).itmr = s.itmr := by
  cases b <;> exact ⟨rfl, rfl, rfl, rfl⟩

/-- The arithmetic that may trap, after a free value is drawn or not. -/
theorem arith_drawnIf_trapsOrCompletes {i : Instr} {s : State} {b : Bool} {k : ArithKind} {t : BitVec 5} {res : Dword} {ca : BitVec 16}
    {ov co : Bool} (hp : Plain s) (hx : exec i s = complete s ((s.drawnIf b).arith k t res ca ov co)) :
    TrapsOrCompletes i s (if k.setsCarries then ((s.drawnIf b).writeGr t res).setCarryBorrow ca else (s.drawnIf b).writeGr t res)
      k.trapOverflow k.trapCondition ov co := by
  obtain ⟨back, backSpace, recovery, timer⟩ := s.drawnIf_frame b
  refine ⟨fun overflow => ?_, fun inRange holds => ?_, fun inRange fails => ?_⟩
  · rw [State.arith, if_pos overflow] at hx
    exact hx
  · rw [State.arith, if_neg (ne_true_of_eq_false inRange), if_pos holds] at hx
    exact hx
  · rw [State.arith, if_neg (ne_true_of_eq_false inRange), if_neg (ne_true_of_eq_false fails), State.done_drawnIf] at hx
    refine completes_of_done hp hx ?_ ?_ ?_ ?_ <;> split <;> simpa

/-- The operand of DS: the register doubled, with the carry bit in its place (R551). -/
theorem shiftLeft_or_bit (x : Dword) (b : Bool) : (x <<< 1) ||| (bitOf b).zeroExtend 64 = (x <<< 1) + BitVec.ofNat 64 b.toNat := by
  have bit : BitVec.ofNat 64 b.toNat = (bitOf b).zeroExtend 64 := by cases b <;> rfl
  rw [bit]
  refine (BitVec.add_eq_or_of_and_eq_zero _ _ ?_).symm
  ext i hi
  cases b <;> cases i <;> simp [bitOf]

/-- The sign that DS shifts in, whatever the carry bit. -/
theorem bitAt_shiftLeft_or_bit (x : Dword) (b : Bool) : bitAt ((x <<< 1) ||| (bitOf b).zeroExtend 64) 32 = bitAt x 33 := by
  cases b <;> simp [bitAt, bitOf, BitVec.getMsbD]

/-- DS subtracts when PSW[V] = 1 and adds when it is 0. -/
theorem res_addOrSubtract (subtract : Bool) (x y : Dword) :
    (if subtract then sum x (~~~y) true else sum x y false).res = if subtract then x - y else x + y := by
  cases subtract
  · exact sum_add x y
  · exact sum_sub x y

/-- Settles O41: SHLADD and DS are an addition or subtraction after a free value is drawn or not, and the bits that a shift loses tell the range
of the product. -/
theorem shiftAndDivideStep : Obligations.ShiftAndDivideStep := by
  refine ⟨?shladd, ?ds, fun x sa hsa => ?shift, fun f d so u q => ?conditions⟩
  case shladd =>
    rintro s r2 r1 t c f d sa x y q so u cond s' hp rfl rfl rfl hso hu hcond hs'
    rw [← shiftedCondition_eq] at hcond
    rw [← State.drawnIf_openCondition] at hs'
    subst hso hu hcond hs'
    rw [← sum_add]
    have form {i : Instr} {k : ArithKind} (hi : exec i s = complete s (s.shladdForm k r2 r1 c f sa d t)) := arith_drawnIf_trapsOrCompletes hp hi
    exact ⟨completes_of_noTraps (form (k := ⟨false, false, false⟩) rfl), completes_of_noTraps (form (k := ⟨false, false, true⟩) rfl),
      form (k := ⟨true, false, true⟩) rfl⟩
  case ds =>
    rintro s r2 r1 t c f x y o q so u cond s' hp rfl rfl ho hq hso hu hcond hs'
    have result : q.res = if s.flag Psw.V then o - s.readGr r2 else o + s.readGr r2 := hq ▸ res_addOrSubtract _ _ _
    have sign : so = (bitAt (s.readGr r1) 32 != bitAt o 32) := by
      rw [hso, ho, ← shiftLeft_or_bit, bitAt_shiftLeft_or_bit]
      rfl
    rw [← shiftedCondition_eq] at hcond
    rw [← State.drawnIf_openCondition] at hs'
    rw [← shiftLeft_or_bit] at ho
    obtain ⟨back, backSpace, recovery, timer⟩ := s.drawnIf_frame (openCondition c so)
    rw [← result, hs']
    refine completes_of_done hp ?_ (by simpa) (by simpa) (by simpa) (by simpa)
    rw [← State.done_drawnIf, hcond, hu, sign, hq, ho]
    rfl
  case shift =>
    have keeps (d : Bool) := shiftKeepsSign_iff d x (sa := sa) (by cases d <;> simp only [widthOf] <;> omega)
    have loses (d : Bool) := shiftLosesOne_iff d x (sa := sa) (by cases d <;> simp only [widthOf] <;> omega)
    exact ⟨keeps true, keeps false, loses true, loses false⟩
  case conditions =>
    have closed (c : BitVec 3) (h2 : c ≠ 2#3) (h3 : c ≠ 3#3) :=
      shiftedCondition_closed c f d so u false q (by simp [openCondition_eq, h2, h3])
    exact ⟨(closed 0#3 (by decide) (by decide)).trans (Bool.false_xor f), closed 1#3 (by decide) (by decide),
      closed 4#3 (by decide) (by decide), closed 5#3 (by decide) (by decide), closed 6#3 (by decide) (by decide),
      closed 7#3 (by decide) (by decide), rfl, rfl⟩

end Sys2Proof.Machine
end

section
/-! SUPPORT. The conditions of the logical and unit instructions as statements about numbers and units, and the sixes of decimal correction, for
O42. -/

namespace Sys2Proof.Machine

/-! ### Logical conditions (43_computation.md R540) -/

section
variable (f d : Bool) (v : Dword)

theorem logicalCondition_never : logicalCondition 0#3 f d v = f := Bool.false_xor f

theorem logicalCondition_zero : logicalCondition 1#3 f d v = (decide (unsignedOf d v = 0) ^^ f) :=
  congrArg (· ^^ f) (Bool.eq_iff_iff.2 ((isZero_iff d v).trans decide_eq_true_iff.symm))

theorem logicalCondition_negative : logicalCondition 2#3 f d v = (decide (signedOf d v < 0) ^^ f) := by
  rw [← isNegative_eq, ← Bool.xor_false (isNegative d v)]
  rfl

theorem logicalCondition_notPositive : logicalCondition 3#3 f d v = (decide (signedOf d v ≤ 0) ^^ f) := by
  have notPositive : decide (signedOf d v ≤ 0) = (isZero d v || isNegative d v) := by
    have := signedOf_cases d v
    have := unsignedOf_lt d v
    rw [Bool.eq_iff_iff, decide_eq_true_iff, Bool.or_eq_true, isZero_iff, isNegative_eq, decide_eq_true_iff]
    omega
  rw [notPositive, ← Bool.xor_false (isNegative d v)]
  rfl

theorem logicalCondition_odd : logicalCondition 7#3 f d v = (decide (v.toNat % 2 = 1) ^^ f) :=
  congrArg (· ^^ f) (Bool.eq_iff_iff.2 ((bitAt_last_iff v).trans decide_eq_true_iff.symm))

end

/-! ### Unit conditions (R541) -/

section
variable (d : Bool) (v : Dword) (cb : BitVec 16)

theorem someUnitZero_iff (w : Nat) : someUnitZero w d v = true ↔ ∃ k, k < (if d then 64 else 32) / w ∧ v.extractLsb' (w * k) w = 0#w := by
  have unit (k : Nat) : ((v >>> (w * k)).toNat % 2 ^ w == 0) = true ↔ v.extractLsb' (w * k) w = 0#w := by
    rw [beq_iff_eq, ← BitVec.toNat_inj, toNat_extractLsb'_eq_div_mod, BitVec.toNat_ushiftRight, Nat.shiftRight_eq_div_pow, BitVec.toNat_zero]
  simp only [someUnitZero, List.any_eq_true, List.mem_range, unit]

/-- A unit of `n` digits carries when its leftmost digit does; `inside` are the units of the selected size, those from digit 0 or 8 on. -/
theorem someUnitCarries_iff (n : Nat) {inside : Nat → Prop} (h : ∀ k, inside k ↔ (if d then 0 else 8) ≤ n * k ∧ n * k < 16) :
    someUnitCarries (4 * n) d cb = true ↔ ∃ k, inside k ∧ cb.getMsbD (n * k) = true := by
  have size (i : Nat) : (if d then 0 else 8) ≤ i ↔ d = true ∨ 8 ≤ i := by cases d <;> simp
  simp only [someUnitCarries, List.any_eq_true, List.mem_range, Nat.mul_div_cancel_left n (by decide : 0 < 4), Bool.and_eq_true, beq_iff_eq,
    Bool.or_eq_true, decide_eq_true_iff, bitAt]
  constructor
  · rintro ⟨i, hi, ⟨first, low⟩, carries⟩
    obtain ⟨k, rfl⟩ := Nat.dvd_of_mod_eq_zero first
    exact ⟨k, (h k).2 ⟨(size _).2 low, hi⟩, carries⟩
  · rintro ⟨k, within, carries⟩
    obtain ⟨low, hk⟩ := (h k).1 within
    exact ⟨n * k, hk, ⟨Nat.mul_mod_right n k, (size _).1 low⟩, carries⟩

theorem ne_zero_iff_getMsbD {n : Nat} (x : BitVec n) : x ≠ 0#n ↔ ∃ i, i < n ∧ x.getMsbD i = true := by
  constructor
  · intro nonzero
    by_contra none
    refine nonzero (BitVec.eq_of_getMsbD_eq fun i hi => ?_)
    rw [BitVec.getMsbD_zero, ← Bool.not_eq_true]
    exact fun bit => none ⟨i, hi, bit⟩
  · rintro ⟨i, -, bit⟩ rfl
    rw [BitVec.getMsbD_zero] at bit
    exact Bool.false_ne_true bit

/-- Some digit of the doubleword carries. -/
theorem someDigitCarries_iff : someUnitCarries 4 true cb = true ↔ cb ≠ 0#16 := by
  rw [ne_zero_iff_getMsbD, someUnitCarries_iff true cb 1 (inside := fun k => k < 16) (by simp)]
  simp only [Nat.one_mul]

/-- Some digit of the low word carries. -/
theorem someLowDigitCarries_iff : someUnitCarries 4 false cb = true ↔ cb.extractLsb' 0 8 ≠ 0#8 := by
  have low (i : Nat) (hi : i < 8) : (cb.extractLsb' 0 8).getMsbD i = cb.getMsbD (8 + i) := by
    rw [BitVec.getMsbD_eq_getLsbD, BitVec.getMsbD_eq_getLsbD, BitVec.getLsbD_extractLsb', decide_eq_true hi, decide_eq_true (by omega),
      decide_eq_true (by omega), show 16 - 1 - (8 + i) = 0 + (8 - 1 - i) by omega]
    rfl
  rw [ne_zero_iff_getMsbD, someUnitCarries_iff false cb 1 (inside := fun k => 8 ≤ k ∧ k < 16) (by simp)]
  simp only [Nat.one_mul]
  constructor
  · rintro ⟨k, ⟨hk, below⟩, carries⟩
    refine ⟨k - 8, by omega, ?_⟩
    rwa [low _ (by omega), Nat.add_sub_cancel' hk]
  · rintro ⟨i, hi, bit⟩
    exact ⟨8 + i, by omega, low i hi ▸ bit⟩

theorem unitCondition_negated (c : BitVec 3) : unitCondition c true d v cb = !(unitCondition c false d v cb) := by
  rw [unitCondition, unitCondition, Bool.xor_true, Bool.xor_false]

end

/-! ### Decimal correction (R562) -/

/-- The digits of the correction are 6 where the field has a 1. -/
theorem extractLsb'_sixes (cb : BitVec 16) {k : Nat} (hk : k < 16) :
    (sixes cb).extractLsb' (4 * k) 4 = if cb.getLsbD k then 6#4 else 0#4 := by
  have digits : sixes cb = (List.range 16).foldl
      (fun (acc : Dword) i => (acc <<< 4) ||| (if bitAt cb i then 6#4 else 0#4).setWidth 64) 0#64 := by
    have digit (i : Nat) : (if bitAt cb i then 6 else 0 : Dword) = (if bitAt cb i then 6#4 else 0#4).setWidth 64 := by split <;> rfl
    simp only [sixes, digit]
    rfl
  have bit : bitAt cb (16 - 1 - k) = cb.getLsbD k := by
    rw [bitAt, BitVec.getLsbD_eq_getMsbD, decide_eq_true hk, Bool.true_and]
  apply BitVec.eq_of_getLsbD_eq
  intro j hj
  rw [BitVec.getLsbD_extractLsb', decide_eq_true hj, Bool.true_and, digits, getLsbD_foldl_digits _ hk hj (by omega), bit]

/-- Settles O42: the instructions write their target and test it; the logical conditions are read off the number and the unit conditions off the
units or their leftmost digits, for each size. -/
theorem logicalAndUnit : Obligations.LogicalAndUnit := by
  refine ⟨?instructions, fun v f => ?logical, fun v cb => ?unit, fun cb k hk => extractLsb'_sixes cb hk⟩
  case instructions =>
    rintro s r2 r1 r t c f d im11 x y z q qi hp rfl rfl rfl rfl rfl
    refine ⟨completes_target hp rfl, completes_target hp rfl, completes_target hp rfl, completes_target hp rfl, completes_target hp rfl,
      ?uaddcm, ?uaddcmTc, completes_target hp rfl, completes_target hp rfl, ?dcor, ?dcorI⟩
    case uaddcm =>
      rw [← sum_add]
      exact completes_target hp rfl
    case uaddcmTc =>
      rw [← sum_add]
      exact arith_trapsOrCompletes (k := ⟨false, true, false⟩) hp rfl
    case dcor =>
      rw [← sum_sub]
      exact completes_target hp rfl
    case dcorI =>
      rw [← sum_add]
      exact completes_target hp rfl
  case logical =>
    have zero : (v == 0#64) = decide (v.toNat = 0) := by
      rw [Bool.eq_iff_iff, beq_iff_eq, decide_eq_true_iff, ← BitVec.toNat_inj, BitVec.toNat_zero]
    rw [zero, ← show unsignedOf false v = v.toNat % 2 ^ 32 from unsignedOf_eq_mod false v]
    exact ⟨logicalCondition_zero f true v, logicalCondition_negative f true v, logicalCondition_notPositive f true v,
      logicalCondition_odd f true v, logicalCondition_zero f false v, logicalCondition_negative f false v, logicalCondition_notPositive f false v,
      logicalCondition_odd f false v, logicalCondition_never f true v, logicalCondition_never f false v⟩
  case unit =>
    have plain {b : Bool} : (b ^^ false) = true ↔ b = true := by rw [Bool.xor_false]
    have assoc {p q r : Nat → Prop} : (∃ k, (p k ∧ q k) ∧ r k) ↔ ∃ k, p k ∧ q k ∧ r k := by simp only [and_assoc]
    have first {p : Nat → Prop} : (∃ k, k < 2 ∧ p k) ↔ p 0 ∨ p 1 := by
      simp only [Nat.exists_lt_succ_right, Nat.not_lt_zero, false_and, exists_false, false_or]
    refine ⟨fun c d => unitCondition_negated d v cb c, fun d => rfl, plain.trans ((someUnitZero_iff true v 32).trans first),
      plain.trans (someUnitZero_iff false v 16), plain.trans ((someUnitCarries_iff true cb 8 ?words).trans first),
      plain.trans (someUnitCarries_iff true cb 2 ?bytes), plain.trans ((someUnitCarries_iff false cb 2 ?lowBytes).trans assoc),
      plain.trans (someUnitCarries_iff true cb 4 ?halfwords), plain.trans ((someUnitCarries_iff false cb 4 ?lowHalfwords).trans assoc),
      plain.trans (someUnitZero_iff true v 8), plain.trans (someUnitZero_iff false v 8), plain.trans (someUnitZero_iff true v 16),
      plain.trans (someDigitCarries_iff cb), plain.trans (someLowDigitCarries_iff cb)⟩
    all_goals
      intro k
      simp only [if_true, Bool.false_eq_true, if_false]
      omega

end Sys2Proof.Machine
end

section
/-! SUPPORT. The bits of shifted pairs, extracted fields and deposits, the conditions on them, and how the instructions that compute them end, for O43
and O44. -/

namespace Sys2Proof.Machine

/-! ### Shifted pairs (44_shift_extract_deposit.md R592, R593) -/

theorem getLsbD_shiftPair (hi lo : Dword) (sa : Nat) {k : Nat} (hk : k < 64) :
    (shiftPair hi lo sa).getLsbD k = if k + sa < 64 then lo.getLsbD (k + sa) else hi.getLsbD (k + sa - 64) := by
  rw [shiftPair, BitVec.getLsbD_extractLsb', decide_eq_true hk, Bool.true_and, BitVec.getLsbD_ushiftRight, BitVec.getLsbD_append, Nat.zero_add,
    Nat.add_comm sa k]

theorem getLsbD_shiftPairWord (hi lo : Dword) {sa : Nat} (k : Nat) (hsa : sa < 32) :
    (shiftPairWord hi lo sa).getLsbD k = (decide (k < 32) && if k + sa < 32 then lo.getLsbD (k + sa) else hi.getLsbD (k + sa - 32)) := by
  rw [shiftPairWord, BitVec.zeroExtend_eq_setWidth, BitVec.getLsbD_setWidth, BitVec.getLsbD_extractLsb']
  by_cases hk : k < 32
  · have inDatum : k < 64 := by omega
    have inHigh : k + sa - 32 < 32 := by omega
    simp only [hk, inDatum, decide_true, Bool.true_and, BitVec.getLsbD_ushiftRight, BitVec.getLsbD_append, BitVec.getLsbD_extractLsb', Nat.zero_add,
      Nat.add_comm sa k, inHigh]
    split
    next inLow => rw [decide_eq_true inLow, Bool.true_and]
    next => rfl
  · rw [decide_eq_false hk, Bool.false_and, Bool.false_and, Bool.and_false]

/-! ### Extracted fields (R594, R595) -/

/-- Bit `n - 1`, which the shift to the left brings to the doubleword's left end, is the sign of the extension. -/
theorem getLsbD_extendFrom (signed : Bool) (x : Dword) {n k : Nat} (hn : 1 ≤ n) (hn' : n ≤ 64) (hk : k < 64) :
    (extendFrom signed x n).getLsbD k = if k < n then x.getLsbD k else signed && x.getLsbD (n - 1) := by
  have moved {j : Nat} (hj : j < n) : (x <<< (64 - n)).getLsbD (64 - n + j) = x.getLsbD j := by
    rw [BitVec.getLsbD_shiftLeft, decide_eq_true (by omega), decide_eq_false (by omega), Nat.add_sub_cancel_left]
    rfl
  have sign : (x <<< (64 - n)).msb = x.getLsbD (n - 1) := by
    rw [BitVec.msb_eq_getLsbD_last, ← moved (by omega)]
    congr 1
    omega
  cases signed with
  | true =>
    rw [extendFrom, if_pos rfl, BitVec.getLsbD_sshiftRight, decide_eq_false (by omega), sign]
    by_cases inField : k < n
    · rw [if_pos inField, if_pos (by omega), moved inField]
      rfl
    · rw [if_neg inField, if_neg (by omega)]
      rfl
  | false =>
    rw [extendFrom, if_neg Bool.false_ne_true, BitVec.getLsbD_ushiftRight]
    by_cases inField : k < n
    · rw [if_pos inField, moved inField]
    · rw [if_neg inField, BitVec.getLsbD_of_ge _ _ (by omega)]
      rfl

theorem getLsbD_extractField {width pos len k : Nat} (hwidth : width ≤ 64) (hpos : pos < width) (signed : Bool) (x : Dword) (hlen : 1 ≤ len)
    (hk : k < 64) : (extractField width signed x pos len).getLsbD k =
      if k < min len (pos + 1) then x.getLsbD (width - 1 - pos + k) else signed && x.getLsbD (width - 1 - pos + min len (pos + 1) - 1) := by
  rw [extractField, getLsbD_extendFrom signed _ (by omega) (by omega) hk, BitVec.getLsbD_ushiftRight, BitVec.getLsbD_ushiftRight,
    Nat.add_sub_assoc (by omega)]

/-! ### Deposits (R596 to R599) -/

/-- The rightmost `n` bits are ones, also when `n` is the whole width and the shifted one is lost. -/
theorem toNat_shiftLeft_one_sub_one {n : Nat} (hn : n ≤ 64) : (((1 : Dword) <<< n) - 1).toNat = 2 ^ n - 1 := by
  rcases Nat.lt_or_eq_of_le hn with inside | rfl
  · have below : 2 ^ n < 2 ^ 64 := Nat.pow_lt_pow_right (by decide) inside
    have positive := Nat.two_pow_pos n
    rw [BitVec.toNat_sub, BitVec.toNat_shiftLeft, show (1 : Dword).toNat = 1 from rfl, Nat.one_shiftLeft]
    omega
  · rfl

/-- The bits that a deposit replaces. -/
theorem getLsbD_fieldMask {sh n k : Nat} (hn : n ≤ 64) (hk : k < 64) :
    ((((1 : Dword) <<< n) - 1) <<< sh).getLsbD k = decide (sh ≤ k ∧ k < sh + n) := by
  rw [BitVec.getLsbD_shiftLeft, BitVec.getLsbD, toNat_shiftLeft_one_sub_one hn, Nat.testBit_two_pow_sub_one, decide_eq_true hk, Bool.true_and,
    Bool.eq_iff_iff]
  simp only [Bool.and_eq_true, Bool.not_eq_true', decide_eq_true_iff, decide_eq_false_iff_not]
  omega

theorem getLsbD_depositField {width pos k : Nat} (hwidth : width ≤ 64) (hpos : pos < width) (old v : Dword) (len : Nat) (hk : k < 64) :
    (depositField width old v pos len).getLsbD k =
      if width - 1 - pos ≤ k ∧ k < width - 1 - pos + min len (pos + 1) then v.getLsbD (k - (width - 1 - pos)) else old.getLsbD k := by
  rw [depositField, BitVec.getLsbD_or, BitVec.getLsbD_and, BitVec.getLsbD_and, BitVec.getLsbD_not, getLsbD_fieldMask (by omega) hk,
    BitVec.getLsbD_shiftLeft, decide_eq_true hk]
  by_cases inField : width - 1 - pos ≤ k ∧ k < width - 1 - pos + min len (pos + 1)
  · have notBelow : ¬k < width - 1 - pos := by omega
    rw [if_pos inField, decide_eq_true inField, decide_eq_false notBelow]
    simp
  · rw [if_neg inField, decide_eq_false inField]
    simp

/-- Settles O44: each function bit by bit, and the conditions by what they look at. -/
theorem shiftFields : Obligations.ShiftFields := by
  refine ⟨fun x y sa k hk => ?pairs, ?fields, fun x d => ?conditions⟩
  case pairs => exact ⟨fun _ => getLsbD_shiftPair x y sa hk, getLsbD_shiftPairWord x y k⟩
  case fields =>
    rintro width pos len _ k x y signed hw hpos hlen hk rfl
    have hwidth : width ≤ 64 := by omega
    exact ⟨getLsbD_extractField hwidth hpos signed x hlen hk, getLsbD_depositField hwidth hpos x y len hk⟩
  case conditions =>
    have zero {n : Nat} (y : BitVec n) : y.toNat = 0 ↔ y = 0#n := by rw [← BitVec.toNat_inj, BitVec.toNat_zero]
    exact ⟨rfl, rfl, (isZero_iff true x).trans (zero x), (isZero_iff false x).trans (zero _), rfl, rfl, rfl, rfl, rfl, rfl⟩

/-! ### The operands of the instructions -/

theorem wordLen_eq (clen : BitVec 5) : wordLen clen = 32 - clen.toNat := rfl

theorem complementPos_eq (cp : BitVec 1) (cpos : BitVec 5) : complementPos cp cpos = 63 - (32 * cp.toNat + cpos.toNat) :=
  congrArg (63 - ·) (toNat_append_eq_add cp cpos)

theorem State.depositInto_eq (s : State) (t : BitVec 5) (nz : BitVec 1) : s.depositInto t nz = if nz = 1#1 then s.readGr t else 0 := by
  simp only [State.depositInto, isSet, beq_iff_eq]

/-! ### How the instructions end (R591, R601) -/

section
variable {i : Instr} {s : State} {t : BitVec 5} {c : BitVec 3} {res : Dword}

theorem shiftsTo_of_shiftDone (hp : Plain s) (hx : exec i s = complete s (s.shiftDone t res c)) : ShiftsTo i s t c res :=
  completes_target hp hx

theorem shiftsToWord_of_shiftDoneWord (hp : Plain s) (hx : exec i s = complete s (s.shiftDoneWord t res c)) : ShiftsToWord i s t c res :=
  completes_of_done hp hx (by simp) (by simp) (by simp) (by simp)

variable {pos len : Nat} {r : Res Done} (hx : exec i s = complete s (fixedField pos len >>= fun _ => r))
include hx

theorem exec_of_field_inside (inside : len ≤ pos + 1) : exec i s = complete s r := by
  rw [hx, fixedField, if_pos inside]
  rfl

theorem refused_of_field_off_end (off : pos + 1 < len) : exec i s = .refused .fieldOffEnd := by
  rw [hx, fixedField, if_neg (Nat.not_le.2 off)]
  rfl

end

/-- Settles O43: each instruction is the end of its size on the value of its form, a fixed field after the check that it lies within the datum. -/
theorem shiftsExtractsDeposits : Obligations.ShiftsExtractsDeposits := by
  rintro s r2 r1 r t im5 cpos pos clen c se nz p cp cl _ _ _ _ hp rfl rfl rfl rfl
  have place : 32 * p.toNat + pos.toNat = (p ++ pos).toNat := (toNat_append_eq_add p pos).symm
  rw [place, ← wordLen_eq, ← complementPos_eq, ← s.depositInto_eq]
  have double {i : Instr} {res : Dword} := shiftsTo_of_shiftDone (i := i) (t := t) (c := c) (res := res) hp
  have word {i : Instr} {res : Dword} := shiftsToWord_of_shiftDoneWord (i := i) (t := t) (c := c) (res := res) hp
  refine ⟨double rfl, double rfl, word rfl, word rfl, double rfl, word rfl, double rfl, double rfl, word rfl, word rfl,
    fun inside => double (exec_of_field_inside rfl inside), fun off => refused_of_field_off_end rfl off,
    fun inside => word (exec_of_field_inside rfl inside), fun off => refused_of_field_off_end rfl off,
    fun inside => ⟨double (exec_of_field_inside rfl inside), double (exec_of_field_inside rfl inside)⟩,
    fun off => ⟨refused_of_field_off_end rfl off, refused_of_field_off_end rfl off⟩,
    fun inside => ⟨word (exec_of_field_inside rfl inside), word (exec_of_field_inside rfl inside)⟩,
    fun off => ⟨refused_of_field_off_end rfl off, refused_of_field_off_end rfl off⟩⟩

end Sys2Proof.Machine
end

section
/-! SUPPORT. The halfword instructions as four lanes, and saturation, the average and the shifts with addition as numbers, for O45. -/

namespace Sys2Proof.Machine

/-! ### Saturation (45_multimedia.md R621) -/

theorem toInt_satSigned (v : Int) : (satSigned v).toInt = max (-32768) (min 32767 v) := by
  unfold satSigned
  split
  next above => rw [show (0x7FFF#16).toInt = 32767 from rfl]; omega
  next =>
    split
    next below => rw [show (0x8000#16).toInt = -32768 from rfl]; omega
    next => rw [BitVec.toInt_ofInt_eq_self (by decide) (by omega) (by omega)]; omega

theorem toNat_satUnsigned (v : Int) : ((satUnsigned v).toNat : Int) = max 0 (min 65535 v) := by
  unfold satUnsigned
  split
  next above => rw [show (0xFFFF#16).toNat = 65535 from rfl]; omega
  next =>
    split
    next below => rw [show (0#16).toNat = 0 from rfl]; omega
    next => rw [BitVec.toNat_ofInt]; omega

/-! ### The arithmetic of a lane (R624 to R626) -/

/-- A bit ORed into a number adds one when it is set and the number is even. -/
theorem or_bit_eq_add (n : Nat) {b : Nat} (hb : b < 2) : n ||| b = n + if n % 2 = 0 ∧ b = 1 then 1 else 0 := by
  have upper : (n ||| b) / 2 = n / 2 := by rw [Nat.or_div_two, Nat.div_eq_of_lt hb, Nat.or_zero]
  have last : (n ||| b) % 2 = 1 ↔ n % 2 = 1 ∨ b % 2 = 1 := Nat.or_mod_two_eq_one
  split <;> omega

/-- The last bit of an odd sum is lost by the halving and set again, which adds one to an even half. -/
theorem toNat_laneAverage (a b : BitVec 16) :
    (laneAverage a b).toNat = (a.toNat + b.toNat) / 2 + (if (a.toNat + b.toNat) % 4 = 1 then 1 else 0) := by
  have ha := a.isLt
  have hb := b.isLt
  rw [laneAverage, BitVec.toNat_ofNat, or_bit_eq_add _ (Nat.mod_lt _ (by decide))]
  split <;> split <;> omega

/-- The shifted operand saturates without the addition when it has left the halfword's range. -/
theorem toInt_laneShiftLeftAdd (a b : BitVec 16) (sa : Nat) : (laneShiftLeftAdd a b sa).toInt =
    if -32768 ≤ a.toInt * 2 ^ sa ∧ a.toInt * 2 ^ sa ≤ 32767 then max (-32768) (min 32767 (a.toInt * 2 ^ sa + b.toInt))
    else max (-32768) (min 32767 (a.toInt * 2 ^ sa)) := by
  have left (v : Int) : (decide (32767 < v) || decide (v < -32768)) = true ↔ ¬(-32768 ≤ v ∧ v ≤ 32767) := by
    rw [Bool.or_eq_true, decide_eq_true_iff, decide_eq_true_iff]
    omega
  simp only [laneShiftLeftAdd, left, ite_not, apply_ite BitVec.toInt, toInt_satSigned]

theorem toInt_laneShiftRightAdd (a b : BitVec 16) (sa : Nat) :
    (laneShiftRightAdd a b sa).toInt = max (-32768) (min 32767 (a.toInt / 2 ^ sa + b.toInt)) := by
  rw [laneShiftRightAdd, toInt_satSigned, BitVec.toInt_sshiftRight, Int.shiftRight_eq_div_pow, Int.natCast_pow]
  rfl

/-! ### Four lanes (R620) -/

section
variable {i : Instr} {s : State} {t : BitVec 5} {f : Nat → BitVec 16} (hp : Plain s)
include hp

theorem lanesTo_of_lanesForm (hx : exec i s = complete s (s.lanesForm t f)) : LanesTo i s t f := completes_target hp hx

theorem lanesTo_of_value {v : Dword} (hx : exec i s = complete s (done s (s.writeGr t v) false)) (hv : v = lanes f) : LanesTo i s t f := by
  subst hv
  exact lanesTo_of_lanesForm hp hx

end

/-- Two words are the two halfwords of the first and the two of the second. -/
theorem append_words_eq_lanes (x y : Dword) (k : Nat) :
    x.extractLsb' k 32 ++ y.extractLsb' k 32 =
      (x.extractLsb' (k + 16) 16 ++ x.extractLsb' k 16 ++ y.extractLsb' (k + 16) 16 ++ y.extractLsb' k 16 : Dword) := by
  have word (v : Dword) : v.extractLsb' k (16 + 16) = v.extractLsb' (k + 16) 16 ++ v.extractLsb' k 16 :=
    (BitVec.extractLsb'_append_extractLsb'_eq_extractLsb' rfl).symm
  exact (congrArg₂ (· ++ ·) (word x) (word y)).trans BitVec.append_assoc'

/-- Settles O45: each instruction is the four lanes of its function of the sources' lanes, and the functions as numbers. -/
theorem halfwords : Obligations.Halfwords := by
  refine ⟨?_, fun v a b sa _ => ⟨toInt_satSigned v, toNat_satUnsigned v, toNat_laneAverage a b, toInt_laneShiftLeftAdd a b sa,
    toInt_laneShiftRightAdd a b sa⟩⟩
  rintro s r2 r1 r t sa n c0 c1 c2 c3 x y z hp hx hy hz
  obtain rfl : x = lane (s.readGr r1) := funext hx
  obtain rfl : y = lane (s.readGr r2) := funext hy
  obtain rfl : z = lane (s.readGr r) := funext hz
  have lanewise {i : Instr} {f : Nat → BitVec 16} := lanesTo_of_lanesForm (i := i) (t := t) (f := f) hp
  refine ⟨lanewise rfl, lanewise rfl, lanewise rfl, lanewise rfl, lanewise rfl, lanewise rfl, lanewise rfl, lanewise rfl, lanewise rfl,
    lanewise rfl, lanewise rfl, lanewise rfl, lanewise rfl, lanewise rfl, ?mixwL, ?mixwR, ?permh, fun different => ?permhUndefined⟩
  case mixwL => exact lanesTo_of_value hp rfl (append_words_eq_lanes _ _ 32)
  case mixwR => exact lanesTo_of_value hp rfl (append_words_eq_lanes _ _ 0)
  case permh => exact completes_target hp (congrArg (complete s) (if_pos rfl))
  case permhUndefined => exact congrArg (complete s) (if_neg different)

end Sys2Proof.Machine
end

section
/-! SUPPORT. The step between two instructions, the start state and what taking an interruption installs, saves and leaves alone, for O2, O4, O7 and
O9 to O13. -/

namespace Sys2Proof.Machine

/-! ### The step (60_exceptions.md R1003) -/

/-- Settles O4: with nothing pending and no nullification the step is the execution of the fetched word. -/
theorem stepRunsDecoded : Obligations.StepRunsDecoded := by
  rintro r s w i rfl quiet hn hf hd
  simp only [step, stepNow, quiet, hn, executeCurrent, hf, executeWord, hd, Bool.false_eq_true, if_false]

/-- Settles O2: the decoder evaluated on each word. -/
theorem sampleWords : Obligations.SampleWords := by
  unfold Obligations.SampleWords
  decide +kernel

/-! ### The start state (70_reset_and_hazards.md R1101) -/

/-- Settles O9: memory, the TLBs and the branch target stack are empty, and the other words are 0. -/
theorem resetInv : Obligations.ResetInv where
  memory := rfl
  psw := rfl
  ipsw := rfl
  iva := rfl
  units := ⟨rfl, rfl⟩
  dtlb := ⟨.nil, fun _ h => absurd h List.not_mem_nil⟩
  itlb := ⟨.nil, fun _ h => absurd h List.not_mem_nil⟩
  stack := rfl
  compares := le_refl 12

/-- Settles O10: every clause is about one plain value. -/
theorem resetState : Obligations.ResetState :=
  ⟨rfl, rfl, rfl, rfl, rfl, rfl, rfl, rfl, rfl, rfl, rfl, rfl, rfl, rfl, rfl, rfl, rfl, rfl, rfl, rfl, rfl, rfl, rfl, rfl,
    fun _ h => absurd h List.not_mem_nil, rfl⟩

/-! ### Pending interruptions (R1003, R1055) -/

theorem step_of_pending {r s : State} (n : Interruption) (hs : s = r.passTime) (h : pendingInterruption s = some n) :
    step r = .next (takeInterruption (s.acknowledge n) n (pendingParams n)) := by
  subst hs
  rw [step, stepNow, h]
  rfl

theorem bitAt_zero {n : Nat} (x : BitVec n) : bitAt x 0 = x.msb := rfl

/-- Past the machine check, the power failure and the recovery counter, the requests that PSW[I] and PSW[F] mask are left. -/
theorem pendingInterruption_masked {s : State} (noCheck : (s.hpmcPending && !(s.flag Psw.M)) = false)
    (noFail : (s.powerFailPending && s.flag Psw.I) = false) (noCount : (s.flag Psw.R && s.rctr.msb) = false) :
    pendingInterruption s =
      if s.flag Psw.I && (s.eirr &&& s.eiem) != 0 then some .external
      else if s.flag Psw.I && s.lpmcPending then some .lowPriorityMachineCheck
      else if s.flag Psw.F && s.perfMonPending then some .performanceMonitor
      else none := by
  simp only [pendingInterruption, noCheck, noFail, bitAt_zero, noCount, Bool.false_eq_true, if_false]

/-- Settles O7: each clause is the first of the conditions of `pendingInterruption` that holds, and the timer's bit is `tick_eirr`. -/
theorem pendingOrder : Obligations.PendingOrder := by
  refine ⟨fun r s hs => ?_, fun s => ⟨fun hit => ?_, fun miss => ?_⟩⟩
  · refine ⟨fun hpmc hm => step_of_pending .highPriorityMachineCheck hs ?_, fun noCheck =>
      ⟨fun fail hi => step_of_pending .powerFailure hs ?_, fun noFail => ⟨fun hr hc => step_of_pending .recoveryCounter hs ?_, fun noCount => ?_⟩⟩⟩
    · simp [pendingInterruption, hpmc, hm]
    · simp [pendingInterruption, noCheck, fail, hi]
    · simp [pendingInterruption, noCheck, noFail, hr, bitAt_zero, hc]
    · have masked := pendingInterruption_masked noCheck noFail noCount
      refine ⟨fun hi he => step_of_pending .external hs ?_, fun hi he lpmc => step_of_pending .lowPriorityMachineCheck hs ?_,
        fun none hf perf => step_of_pending .performanceMonitor hs ?_⟩
      · rw [masked, hi, Bool.true_and, if_pos (bne_iff_ne.2 he)]
      · simp [masked, hi, he, lpmc]
      · obtain hi | ⟨he, lpmc⟩ := none
        · simp [masked, hi, hf, perf]
        · simp [masked, he, lpmc, hf, perf]
  · rw [tick_eirr, if_pos hit]
  · rw [tick_eirr, if_neg miss]

/-! ### What an interruption installs (R1007, R1008) -/

theorem State.flag_interruptionPsw (s : State) (n : Interruption) :
    bitAt (s.interruptionPsw n) Psw.W = s.defaultWidth ∧ bitAt (s.interruptionPsw n) Psw.E = s.defaultEndian ∧
      bitAt (s.interruptionPsw n) Psw.M = decide (n = .highPriorityMachineCheck) := by
  simp [State.interruptionPsw, bitAt_withBit, Psw.W, Psw.E, Psw.M]

/-- The bits W, E and M are all that an interruption sets. -/
theorem State.interruptionPsw_rest (s : State) (n : Interruption) :
    s.interruptionPsw n &&& ~~~(bitMask Psw.W ||| bitMask Psw.E ||| bitMask Psw.M) = 0 := by
  unfold State.interruptionPsw
  rw [withBit_and_not _ _ _ _ (by decide), withBit_and_not _ _ _ _ (by decide), withBit_and_not _ _ _ _ (by decide)]
  exact BitVec.zero_and

theorem Interruption.number_eq_one_iff (n : Interruption) : n.number = 1 ↔ n = .highPriorityMachineCheck := by
  cases n <;> decide

theorem State.vector_eq (s : State) (n : Interruption) : s.vector n = s.iva + 32 * BitVec.ofNat 64 n.number := by
  rw [State.vector, BitVec.ofNat_mul]
  rfl

/-- A vector entry of an aligned base is at level 0. -/
theorem State.vector_level {s : State} (h : s.iva &&& 0x7FF#64 = 0) (n : Interruption) : (s.vector n).extractLsb' 0 2 = 0#2 := by
  have base : s.iva.toNat % 4 = 0 := by
    have low := congrArg BitVec.toNat ((and_lowMask_eq_zero_iff s.iva).1 h)
    rw [BitVec.extractLsb'_toNat] at low
    simp only [Nat.shiftRight_zero, BitVec.toNat_ofNat] at low
    omega
  apply BitVec.eq_of_toNat_eq
  rw [State.vector, BitVec.extractLsb'_toNat, BitVec.toNat_add, BitVec.toNat_ofNat, Nat.shiftRight_zero]
  simp only [BitVec.toNat_ofNat]
  omega

/-- Settles O11: the PSW bit by bit, and the vector entry as a sum. -/
theorem interruptionEntry : Obligations.InterruptionEntry := by
  intro s n p hiva
  obtain ⟨hw, he, hm⟩ := s.flag_interruptionPsw n
  refine ⟨rfl, hw, he, ?_, s.interruptionPsw_rest n, s.vector_eq n, rfl, s.vector_level hiva n, rfl, rfl⟩
  exact hm.trans (decide_eq_decide.2 n.number_eq_one_iff.symm)

/-! ### What an interruption leaves alone (R1006) -/

/-- Settles O13: none of these registers is one that `takeInterruption_frame` names. -/
theorem interruptionRollsBack : Obligations.InterruptionRollsBack := by
  intro s n p r q a
  rw [takeInterruption_frame]
  exact ⟨rfl, rfl, rfl, rfl, rfl, rfl, rfl, rfl, rfl, rfl, rfl, rfl, rfl, rfl, rfl, rfl, rfl, rfl, rfl, rfl, rfl, rfl, rfl, rfl, rfl, rfl⟩

end Sys2Proof.Machine
end

section
/-! SUPPORT. The shadow registers, the queues and the parameters that an interruption saves, and what returning from one brings back, for O12 and O14. -/

namespace Sys2Proof.Machine

/-! ### The words that report a data address (10_state.md R75) -/

theorem append_zero_or_low32 (b : BitVec 2) (x : Dword) : (b ++ 0#62) ||| low32 x = b ++ 0#30 ++ x.extractLsb' 0 32 := by
  have low : low32 x = 0#2 ++ (0#30 ++ x.extractLsb' 0 32) := 
    (low32_eq_append x).trans (BitVec.append_assoc (x₁ := 0#2) (x₂ := 0#30))
  rw [low, BitVec.or_append, BitVec.or_zero, BitVec.zero_or]
  exact BitVec.append_assoc'

theorem shiftLeft_base (b : BitVec 2) : (b.zeroExtend 64) <<< 62 = b ++ 0#62 := by
  revert b; decide

theorem and_upperBits (v : Dword) : v &&& 0xC000000000000000#64 = v.extractLsb' 62 2 ++ 0#62 := by
  conv_lhs => rw [eq_append_low62 v]
  rw [show 0xC000000000000000#64 = 3#2 ++ 0#62 by decide, BitVec.and_append, BitVec.and_zero, show 3#2 = BitVec.allOnes 2 by decide, BitVec.and_allOnes]

theorem ushiftRight_and_upper (x : Dword) : (x >>> 32) &&& 0x3FFFFFFF#64 = 0#34 ++ x.extractLsb' 32 30 := by
  apply BitVec.eq_of_toNat_eq
  rw [BitVec.toNat_and, show (0x3FFFFFFF#64).toNat = 2 ^ 30 - 1 from rfl, Nat.and_two_pow_sub_one_eq_mod, toNat_append_eq_add,
    toNat_extractLsb'_eq_div_mod, BitVec.toNat_ushiftRight, Nat.shiftRight_eq_div_pow]
  simp

/-- ISR and IOR as a translated address gives them. -/
theorem State.loadParams_virtual (s : State) (a : DataAddr) :
    ((s.loadParams (.virtualData a)).isr = if s.flag Psw.W then a.space ||| ((a.offset >>> 32) &&& 0x3FFFFFFF#64) else a.space) ∧
    (s.loadParams (.virtualData a)).ior =
      (if s.flag Psw.W then a.base.extractLsb' 62 2 else a.base.extractLsb' 30 2) ++ 0#30 ++ a.offset.extractLsb' 0 32 := by
  refine ⟨rfl, ?_⟩
  rw [← append_zero_or_low32, ← shiftLeft_base]
  rfl

theorem State.loadParams_data_virtual {s : State} (hd : s.flag Psw.D = true) (a : DataAddr) :
    s.loadParams (.data a) = s.loadParams (.virtualData a) := by
  simp only [State.loadParams, hd, if_true]

/-- ISR and IOR as an absolute address gives them. -/
theorem State.loadParams_data_absolute {s : State} (hd : s.flag Psw.D = false) (a : DataAddr) :
    ((s.loadParams (.data a)).isr = if s.flag Psw.W then 0#34 ++ a.offset.extractLsb' 32 30 else 0) ∧
    (s.loadParams (.data a)).ior = (s.free 0).extractLsb' 62 2 ++ 0#30 ++ a.offset.extractLsb' 0 32 := by
  rw [← append_zero_or_low32, ← and_upperBits, ← ushiftRight_and_upper]
  simp only [State.loadParams, hd, Bool.false_eq_true, if_false, and_self]

theorem State.loadParams_data_iir (s : State) (a : DataAddr) : (s.loadParams (.data a)).iir = s.iword := by
  simp only [State.loadParams]
  split <;> rfl

/-! ### What is saved (60_exceptions.md R1007, R1012) -/

section
variable {s : State} {n : Interruption} (p : Params)

/-- With PSW[Q] = 0 nothing is collected. -/
theorem State.collect_of_quiet (hq : s.flag Psw.Q = false) : s.collect n p = s := by
  simp only [State.collect, hq, Bool.false_eq_true, if_false]

/-- With PSW[Q] = 1 the queues, the parameters and the shadow registers are collected. -/
theorem State.collect_of_collecting (hq : s.flag Psw.Q = true) (hn : n ≠ .highPriorityMachineCheck) :
    s.collect n p = (s.collectQueues.loadParams p).loadShadow := by
  simp only [State.collect, hq, if_neg hn, if_true]

theorem State.collect_check (hq : s.flag Psw.Q = true) :
    s.collect .highPriorityMachineCheck p = (s.collectFreeQueues.loadParams p).loadShadow := by
  simp only [State.collect, hq, if_true]

end

/-- Loading the parameters leaves the queues and the general registers. -/
theorem State.loadParams_frame (s : State) (p : Params) :
    (s.loadParams p).gr = s.gr ∧ (s.loadParams p).iiasqFront = s.iiasqFront ∧ (s.loadParams p).iiasqBack = s.iiasqBack ∧
      (s.loadParams p).iiaoqFront = s.iiaoqFront ∧ (s.loadParams p).iiaoqBack = s.iiaoqBack := by
  rw [loadParams_eq]
  exact ⟨rfl, rfl, rfl, rfl, rfl⟩

/-- The shadow registers are the seven general registers. -/
theorem State.loadShadow_shr_of_gr {s t : State} (h : t.gr = s.gr) : t.loadShadow.shr = s.loadShadow.shr := by
  simp only [State.loadShadow, State.readGr, h]

/-- The saved queues and shadow registers of an interruption that is no high-priority machine check. -/
theorem takeInterruption_saves {s : State} {n : Interruption} {p : Params} (hq : s.flag Psw.Q = true) (hn : n ≠ .highPriorityMachineCheck) :
    (takeInterruption s n p).shr = s.loadShadow.shr ∧
    (takeInterruption s n p).iiasqFront = s.iiasqElement s.iasqFront s.iaoqFront ∧
    (takeInterruption s n p).iiasqBack = s.iiasqElement s.iasqBack s.iaoqBack ∧
    (takeInterruption s n p).iiaoqFront = s.iiaoqElement s.iaoqFront ∧ (takeInterruption s n p).iiaoqBack = s.iiaoqElement s.iaoqBack := by
  obtain ⟨gr, h1, h2, h3, h4⟩ := s.collectQueues.loadParams_frame p
  simp only [takeInterruption, State.collect_of_collecting p hq hn]
  exact ⟨State.loadShadow_shr_of_gr gr, h1, h2, h3, h4⟩

/-! The elements of the saved queues (10_state.md R72). -/

section
variable {s : State} (space offset : Dword)

theorem State.iiasqElement_narrow (hc : s.flag Psw.C = true) (hw : s.flag Psw.W = false) : s.iiasqElement space offset = space := by
  simp only [State.iiasqElement, gvaUpper, hc, hw, Bool.false_eq_true, if_true, if_false]

theorem State.iiasqElement_wide (hc : s.flag Psw.C = true) (hw : s.flag Psw.W = true) :
    s.iiasqElement space offset = space ||| ((offset >>> 32) &&& 0x3FFFFFFF#64) := by
  simp only [State.iiasqElement, gvaUpper, hc, hw, if_true]

theorem State.iiasqElement_absolute (hc : s.flag Psw.C = false) : s.iiasqElement space offset = 0 := by
  simp only [State.iiasqElement, hc, Bool.false_eq_true, if_false]

theorem State.iiaoqElement_narrow (hc : s.flag Psw.C = true) (hw : s.flag Psw.W = false) : s.iiaoqElement offset = low32 offset := by
  simp only [State.iiaoqElement, hc, hw, Bool.not_false, Bool.and_true, if_true]

theorem State.iiaoqElement_wide (hw : s.flag Psw.W = true) : s.iiaoqElement offset = offset := by
  simp only [State.iiaoqElement, hw, Bool.not_true, Bool.and_false, Bool.false_eq_true, if_false]

theorem State.iiaoqElement_absolute (hc : s.flag Psw.C = false) : s.iiaoqElement offset = offset := by
  simp only [State.iiaoqElement, hc, Bool.false_and, Bool.false_eq_true, if_false]

end

/-- With PSW[Q] = 0 the registers that an interruption would save into stay. -/
theorem takeInterruption_quiet {s : State} {n : Interruption} {p : Params} (hq : s.flag Psw.Q = false) :
    (takeInterruption s n p).shr = s.shr ∧ (takeInterruption s n p).iiasqFront = s.iiasqFront ∧
    (takeInterruption s n p).iiasqBack = s.iiasqBack ∧ (takeInterruption s n p).iiaoqFront = s.iiaoqFront ∧
    (takeInterruption s n p).iiaoqBack = s.iiaoqBack ∧ (takeInterruption s n p).iir = s.iir ∧
    (takeInterruption s n p).isr = s.isr ∧ (takeInterruption s n p).ior = s.ior := by
  simp only [takeInterruption, State.collect_of_quiet p hq, and_self]

/-- A high-priority machine check leaves seven free values. -/
theorem takeInterruption_check {s u : State} (hu : u = takeInterruption s .highPriorityMachineCheck .implementation)
    (hq : s.flag Psw.Q = true) :
    u.shr = s.loadShadow.shr ∧ u.iiasqFront = s.free 0 ∧ u.iiasqBack = s.free 1 ∧ u.iiaoqFront = s.free 2 ∧ u.iiaoqBack = s.free 3 ∧
      u.iir = (s.free 4).extractLsb' 0 32 ∧ u.isr = s.free 5 ∧ u.ior = s.free 6 ∧ u.freeCount = s.freeCount + 7 := by
  subst hu
  simp only [takeInterruption, State.collect_check _ hq]
  exact ⟨rfl, rfl, rfl, rfl, rfl, rfl, rfl, rfl, rfl⟩

/-- Settles O12: the four clauses are the saved registers, those that stay with PSW[Q] = 0, the parameters and the high-priority machine check. -/
theorem interruptionSaves : Obligations.InterruptionSaves := by
  intro s n p a
  refine ⟨fun hq hn => ?saves, takeInterruption_quiet, fun hq hn => ?params, fun u hu hq => takeInterruption_check hu hq⟩
  case saves =>
    obtain ⟨shadow, h1, h2, h3, h4⟩ := takeInterruption_saves (p := p) hq hn
    rw [h1, h2, h3, h4]
    refine ⟨shadow, fun hc hw => ?_, fun hc hw => ?_, fun hc => ?_⟩
    · simp only [State.iiasqElement_narrow _ _ hc hw, State.iiaoqElement_narrow _ hc hw, low32, and_self]
    · simp only [State.iiasqElement_wide _ _ hc hw, State.iiaoqElement_wide _ hw, and_self]
    · simp only [State.iiasqElement_absolute _ _ hc, State.iiaoqElement_absolute _ hc, and_self]
  case params =>
    have params (p : Params) := takeInterruption_params (p := p) hq hn
    simp only [params]
    obtain ⟨isr, ior⟩ := s.collectQueues.loadParams_virtual a
    have wide : s.collectQueues.flag Psw.W = s.flag Psw.W := rfl
    rw [wide] at isr ior
    rw [isr, ior]
    refine ⟨rfl, rfl, rfl, s.collectQueues.loadParams_data_iir a, fun hd hw => ?_, fun hd hw => ?_, fun hd => ?_, rfl, fun hw => ?_, fun hw => ?_,
      rfl, rfl, rfl, rfl, rfl, rfl, rfl, rfl, rfl, rfl⟩
    · rw [State.loadParams_data_virtual (s := s.collectQueues) hd, isr, ior, hw]
      exact ⟨rfl, rfl⟩
    · rw [State.loadParams_data_virtual (s := s.collectQueues) hd, isr, ior, hw]
      exact ⟨rfl, rfl⟩
    · obtain ⟨isr, ior⟩ := State.loadParams_data_absolute (s := s.collectQueues) hd a
      exact ⟨isr, _, ior⟩
    · rw [hw]
      exact ⟨rfl, rfl⟩
    · rw [hw]
      exact ⟨rfl, rfl⟩

/-! ### Returning from an interruption (46_system_control.md R665) -/

/-- RFI at level 0 in a state that it may not return from. -/
theorem State.rfiAllowed_refused {s : State} (hl : s.priv = 0#2)
    (h : s.flag Psw.Q = true ∨ s.flag Psw.I = true ∨ s.flag Psw.R = true ∨ (s.flag Psw.L = true ∧ s.iiaoqFront.extractLsb' 0 2 ≠ 0#2)) :
    s.rfiAllowed = .error (.refuse .returnNotAllowed) := by
  rw [State.rfiAllowed, State.privileged_eq_ok hl]
  obtain h | h | h | ⟨h, level⟩ := h
  · simp [h, bind, Except.bind]
  · simp [h, bind, Except.bind]
  · simp [h, bind, Except.bind]
  · simp [h, level, bind, Except.bind]

/-- RFI at level 0 in a state that it may return from looks at the queues. -/
theorem State.rfiAllowed_permitted {s : State} (hl : s.priv = 0#2) (hq : s.flag Psw.Q = false) (hi : s.flag Psw.I = false)
    (hr : s.flag Psw.R = false) (h : s.flag Psw.L = false ∨ s.iiaoqFront.extractLsb' 0 2 = 0#2) :
    s.rfiAllowed = if s.brokenQueues then .error (.refuse .inconsistentQueues) else .ok () := by
  have low : (s.flag Psw.L && s.iiaoqFront.extractLsb' 0 2 != 0#2) = false := by
    obtain h | h := h <;> simp [h]
  rw [State.rfiAllowed, State.privileged_eq_ok hl]
  simp only [hq, hi, hr, low, bind, Except.bind, Bool.or_self, Bool.false_eq_true, if_false]
  rfl

/-- The queues that RFI may return to. -/
theorem State.brokenQueues_eq_false_iff (s : State) :
    s.brokenQueues = false ↔ bitAt s.ipsw Psw.B = true ∨ (s.iiaoqBack = s.iiaoqFront + 4 ∧ (bitAt s.ipsw Psw.C = true →
      s.iiasqFront &&& ~~~(s.iiaoqFront >>> 32) &&& ~~~(s.iiaoqBack >>> 32) =
        s.iiasqBack &&& ~~~(s.iiaoqFront >>> 32) &&& ~~~(s.iiaoqBack >>> 32))) := by
  simp only [State.brokenQueues, recoverSpace]
  cases bitAt s.ipsw Psw.B <;> cases bitAt s.ipsw Psw.C <;> simp

/-- A return changes the queues and the PSW, and when it clears PSW[Q] it loses the interruption state. -/
theorem returnFromInterruption_eq (s : State) :
    returnFromInterruption s =
      { (if bitAt s.ipsw Psw.Q then s else s.loseInterruptionState) with
        psw := s.ipsw &&& Psw.defined, iaoqFront := s.iiaoqFront, iaoqBack := s.iiaoqBack
        iasqFront := recoverSpace s.iiasqFront s.iiaoqFront, iasqBack := recoverSpace s.iiasqBack s.iiaoqBack } := by
  unfold returnFromInterruption
  split <;> rfl

/-- What restoring the shadowed registers leaves alone. -/
theorem State.restoreShadow_eq (s : State) :
    s.restoreShadow = { s with gr := s.restoreShadow.gr, shr := s.restoreShadow.shr, freeCount := s.restoreShadow.freeCount } := by
  simp [State.restoreShadow]

/-- The seven registers come from the shadow registers and no other register changes. -/
theorem State.readGr_restoreShadow (s : State) (r : BitVec 5) : s.restoreShadow.readGr r =
    if r = 25#5 then s.shr[6] else if r = 24#5 then s.shr[5] else if r = 17#5 then s.shr[4] else if r = 16#5 then s.shr[3]
    else if r = 9#5 then s.shr[2] else if r = 8#5 then s.shr[1] else if r = 1#5 then s.shr[0] else s.readGr r := by
  have gr : s.restoreShadow.readGr r = ((((((((s.writeGr 1 s.shr[0]).writeGr 8 s.shr[1]).writeGr 9 s.shr[2]).writeGr 16 s.shr[3]).writeGr 17
    s.shr[4]).writeGr 24 s.shr[5]).writeGr 25 s.shr[6]).readGr r) := rfl
  simp only [gr, State.readGr_writeGr]
  simp

/-- RFI or RFI,R from the state `u`, which has the interruption registers of `s`: what the next state is. -/
theorem rfi_returns {i : Instr} {s u t : State} (hx : exec i s = s.rfiForm u) (allowed : s.rfiAllowed = .ok ())
    (hipsw : s.ipsw &&& ~~~Psw.defined = 0) (hu : u = { s with gr := u.gr, shr := u.shr, freeCount := u.freeCount })
    (ht : t = (returnFromInterruption u).tick) :
    exec i s = .next t ∧ t.psw = s.ipsw ∧ t.iaoqFront = s.iiaoqFront ∧ t.iaoqBack = s.iiaoqBack ∧
      t.iasqFront = s.iiasqFront &&& ~~~(s.iiaoqFront >>> 32) ∧ t.iasqBack = s.iiasqBack &&& ~~~(s.iiaoqBack >>> 32) ∧
      t.gr = u.gr ∧ t.rctr = s.rctr ∧ t.itmr = s.itmr + Config.timerRate ∧ SameRequests s t ∧
      AsIn (if bitAt s.ipsw Psw.Q then u else u.loseInterruptionState) t := by
  obtain ⟨gr, shr, count, rfl⟩ : ∃ gr shr count, u = { s with gr := gr, shr := shr, freeCount := count } := ⟨_, _, _, hu⟩
  refine ⟨by rw [hx, State.rfiForm, allowed, ht], ?_⟩
  subst ht
  have psw := and_of_and_not_eq_zero hipsw
  unfold SameRequests
  rw [returnFromInterruption_eq, tick_eirr]
  cases bitAt s.ipsw Psw.Q
  · exact ⟨psw, rfl, rfl, rfl, rfl, rfl, rfl, rfl, rfl, rfl⟩
  · exact ⟨psw, rfl, rfl, rfl, rfl, rfl, rfl, rfl, rfl, rfl⟩

/-- RFI and RFI,R are refused alike. -/
theorem rfi_refused {s : State} {x : Refusal} (h : s.rfiAllowed = .error (.refuse x)) : exec .rfi s = .refused x ∧ exec .rfiR s = .refused x := by
  have refused (t : State) : s.rfiForm t = .refused x := by
    rw [State.rfiForm, h]
    rfl
  exact ⟨refused s, refused s.restoreShadow⟩

theorem recoverSpace_of_disjoint {space offset : Dword} (h : space &&& (offset >>> 32) = 0) : recoverSpace space offset = space := by
  have clear (i : Nat) := congrArg (·.getLsbD i) h
  apply BitVec.eq_of_getLsbD_eq
  intro i hi
  have := clear i
  simp only [recoverSpace, BitVec.getLsbD_and, BitVec.getLsbD_not, hi, decide_true, Bool.true_and] at this ⊢
  grind

/-- A space identifier comes back out of the upper part of a global virtual address. -/
theorem recoverSpace_gvaUpper {space offset : Dword} (h : space &&& (offset >>> 32) = 0) :
    recoverSpace (space ||| ((offset >>> 32) &&& 0x3FFFFFFF#64)) offset = space := by
  conv_rhs => rw [← recoverSpace_of_disjoint h]
  apply BitVec.eq_of_getLsbD_eq
  intro i hi
  simp only [recoverSpace, BitVec.getLsbD_and, BitVec.getLsbD_or, BitVec.getLsbD_not]
  grind

/-- The element that an interruption with code translation on saves is one that a return brings back. -/
theorem State.recover_saved {s : State} {space offset : Dword} (hc : s.flag Psw.C = true) (h : space &&& (offset >>> 32) = 0)
    (hw : s.flag Psw.W = false → low32 offset = offset) :
    s.iiaoqElement offset = offset ∧ recoverSpace (s.iiasqElement space offset) (s.iiaoqElement offset) = space := by
  cases wide : s.flag Psw.W
  · rw [State.iiasqElement_narrow _ _ hc wide, State.iiaoqElement_narrow _ hc wide, hw wide]
    exact ⟨rfl, recoverSpace_of_disjoint h⟩
  · rw [State.iiasqElement_wide _ _ hc wide, State.iiaoqElement_wide _ wide]
    exact ⟨rfl, recoverSpace_gvaUpper h⟩

end Sys2Proof.Machine

namespace Sys2Proof

open Machine

/-- Settles O14: at level 0 `rfiAllowed` is the three cases of the statement, and a return undoes what an interruption saved. -/
theorem returnFromInterruption : Obligations.ReturnFromInterruption := by
  refine ⟨fun s q hl hipsw hq => ⟨fun notAllowed => ?_, fun hQ hI hR hL => ⟨fun broken => ?_, fun consistent => ?_⟩⟩,
    fun s n p hn hQ hC hpsw front back hW => ?_⟩
  · exact rfi_refused (State.rfiAllowed_refused hl notAllowed)
  · rw [hq, ← s.brokenQueues_eq_false_iff, Bool.not_eq_false] at broken
    exact rfi_refused ((State.rfiAllowed_permitted hl hQ hI hR hL).trans (if_pos broken))
  · have allowed := State.rfiAllowed_permitted hl hQ hI hR hL
    rw [hq, ← s.brokenQueues_eq_false_iff] at consistent
    rw [consistent, if_neg Bool.false_ne_true] at allowed
    constructor
    · obtain ⟨next, psw, h1, h2, h3, h4, -, h5, h6, h7, h8⟩ := rfi_returns (i := .rfi) (u := s) rfl allowed hipsw rfl rfl
      exact ⟨_, next, psw, h1, h2, h3, h4, h5, h6, h7, h8⟩
    · obtain ⟨next, psw, h1, h2, h3, h4, gr, h5, h6, h7, h8⟩ :=
        rfi_returns (i := .rfiR) (u := s.restoreShadow) rfl allowed hipsw s.restoreShadow_eq rfl
      have read (r : BitVec 5) := (congrArg (fun g => State.readGr { s with gr := g } r) gr).trans (s.readGr_restoreShadow r)
      refine ⟨_, next, psw, h1, h2, h3, h4, read 1#5, read 8#5, read 9#5, read 16#5, read 17#5, read 24#5, read 25#5, ?_, h5, h6, h7, h8⟩
      intro r r1 r8 r9 r16 r17 r24 r25
      exact (read r).trans (by simp only [r1, r8, r9, r16, r17, r24, r25, if_false])
  · obtain ⟨-, sFront, sBack, oFront, oBack⟩ := takeInterruption_saves (p := p) hQ hn
    obtain ⟨o1, r1⟩ := State.recover_saved hC front fun narrow => (hW narrow).1
    obtain ⟨o2, r2⟩ := State.recover_saved hC back fun narrow => (hW narrow).2
    rw [returnFromInterruption_eq, sFront, sBack, oFront, oBack, r1, r2, o1, o2]
    exact ⟨and_of_and_not_eq_zero hpsw, rfl, rfl, rfl, rfl⟩

end Sys2Proof
end

section
/-! SUPPORT. Where every completed instruction leaves the queues, and the traps that follow or come instead of it, for O15 and O16. -/

namespace Sys2Proof.Machine

/-! ### The back of the queue -/

/-- The element at the back of the instruction address queue, offset and space (10_state.md R46). -/
def State.back (s : State) : Dword × Dword := (s.iaoqBack, s.iasqBack)

section
variable (s : State)

@[simp] theorem State.back_writeGr (r : BitVec 5) (v : Dword) : (s.writeGr r v).back = s.back := by simp [State.back]

@[simp] theorem State.back_writeBack (e : Ea) : (e.writeBack s).back = s.back := by simp [State.back]

@[simp] theorem State.back_drawnIf (b : Bool) : (s.drawnIf b).back = s.back := by
  obtain ⟨h1, h2, -, -⟩ := s.drawnIf_frame b
  exact Prod.ext h1 h2

@[simp] theorem State.back_linkTo (r : BitVec 5) : (s.linkTo r).back = s.back := by simp [State.back]

@[simp] theorem State.back_writeCr (t : BitVec 5) (v : Dword) : (s.writeCr t v).back = s.back := by
  obtain ⟨h1, h2, -, -⟩ := s.writeCr_eq t v
  exact Prod.ext h1 h2

@[simp] theorem State.back_setMask (m : Dword) : (s.setMask m).back = s.back := by
  unfold State.setMask
  dsimp only
  split <;> rfl

@[simp] theorem State.back_fpWrite (r : FpReg) (v : Nat) : (s.fpWrite r v).back = s.back := by
  rw [fpWrite_eq]
  rfl

@[simp] theorem State.back_fpDeliver (code : BitVec 6) (d : FpReg) (srcs : List FpReg) (r : Delivery) :
    (s.fpDeliver code d srcs r).back = s.back := by
  rw [fpDeliver_eq]
  rfl

@[simp] theorem State.back_fpDid (q : FpSequence) : (s.fpDid q).back = s.back := rfl

@[simp] theorem State.back_fpFlags (x : BitVec 5) : (s.fpFlags x).back = s.back := rfl

@[simp] theorem State.back_setFlag (i : Nat) (v : Bool) : (s.setFlag i v).back = s.back := rfl

@[simp] theorem State.back_setCarryBorrow (c : BitVec 16) : (s.setCarryBorrow c).back = s.back := rfl

@[simp] theorem State.back_fpStoredFrom (r : BitVec 5) : (s.fpStoredFrom r).back = s.back := by
  rw [State.fpStoredFrom_eq_drawn]
  rfl

@[simp] theorem State.back_fpLoaded (r : BitVec 5) (double : Bool) : (s.fpLoaded r double).back = s.back := by
  rw [fpLoaded_eq]
  split <;> rfl

@[simp] theorem State.back_fpCompareResult (y : BitVec 3) (result : Bool) : (s.fpCompareResult y result).back = s.back := by
  unfold State.fpCompareResult
  dsimp only
  split <;> rfl

variable {s}

theorem State.back_storeAt {t : State} {pa : Dword} {n : Nat} {v : Dword} (h : s.storeAt pa n v = .ok t) : t.back = s.back := by
  unfold State.storeAt at h
  split at h
  · cases h
    rfl
  · cases memory : inMemory pa <;> rw [memory] at h <;> cases h
    rfl

theorem State.back_memStore {t : State} {a : DataAddr} {n : Nat} {v : Dword} (h : s.memStore a n v = .ok t) : t.back = s.back := by
  unfold State.memStore at h
  cases place : s.check .store a n <;> rw [place] at h
  · cases h
  · exact State.back_storeAt h

theorem State.back_noteSemaphore {t : State} {pa : Dword} {cc : BitVec 2} (h : s.noteSemaphore pa cc = .ok t) : t.back = s.back := by
  rw [(noteSemaphore_ok h).1]
  rfl

end

/-! ### Computations that leave the queues where the next instruction stands -/

/-- A completion that leaves the back of the queue alone and, if it is no taken branch, goes on with the word after it (42_branch.md R470). -/
def Settles (s : State) (r : Res Done) : Prop :=
  ∀ d, r = .ok d → d.state.back = s.back ∧ (d.flow.taken = false → d.flow.offset = s.iaoqBack + 4 ∧ d.flow.space = s.iasqBack)

section
variable {s t : State}

theorem settles_error {e : Stop} : Settles s (.error e) := by
  rintro d ⟨⟩

/-- A sequential end, seen from a state with the same back of the queue. -/
theorem settles_done_of {u : State} {n : Bool} (ht : t.back = s.back) (hu : u.back = s.back) : Settles s (done u t n) := by
  rintro _ ⟨⟩
  obtain ⟨offset, space⟩ := Prod.ext_iff.1 hu
  exact ⟨ht, fun _ => ⟨congrArg (· + 4) offset, space⟩⟩

theorem settles_done {n : Bool} (ht : t.back = s.back) : Settles s (done s t n) := settles_done_of ht rfl

theorem settles_branchTo {n : BitVec 1} {past : Bool} {target space : Dword} (ht : t.back = s.back) : Settles s (branchTo t n past target space) := by
  rintro _ ⟨⟩
  exact ⟨ht, fun untaken => absurd untaken Bool.true_eq_false_eq_False.elim⟩

theorem settles_branchTail {disp : Dword} {n : BitVec 1} {cond : Bool} (ht : t.back = s.back) : Settles s (s.branchTail t disp n cond) := by
  rintro _ ⟨⟩
  refine ⟨ht, fun untaken => ?_⟩
  cases cond
  · exact ⟨rfl, rfl⟩
  · cases untaken

theorem settles_bind {α : Type} {x : Res α} {f : α → Res Done} (h : ∀ a, x = .ok a → Settles s (f a)) : Settles s (x >>= f) := by
  cases x with
  | error e => exact settles_error
  | ok a => exact h a rfl

theorem settles_ite {c : Prop} [Decidable c] {x y : Res Done} (hx : Settles s x) (hy : Settles s y) : Settles s (if c then x else y) := by
  split
  · exact hx
  · exact hy

/-- A check that stops, before a computation that settles. -/
theorem settles_unless {α : Type} {c : Prop} [Decidable c] {x : Res α} {f : α → Res Done} {y : Res Done} (hf : ∀ a, Settles s (f a))
    (hy : Settles s y) : Settles s (if c then x >>= f else y) :=
  settles_ite (settles_bind fun a _ => hf a) hy

end

/-! ### The forms of the instructions -/

section
variable {s : State}

theorem settles_writeGr {r : BitVec 5} {v : Dword} {n : Bool} : Settles s (done s (s.writeGr r v) n) :=
  settles_done (s.back_writeGr r v)

theorem settles_writeGr_drawn {r : BitVec 5} {v : Dword} {k : Nat} {n : Bool} : Settles s (done s ((s.writeGr r v).drawn k) n) :=
  settles_done (s.back_writeGr r v)

theorem settles_writeBack {e : Ea} {n : Bool} : Settles s (done s (e.writeBack s) n) := settles_done (s.back_writeBack e)

theorem settles_writeBack_writeGr {e : Ea} {r : BitVec 5} {v : Dword} {n : Bool} : Settles s (done s ((e.writeBack s).writeGr r v) n) :=
  settles_done ((State.back_writeGr _ r v).trans (s.back_writeBack e))

/-! Assist units -/

theorem settles_spopForm {c : Config.SfuCall} {t : Option (BitVec 5)} {n : BitVec 1} : Settles s (s.spopForm c t n) := by
  refine settles_ite settles_error (settles_ite settles_error (settles_done ?_))
  cases t with
  | none => rfl
  | some t => exact State.back_writeGr _ t _

theorem settles_coprForm {unit : BitVec 3} {sop1 : BitVec 17} {n : BitVec 1} {sop2 : BitVec 5} : Settles s (s.coprForm unit sop1 n sop2) :=
  settles_ite settles_error (settles_ite (settles_done rfl) (settles_ite settles_error (settles_done rfl)))

theorem settles_coprOneForm : Settles s s.coprOneForm := settles_ite settles_error (settles_ite settles_error settles_error)

theorem settles_coprLoadForm {e : Ea} {unit : BitVec 3} {double : Bool} {t : BitVec 5} : Settles s (s.coprLoadForm e unit double t) :=
  settles_bind fun _ _ => settles_bind fun _ _ => settles_bind fun _ _ => settles_done (s.back_writeBack e)

theorem settles_coprStoreForm {e : Ea} {unit : BitVec 3} {double : Bool} {r : BitVec 5} : Settles s (s.coprStoreForm e unit double r) :=
  settles_bind fun _ _ => settles_bind fun _ _ => settles_bind fun t stored =>
    settles_done ((t.back_writeBack e).trans (State.back_storeAt stored))

/-! Branches -/

theorem settles_gateForm {t : BitVec 5} {disp : Dword} {n : BitVec 1} : Settles s (s.gateForm t disp n) :=
  settles_ite settles_error (settles_bind fun _ _ => settles_branchTo (s.back_writeGr t _))

theorem settles_externalForm {b : BitVec 5} {sr : BitVec 3} {disp : Dword} {n : BitVec 1} : Settles s (s.externalForm b sr disp n) :=
  settles_ite (settles_branchTo rfl) (settles_branchTo rfl)

theorem settles_externalLinkForm {b : BitVec 5} {sr : BitVec 3} {disp : Dword} {n : BitVec 1} : Settles s (s.externalLinkForm b sr disp n) :=
  settles_ite (settles_branchTo (s.back_linkTo 31#5)) (settles_branchTo (s.back_linkTo 31#5))

theorem settles_vectoredExternalForm {t : State} (ht : t.back = s.back) {b : BitVec 5} {n : BitVec 1} :
    Settles s (s.vectoredExternalForm t b n) := settles_ite (settles_branchTo ht) (settles_branchTo ht)

/-! Cache control, probes and TLB operations -/

theorem settles_cacheForm {body : Res Done} (h : Settles s body) : Settles s (s.cacheForm body) := settles_ite (settles_done rfl) h

theorem settles_fdcForm {e : Ea} : Settles s (s.fdcForm e) :=
  settles_cacheForm (settles_bind fun _ _ => settles_unless (fun _ => settles_writeBack) settles_writeBack)

theorem settles_fdceForm {e : Ea} : Settles s (s.fdceForm e) := settles_cacheForm (settles_bind fun _ _ => settles_writeBack)

theorem settles_ficForm {e : Ea} {a : DataAddr} : Settles s (s.ficForm e a) :=
  settles_unless (fun _ => settles_writeBack) settles_writeBack

theorem settles_pdcForm {e : Ea} : Settles s (s.pdcForm e) :=
  settles_cacheForm (settles_bind fun _ _ => settles_unless (fun _ => settles_unless (fun _ => settles_writeBack) settles_writeBack)
    settles_writeBack)

theorem settles_probeForm {b : BitVec 5} {sr : BitVec 2} {kind : AccessKind} {level : BitVec 2} {t : BitVec 5} :
    Settles s (s.probeForm b sr kind level t) := settles_bind fun _ _ => settles_bind fun _ _ => settles_writeGr

theorem settles_lciForm {e : Ea} {t : BitVec 5} : Settles s (s.lciForm e t) :=
  settles_bind fun _ _ => settles_bind fun _ _ => settles_ite settles_error (settles_ite settles_writeGr settles_writeGr_drawn)

theorem settles_lpaForm {e : Ea} {t : BitVec 5} : Settles s (s.lpaForm e t) :=
  settles_bind fun _ _ => settles_bind fun _ _ => settles_bind fun _ _ => settles_writeBack_writeGr

theorem settles_pdtlbForm {e : Ea} : Settles s (s.pdtlbForm e) :=
  settles_bind fun _ _ => settles_bind fun _ _ => settles_bind fun _ _ => settles_done (State.back_writeBack _ e)

theorem settles_pitlbForm {e : Ea} {a : DataAddr} : Settles s (s.pitlbForm e a) :=
  settles_bind fun _ _ => settles_bind fun _ _ => settles_done (State.back_writeBack _ e)

theorem settles_pdtlbeForm {e : Ea} : Settles s (s.pdtlbeForm e) :=
  settles_bind fun _ _ => settles_bind fun _ _ => settles_done (State.back_writeBack _ e)

theorem settles_pitlbeForm {e : Ea} {a : DataAddr} : Settles s (s.pitlbeForm e a) :=
  settles_bind fun _ _ => settles_done (State.back_writeBack _ e)

theorem settles_insertForm {r1 : BitVec 5} {t : State} (ht : t.back = s.back) :
    Settles s (s.insertAllowed r1 >>= fun _ => done s t false) := settles_bind fun _ _ => settles_done ht

/-! Computation -/

theorem settles_arith {t : State} (ht : t.back = s.back) {k : ArithKind} {r : BitVec 5} {res : Dword} {carries : BitVec 16}
    {overflow cond : Bool} : Settles s (t.arith k r res carries overflow cond) := by
  refine settles_ite settles_error (settles_ite settles_error (settles_done_of ?_ ht))
  have written : (t.writeGr r res).back = s.back := (t.back_writeGr r res).trans ht
  split
  · exact written
  · exact written

theorem settles_sumForm {k : ArithKind} {x y : Dword} {cin : Bool} {c : BitVec 3} {f d : BitVec 1} {t : BitVec 5} :
    Settles s (s.sumForm k x y cin c f d t) := settles_arith rfl

theorem settles_shladdForm {k : ArithKind} {r2 r1 : BitVec 5} {c : BitVec 3} {f : BitVec 1} {sa : BitVec 2} {d : BitVec 1} {t : BitVec 5} :
    Settles s (s.shladdForm k r2 r1 c f sa d t) := settles_arith (s.back_drawnIf _)

theorem settles_uaddcmForm {trap : Bool} {r2 r1 : BitVec 5} {c : BitVec 3} {f d : BitVec 1} {t : BitVec 5} :
    Settles s (s.uaddcmForm trap r2 r1 c f d t) := settles_arith rfl

theorem settles_dsForm {r2 r1 : BitVec 5} {c : BitVec 3} {f : BitVec 1} {t : BitVec 5} : Settles s (s.dsForm r2 r1 c f t) := by
  refine settles_done_of ?_ (s.back_drawnIf _)
  rw [State.back_setFlag, State.back_setCarryBorrow, State.back_writeGr, State.back_drawnIf]

/-! Floating point -/

theorem settles_fpLoadWord {e : Ea} {t : BitVec 5} {h : BitVec 1} : Settles s (s.fpLoadWord e t h) :=
  have loaded (v : Dword) : Settles s (done s (((e.writeBack s).writeFpr t v).fpLoaded t false) false) :=
    settles_done ((State.back_fpLoaded _ t false).trans (s.back_writeBack e))
  settles_bind fun _ _ => settles_bind fun _ _ => settles_unless (fun _ => loaded _) (loaded _)

theorem settles_fpLoadDouble {e : Ea} {t : BitVec 5} : Settles s (s.fpLoadDouble e t) :=
  settles_bind fun _ _ => settles_bind fun _ _ => settles_done ((State.back_fpLoaded _ t true).trans (s.back_writeBack e))

theorem settles_fpStoreWord {e : Ea} {r : BitVec 5} {h : BitVec 1} : Settles s (s.fpStoreWord e r h) :=
  settles_bind fun _ _ => settles_bind fun t stored =>
    settles_done ((t.back_writeBack e).trans ((State.back_storeAt stored).trans (s.back_fpStoredFrom r)))

theorem settles_fpStoreDouble {e : Ea} {r : BitVec 5} : Settles s (s.fpStoreDouble e r) := by
  refine settles_bind fun _ _ => settles_bind fun t stored => settles_done ?_
  have written : (e.writeBack t).back = s.back := (t.back_writeBack e).trans ((State.back_storeAt stored).trans (s.back_fpStoredFrom r))
  split
  · exact written
  · exact written

theorem settles_fpOperation {code : BitVec 6} {d : FpReg} {srcs : List FpReg} {r : Delivery} : Settles s (s.fpOperation code d srcs r) :=
  settles_bind fun _ _ => settles_ite (settles_done (s.back_fpDeliver ..)) <| settles_bind fun _ _ => settles_bind fun _ _ =>
    settles_done (State.back_fpDeliver _ code d srcs r)

theorem settles_fpCompare {code : BitVec 6} {r1 r2 : FpReg} {y : BitVec 3} {c : BitVec 5} : Settles s (s.fpCompare code r1 r2 y c) := by
  refine settles_bind fun _ _ => ?_
  refine settles_ite (settles_done rfl) ?_
  refine settles_bind fun _ _ => settles_bind fun _ _ => ?_
  refine settles_ite (settles_done rfl) (settles_done ?_)
  rw [State.back_fpDid, State.back_fpFlags, State.back_fpCompareResult]

theorem settles_fpTest {y : BitVec 3} {c : BitVec 5} : Settles s (s.fpTest y c) :=
  settles_bind fun _ _ => settles_unless (fun _ => settles_done rfl) (settles_done rfl)

theorem settles_fpIdentify : Settles s s.fpIdentify := by
  refine settles_bind fun _ _ => ?_
  refine settles_ite (settles_bind fun _ _ => ?_) ?_
  · exact settles_done rfl
  · exact settles_done rfl

theorem settles_fpMulti {code : BitVec 6} {rm1 rm2 ta ra tm : BitVec 5} {f : BitVec 1} {op : Fmt → FpEnv → Nat → Nat → Delivery} :
    Settles s (s.fpMulti code rm1 rm2 ta ra tm f op) := by
  have toSoftware (d : FpReg) (srcs : List FpReg) : Settles s (done s ((s.fpDeliver code d srcs .unimplemented).fpDid .other) false) :=
    settles_done (s.back_fpDeliver ..)
  refine settles_bind fun _ _ => ?_
  refine settles_bind fun _ _ => ?_
  refine settles_bind fun _ _ => ?_
  refine settles_bind fun _ _ => settles_bind fun _ _ => ?_
  dsimp only
  split
  · refine settles_ite (toSoftware _ _) ?_
    refine settles_done ?_
    rw [State.back_fpDid, State.back_fpFlags, State.back_fpWrite, State.back_fpWrite]
  · exact toSoftware _ _

/-! Loads, stores and semaphores -/

theorem settles_loadOrPrefetch {e : Ea} {size : Nat} {t : BitVec 5} : Settles s (s.loadOrPrefetch e size t) :=
  settles_ite settles_writeBack (settles_bind fun _ _ => settles_bind fun _ _ => settles_writeBack_writeGr)

theorem settles_storeForm {e : Ea} {size : Nat} {r : BitVec 5} : Settles s (s.storeForm e size r) :=
  settles_bind fun _ _ => settles_bind fun t stored => settles_done ((t.back_writeBack e).trans (State.back_memStore stored))

theorem settles_loadAbsoluteForm {e : Ea} {size : Nat} {t : BitVec 5} : Settles s (s.loadAbsoluteForm e size t) :=
  settles_bind fun _ _ => settles_bind fun _ _ => settles_bind fun _ _ => settles_writeBack_writeGr

theorem settles_storeAbsoluteForm {e : Ea} {size : Nat} {r : BitVec 5} : Settles s (s.storeAbsoluteForm e size r) :=
  settles_bind fun _ _ => settles_bind fun _ _ => settles_bind fun t stored =>
    settles_done ((t.back_writeBack e).trans (State.back_storeAt stored))

theorem settles_semaphoreForm {e : Ea} {cc : BitVec 2} {size : Nat} {t : BitVec 5} : Settles s (s.semaphoreForm e cc size t) := by
  refine settles_ite settles_writeBack ?_
  refine settles_bind fun _ _ => settles_bind fun _ _ => settles_bind fun _ _ => settles_bind fun v stored => settles_bind fun u noted => ?_
  refine settles_done ?_
  rw [State.back_writeGr, State.back_writeBack, State.back_noteSemaphore noted, State.back_storeAt stored]

theorem settles_storeBytesForm {e : Ea} {n : Nat} {ending : Bool} {r : BitVec 5} : Settles s (s.storeBytesForm e n ending r) :=
  settles_bind fun _ _ => settles_bind fun _ _ => settles_ite settles_writeBack <| settles_bind fun _ _ =>
    settles_done (State.back_writeBack _ e)

/-! Register moves and the system mask -/

theorem settles_ldsidForm {b : BitVec 5} {sr : BitVec 2} {t : BitVec 5} : Settles s (s.ldsidForm b sr t) := by
  unfold State.ldsidForm
  split
  · exact settles_writeGr
  · exact settles_writeGr_drawn

theorem settles_mfctlForm {r : BitVec 5} {e : BitVec 1} {t : BitVec 5} : Settles s (s.mfctlForm r e t) :=
  have read := settles_ite (c := s.openCr r = true) settles_writeGr_drawn <|
    settles_ite (c := (r = 11#5 && !(isSet e)) = true) settles_writeGr settles_writeGr
  have live := settles_unless (fun _ => read) read
  have access := settles_bind fun _ _ => settles_unless (fun _ => live) live
  settles_unless (fun _ => access) access

theorem settles_mtctlForm {t r : BitVec 5} : Settles s (s.mtctlForm t r) := by
  have written (_ : Unit) : Settles s (registerAccess (t = 11#5 || s.priv = 0#2) >>= fun _ =>
      match s.mtctlStop t (s.readGr r) with
      | some x => .error (.refuse x)
      | none => done s (s.writeCr t (s.readGr r)) false) := by
    refine settles_bind fun _ _ => ?_
    split
    · exact settles_error
    · exact settles_done (s.back_writeCr t _)
  exact settles_unless written (written ())

theorem settles_mtspForm {r : BitVec 5} {sr : BitVec 3} : Settles s (s.mtspForm r sr) := settles_bind fun _ _ => settles_done rfl

theorem settles_ssmForm {iv : BitVec 10} {t : BitVec 5} : Settles s (s.ssmForm iv t) :=
  settles_bind fun _ _ => settles_bind fun _ _ => settles_done ((State.back_setMask _ _).trans (s.back_writeGr t _))

theorem settles_rsmForm {iv : BitVec 10} {t : BitVec 5} : Settles s (s.rsmForm iv t) :=
  settles_bind fun _ _ => settles_done ((State.back_setMask _ _).trans (s.back_writeGr t _))

theorem settles_mtsmForm {r : BitVec 5} : Settles s (s.mtsmForm r) :=
  settles_bind fun _ _ => settles_bind fun _ _ => settles_done (s.back_setMask _)

end

/-! ### Every instruction but RFI -/

/-- Every instruction but RFI and RFI,R ends as `complete` of a computation that settles. -/
theorem exec_settles (i : Instr) (s : State) (notRfi : i ≠ .rfi) (notRfiR : i ≠ .rfiR) : ∃ r, exec i s = complete s r ∧ Settles s r := by
  cases i with
  | rfi => exact absurd rfl notRfi
  | rfiR => exact absurd rfl notRfiR
  | ldbLong | ldhLong | ldwLong | ldwLongMod | ldwLong11 | lddLong | ldbShort | ldbIndexed | ldhShort | ldhIndexed | ldwShort | ldwIndexed
  | lddShort | lddIndexed =>
    exact ⟨_, rfl, settles_loadOrPrefetch⟩
  | stbLong | sthLong | stwLong | stwLongMod | stwLong11 | stdLong | stbShort | sthShort | stwShort | stdShort =>
    exact ⟨_, rfl, settles_storeForm⟩
  | ldwaShort | ldwaIndexed | lddaShort | lddaIndexed => exact ⟨_, rfl, settles_loadAbsoluteForm⟩
  | stwa | stda => exact ⟨_, rfl, settles_storeAbsoluteForm⟩
  | ldcwShort | ldcwIndexed | ldcdShort | ldcdIndexed => exact ⟨_, rfl, settles_semaphoreForm⟩
  | stby | stdby => exact ⟨_, rfl, settles_storeBytesForm⟩
  | ldo | ldil | addil | and | andcm | or | xor | cmpclr | cmpiclr | uxor | dcor | dcorI | hadd | haddSs | haddUs | hsub | hsubSs | hsubUs
  | havg | hshladd | hshradd | hshl | hshrU | hshrS | mixhL | mixhR | mixwL | mixwR | mfsp | mfia | shrpdSar | shrpdFixed | extrdSar | depdSar
  | depdiSar =>
    exact ⟨_, rfl, settles_writeGr⟩
  | shrpwSar | shrpwFixed | extrwSar | depwSar | depwiSar => exact ⟨_, rfl, settles_writeGr_drawn⟩
  | extrdFixed | depdFixed | depdiFixed => exact ⟨_, rfl, settles_bind fun _ _ => settles_writeGr⟩
  | extrwFixed | depwFixed | depwiFixed => exact ⟨_, rfl, settles_bind fun _ _ => settles_writeGr_drawn⟩
  | permh => exact ⟨_, rfl, settles_ite settles_writeGr settles_error⟩
  | add | addC | sub | subB => exact ⟨_, rfl, settles_sumForm (k := ⟨false, false, true⟩)⟩
  | addL => exact ⟨_, rfl, settles_sumForm (k := ⟨false, false, false⟩)⟩
  | addTsv | addCTsv | subTc | subTsv | subTsvTc | subBTsv | addi | addiTc | subi => exact ⟨_, rfl, settles_sumForm⟩
  | shladd => exact ⟨_, rfl, settles_shladdForm (k := ⟨false, false, true⟩)⟩
  | shladdL => exact ⟨_, rfl, settles_shladdForm (k := ⟨false, false, false⟩)⟩
  | shladdTsv => exact ⟨_, rfl, settles_shladdForm⟩
  | ds => exact ⟨_, rfl, settles_dsForm⟩
  | uaddcm => exact ⟨_, rfl, settles_uaddcmForm (trap := false)⟩
  | uaddcmTc => exact ⟨_, rfl, settles_uaddcmForm⟩
  | bl17 | bl22 | blr => exact ⟨_, rfl, settles_branchTo (s.back_linkTo _)⟩
  | bGate => exact ⟨_, rfl, settles_gateForm⟩
  | blPush => exact ⟨_, rfl, settles_branchTo (by exact s.back_linkTo 2#5)⟩
  | bv => exact ⟨_, rfl, settles_branchTo rfl⟩
  | be => exact ⟨_, rfl, settles_externalForm⟩
  | beL => exact ⟨_, rfl, settles_externalLinkForm⟩
  | bve => exact ⟨_, rfl, settles_vectoredExternalForm (by split <;> rfl)⟩
  | bveL => exact ⟨_, rfl, settles_vectoredExternalForm (by split <;> exact s.back_linkTo 2#5)⟩
  | addbT | addbF | addibT | addibF | movb | movib => exact ⟨_, rfl, settles_branchTail (s.back_writeGr _ _)⟩
  | cmpbT | cmpbF | cmpbDT | cmpbDF | cmpibT | cmpibF | cmpibD | bbFixed | bbSar => exact ⟨_, rfl, settles_branchTail rfl⟩
  | pushbts | pushnom | popbts | clrbts | mtsarcm | sync | syncdma => exact ⟨_, rfl, settles_done (by rfl)⟩
  | fdcIndexed | fdcShort => exact ⟨_, rfl, settles_fdcForm⟩
  | fdce => exact ⟨_, rfl, settles_fdceForm⟩
  | ficExplicit => exact ⟨_, rfl, settles_cacheForm settles_ficForm⟩
  | ficImplicit => exact ⟨_, rfl, settles_cacheForm (settles_bind fun _ _ => settles_ficForm)⟩
  | fice => exact ⟨_, rfl, settles_cacheForm settles_writeBack⟩
  | pdc => exact ⟨_, rfl, settles_pdcForm⟩
  | probeR | probeW | probeiR | probeiW => exact ⟨_, rfl, settles_probeForm⟩
  | lpa => exact ⟨_, rfl, settles_lpaForm⟩
  | lci => exact ⟨_, rfl, settles_lciForm⟩
  | pdtlb | pdtlbL => exact ⟨_, rfl, settles_pdtlbForm⟩
  | pdtlbe => exact ⟨_, rfl, settles_pdtlbeForm⟩
  | pitlb | pitlbL => exact ⟨_, rfl, settles_pitlbForm⟩
  | pitlbe => exact ⟨_, rfl, settles_pitlbeForm⟩
  | idtlbt | iitlbt => exact ⟨_, rfl, settles_insertForm rfl⟩
  | brk => exact ⟨.error (trapInstr .breakInstruction), rfl, settles_error⟩
  | diag => exact ⟨_, rfl, settles_bind fun _ _ => settles_ite settles_error (settles_done rfl)⟩
  | ssm => exact ⟨_, rfl, settles_ssmForm⟩
  | rsm => exact ⟨_, rfl, settles_rsmForm⟩
  | mtsm => exact ⟨_, rfl, settles_mtsmForm⟩
  | ldsid => exact ⟨_, rfl, settles_ldsidForm⟩
  | mtsp => exact ⟨_, rfl, settles_mtspForm⟩
  | mtctl => exact ⟨_, rfl, settles_mtctlForm⟩
  | mfctl => exact ⟨_, rfl, settles_mfctlForm⟩
  | spop0 | spop1 | spop2 | spop3 => exact ⟨_, rfl, settles_spopForm⟩
  | pmdis | pmenb => exact ⟨_, rfl, settles_ite (settles_done rfl) settles_error⟩
  | copr1 => exact ⟨_, rfl, settles_coprOneForm⟩
  | copr3 | copr4to7 => exact ⟨_, rfl, settles_coprForm⟩
  | cldwIndexed2 | cldwShort2 | cldwIndexed4 | cldwShort4 | clddIndexed2 | clddShort2 | clddIndexed4 | clddShort4 =>
    exact ⟨_, rfl, settles_coprLoadForm⟩
  | cstwIndexed2 | cstwShort2 | cstwIndexed4 | cstwShort4 | cstdIndexed2 | cstdShort2 | cstdIndexed4 | cstdShort4 =>
    exact ⟨_, rfl, settles_coprStoreForm⟩
  | fldwLong | fldwLongMod | fldwShort | fldwIndexed => exact ⟨_, rfl, settles_fpLoadWord⟩
  | fstwLong | fstwLongMod | fstwShort | fstwIndexed => exact ⟨_, rfl, settles_fpStoreWord⟩
  | flddLong | flddShort | flddIndexed => exact ⟨_, rfl, settles_fpLoadDouble⟩
  | fstdLong | fstdShort | fstdIndexed => exact ⟨_, rfl, settles_fpStoreDouble⟩
  | fcpy | fcpyE | fabs | fabsE | fsqrt | fsqrtE | frnd | frndE | fneg | fnegE | fnegabs | fnegabsE | fcnvFF | fcnvFFE | fcnvXF | fcnvXFE
  | fcnvUF | fcnvUFE | fcnvFX | fcnvFXE | fcnvFXT | fcnvFXTE | fcnvFU | fcnvFUE | fcnvFUT | fcnvFUTE | fadd | faddE | fsub | fsubE | fmpy
  | fmpyE | fdiv | fdivE | xmpyu | fmpyfadd | fmpynfadd =>
    exact ⟨_, rfl, settles_fpOperation⟩
  | fcmp | fcmpE => exact ⟨_, rfl, settles_fpCompare⟩
  | ftest => exact ⟨_, rfl, settles_fpTest⟩
  | fid => exact ⟨_, rfl, settles_fpIdentify⟩
  | fmpyadd | fmpysub => exact ⟨_, rfl, settles_fpMulti⟩

/-! ### The group 4 traps (60_exceptions.md R1004) -/

/-- What a completed instruction leaves in the queues and the status, before a group 4 trap. -/
theorem retireState_ends (s : State) (d : Done) :
    Ended { d.state with psw := s.psw } (retireState s d) d.flow.nullify d.flow.taken d.flow.offset d.flow.space :=
  (retireState_ended (s := { d.state with psw := s.psw }) (d := d.state) (fl := d.flow) rfl rfl rfl rfl).1

/-- The end of an instruction inside its space, as the choice between the three traps and none. -/
theorem finish_eq_ite {s u : State} {fl : Flow} (inside : fl.past = false) :
    finish s fl u = .next
      (if s.priv < u.priv ∧ s.flag Psw.L = true then takeInterruption u .lowerPrivilegeTransfer .none
        else if u.priv < s.priv ∧ s.flag Psw.H = true then takeInterruption u .higherPrivilegeTransfer .none
        else if fl.taken = true ∧ s.flag Psw.T = true then takeInterruption u .takenBranch .none
        else u) := by
  unfold finish groupFour
  simp only [inside, Bool.false_eq_true, if_false, State.flag, Bool.and_eq_true, decide_eq_true_eq]
  split_ifs <;> simp only [*, and_self, if_true, if_false]

/-- A next state of an instruction that settles: an interruption in its place, or its completion and the group 4 trap that follows. -/
theorem ends_of_settles {s t : State} {r : Res Done} (settled : Settles s r) (ht : complete s r = .next t) :
    (∃ n p, t = takeInterruption s n p) ∨
    (∃ u : State, u.iaoqFront = s.iaoqBack ∧ u.iasqFront = s.iasqBack ∧ u.flag Psw.X = false ∧
      (u.flag Psw.B = false → u.iaoqBack = s.iaoqBack + 4 ∧ u.iasqBack = s.iasqBack) ∧
      t = (if s.priv < u.priv ∧ s.flag Psw.L = true then takeInterruption u .lowerPrivilegeTransfer .none
        else if u.priv < s.priv ∧ s.flag Psw.H = true then takeInterruption u .higherPrivilegeTransfer .none
        else if u.flag Psw.B = true ∧ s.flag Psw.T = true then takeInterruption u .takenBranch .none
        else u)) := by
  match r, settled, ht with
  | .error (.trap n p), _, ht =>
    injection ht with ht
    exact .inl ⟨n, p, ht.symm⟩
  | .ok d, settled, ht =>
    obtain ⟨queue, onward⟩ := settled d rfl
    obtain ⟨offset, space⟩ := Prod.ext_iff.1 queue
    have ends := retireState_ends s d
    refine .inr ⟨retireState s d, ends.front.trans offset, ends.frontSpace.trans space, ends.cleared.1, fun untaken => ?_, ?_⟩
    · rw [ends.back, ends.backSpace]
      exact onward (ends.branched.symm.trans untaken)
    · have ht : finish s d.flow (retireState s d) = .next t := ht
      cases past : d.flow.past
      · rw [finish_eq_ite past, ← ends.branched] at ht
        injection ht with ht
        exact ht.symm
      · rw [finish_past past] at ht
        cases ht

/-- A branch taken with PSW[T] = 1, L and H being 0. -/
theorem takenBranch_traps {s d : State} {n past : Bool} {target space : Dword} (hl : s.flag Psw.L = false) (hh : s.flag Psw.H = false)
    (ht : s.flag Psw.T = true) (inside : past = false) :
    complete s (.ok ⟨d, ⟨true, n, target, space, past⟩⟩) =
      .next (takeInterruption (retireState s ⟨d, ⟨true, n, target, space, past⟩⟩) .takenBranch .none) := by
  simp [complete, finish_eq_ite, inside, hl, hh, ht]

/-- Settles O15: every instruction settles, so the group 4 trap is by the level at the back of the queue and the branch it was. -/
theorem groupFourTraps : Obligations.GroupFourTraps := by
  refine ⟨?every, ?ldil, ?pastEnd, ?bv, ?movib⟩
  case every =>
    intro i s t notRfi notRfiR ht
    obtain ⟨r, meaning, settled⟩ := exec_settles i s notRfi notRfiR
    exact ends_of_settles settled (meaning ▸ ht)
  case ldil =>
    intro s t im21 inside
    let d : Done := ⟨s.writeGr t (leftImmediate im21), s.sequential false⟩
    obtain ⟨ended, same, requests, psw⟩ :=
      retireState_ended (s := s) (d := d.state) (fl := d.flow) (by simp [d]) (by simp [d]) (by simp [d]) (by simp [d])
    have level : (retireState s d).priv = s.iaoqBack.extractLsb' 0 2 := congrArg (BitVec.extractLsb' 0 2) ended.front
    have meaning : exec (.ldil t im21) s = finish s d.flow (retireState s d) := rfl
    refine ⟨retireState s d, same, ended, by simpa [SameRequests, d] using requests, by simpa [SamePsw, d] using psw, ?_⟩
    rw [meaning, finish_groupFour inside, ← level]
    refine ⟨fun lower hl => ?_, fun higher hh => ?_, fun lower higher => ?_⟩
    · rw [groupFour_lower lower hl]
    · rw [groupFour_higher higher hh]
    · rw [show d.flow.taken = false from rfl, groupFour_quiet lower higher]
  case pastEnd => exact fun s t im21 atEnd => finish_past atEnd
  case bv =>
    intro s b x n hl hh ht inside
    exact ⟨_, (retireState_ended rfl rfl rfl rfl).2.1, (retireState_ended rfl rfl rfl rfl).1, (retireState_ended rfl rfl rfl rfl).2.2.1,
      (retireState_ended rfl rfl rfl rfl).2.2.2, takenBranch_traps hl hh ht inside⟩
  case movib =>
    rintro s r im5 c w1 n w disp hl hh ht rfl cond inside
    have target : s.relativeTarget (disp12 w1 w) = s.iaoqFront + disp12 w1 w + 8 := relativeTarget_eq s _ (low_shift2 _)
    have meaning : exec (.movib r im5 c w1 n w) s = complete s (s.branchTail (s.writeGr r (lowSignExt im5)) (disp12 w1 w) n true) := by
      rw [← cond]
      rfl
    obtain ⟨ended, same, -, -⟩ := retireState_ended (s := s) (d := s.writeGr r (lowSignExt im5))
      (fl := ⟨true, isSet n && (if (disp12 w1 w).msb then !true else true), s.relativeTarget (disp12 w1 w), s.iasqBack, s.pastEnd s.iaoqFront (disp12 w1 w) 8⟩)
      (by simp) (by simp) (by simp) (by simp)
    exact ⟨_, same, ended.back.trans target, meaning.trans (takenBranch_traps hl hh ht inside)⟩

/-! ### Privilege (60_exceptions.md R1002) -/


section
variable {s : State} {i : Instr}

/-- A computation that begins with the check of the privilege level. -/
theorem traps_of_privileged {f : Unit → Res Done} (above : s.priv ≠ 0#2) (hx : exec i s = complete s (s.privileged >>= f)) :
    Traps i s .privilegedOperation .instr := by
  have trapped : s.privileged = .error (trapInstr .privilegedOperation) := if_neg above
  rw [trapped] at hx
  exact hx

theorem traps_of_rfiForm {t : State} (above : s.priv ≠ 0#2) (hx : exec i s = s.rfiForm t) : Traps i s .privilegedOperation .instr := by
  have trapped : s.rfiAllowed = .error (trapInstr .privilegedOperation) := by
    rw [State.rfiAllowed, State.privileged, if_neg above]
    rfl
  rw [State.rfiForm, trapped] at hx
  exact hx

theorem traps_of_insertAllowed {r1 : BitVec 5} {f : Unit → Res Done} (above : s.priv ≠ 0#2)
    (hx : exec i s = complete s (s.insertAllowed r1 >>= f)) : Traps i s .privilegedOperation .instr := by
  have trapped : s.insertAllowed r1 = .error (trapInstr .privilegedOperation) := by
    rw [State.insertAllowed, State.privileged, if_neg above]
    rfl
  rw [trapped] at hx
  exact hx

/-- A computation that begins with the check of a register's privilege. -/
theorem traps_of_registerAccess {allowed : Bool} {f : Unit → Res Done} (denied : allowed = false)
    (hx : exec i s = complete s (registerAccess allowed >>= f)) : Traps i s .privilegedRegister .instr := by
  rw [denied] at hx
  exact hx

/-- The same after the refusal of the reserved control registers. -/
theorem traps_of_controlAccess {reserved allowed : Bool} {x : Res Unit} {g f : Unit → Res Done} (defined : reserved = false)
    (denied : allowed = false) (hx : exec i s = complete s (if reserved = true then x >>= g else registerAccess allowed >>= f)) :
    Traps i s .privilegedRegister .instr := by
  rw [defined] at hx
  exact traps_of_registerAccess denied hx

end

/-- Settles O16: each instruction begins with the check that its privilege names. -/
theorem privilegedTraps : Obligations.PrivilegedTraps := by
  intro s above
  refine ⟨?_, ?_, ?_, ?_, ?_, ?_, ?_, ?_, ?_, ?_, traps_of_rfiForm above rfl, traps_of_rfiForm above rfl, ?_, ?_, ?_, ?_, ?_, ?_, ?idtlbt, ?iitlbt,
    ?_, ?_, ?mtsp, ?mtctl, ?mfctl⟩
  case idtlbt => exact fun r2 r1 => traps_of_insertAllowed above rfl
  case iitlbt => exact fun r2 r1 => traps_of_insertAllowed above rfl
  case mtsp =>
    intro r sr high
    refine traps_of_registerAccess ?_ rfl
    simp [above, high]
  case mtctl =>
    intro t r named
    have outside : reservedCr t = false ∧ t ≠ 11#5 := by revert t; decide
    refine traps_of_controlAccess outside.1 ?_ rfl
    simp [above, outside.2]
  case mfctl =>
    intro r e t named
    have outside : reservedCr r = false ∧ r ≠ 11#5 ∧ r ≠ 26#5 ∧ r ≠ 27#5 := by
      have known : r = 0#5 ∨ (8 ≤ r.toNat ∧ r ≠ 11#5 ∧ r ≠ 26#5 ∧ r ≠ 27#5) :=
        named.imp_right fun ⟨high, notSar, notTr2, notTr3, _⟩ => ⟨high, notSar, notTr2, notTr3⟩
      revert known
      clear named
      revert r
      decide
    have notTimer : r ≠ 16#5 ∨ s.flag Psw.S = true := by
      obtain rfl | ⟨-, -, -, -, timer⟩ := named
      · exact .inl (by decide)
      · exact timer
    obtain ⟨defined, notSar, notTr2, notTr3⟩ := outside
    refine traps_of_controlAccess defined ?_ rfl
    simpa [above, State.publicCr, notSar, notTr2, notTr3, imp_iff_not_or] using notTimer
  all_goals intros; exact traps_of_privileged above rfl

end Sys2Proof.Machine
end

section
/-! SUPPORT. Searching a data TLB, what inserts and purges leave in a TLB, and the instructions that control the caches and TLBs, for O48 to O50. -/

namespace Sys2Proof.Machine

/-! ### Completions that write back the base register -/

section
variable {i : Instr} {s : State} {e : Ea}

theorem completes_writeBack (hp : Plain s) (hx : exec i s = complete s (done s (e.writeBack s) false)) :
    Completes i s (e.writeBack s) false := completes_of_done hp hx (by simp) (by simp) (by simp) (by simp)

/-- The same with another data TLB. -/
theorem completes_writeBack_dtlb {tlb : List TlbEntry} (hp : Plain s)
    (hx : exec i s = complete s (done s (e.writeBack { s with dtlb := tlb }) false)) : Completes i s (e.writeBack { s with dtlb := tlb }) false :=
  completes_of_done hp hx (by simp) (by simp) (by simp) (by simp)

/-- The same with another instruction TLB. -/
theorem completes_writeBack_itlb {tlb : List TlbEntry} (hp : Plain s)
    (hx : exec i s = complete s (done s (e.writeBack { s with itlb := tlb }) false)) : Completes i s (e.writeBack { s with itlb := tlb }) false :=
  completes_of_done hp hx (by simp) (by simp) (by simp) (by simp)

end

/-! ### The search of the data TLB (21_translation.md R267) -/

section
variable {s : State} {a : DataAddr} {p : Params}

theorem State.dataEntry_of_some {e : TlbEntry} (h : tlbLookup s.dtlb (s.gva a.space a.offset) = some e) : s.dataEntry a p = .ok e := by
  rw [State.dataEntry, h]

theorem State.dataEntry_of_none (h : tlbLookup s.dtlb (s.gva a.space a.offset) = none) :
    s.dataEntry a p = .error (.trap .nonAccessDataTlbMiss p) := by
  rw [State.dataEntry, h]

/-- A translation that PSW[D] asks for, before a computation. -/
def State.translated (s : State) (a : DataAddr) (body : Res Done) : Res Done :=
  if s.flag Psw.D then s.dataEntry a (.data a) >>= fun _ => body else body

theorem State.translated_passes {body : Res Done} (h : s.flag Psw.D = false ∨ tlbLookup s.dtlb (s.gva a.space a.offset) ≠ none) :
    s.translated a body = body := by
  unfold State.translated
  split
  next on =>
    obtain off | hit := h
    · exact absurd (off.symm.trans on) Bool.false_ne_true
    · obtain ⟨e, he⟩ := Option.ne_none_iff_exists'.1 hit
      rw [State.dataEntry_of_some he]
      rfl
  next => rfl

theorem State.translated_misses {body : Res Done} (on : s.flag Psw.D = true) (miss : tlbLookup s.dtlb (s.gva a.space a.offset) = none) :
    s.translated a body = .error (.trap .nonAccessDataTlbMiss (.data a)) := by
  rw [State.translated, if_pos on, State.dataEntry_of_none miss]
  rfl

/-! ### Cache control (47_cache_tlb.md R711 to R715) -/

variable {e : Ea}

theorem State.fdceForm_eq (h : e.resolveVirtual s = .ok a) : s.fdceForm e = done s (e.writeBack s) false := by
  rw [State.fdceForm, h]
  rfl

theorem State.fdcForm_eq (h : e.resolveVirtual s = .ok a) : s.fdcForm e = s.translated a (done s (e.writeBack s) false) := by
  rw [State.fdcForm, h]
  rfl

/-- PDC does not purge here (D22). -/
theorem State.pdcForm_eq (h : e.resolveVirtual s = .ok a) : s.pdcForm e = s.translated a (done s (e.writeBack s) false) := by
  have flush : (s.priv = 0#2 && Config.pdcPurges) = false := by
    rw [show Config.pdcPurges = false from rfl, Bool.and_false]
  rw [State.pdcForm, h, flush]
  rfl

end

/-- An instruction that is no more than a translation by PSW[D] and a modification of the base register. -/
theorem completesOrMisses {i : Instr} {s : State} {a : DataAddr} {e : Ea} (hp : Plain s)
    (hx : exec i s = complete s (s.translated a (done s (e.writeBack s) false))) :
    (s.flag Psw.D = false ∨ tlbLookup s.dtlb (s.gva a.space a.offset) ≠ none → Completes i s (e.writeBack s) false) ∧
    (s.flag Psw.D = true → tlbLookup s.dtlb (s.gva a.space a.offset) = none → Traps i s .nonAccessDataTlbMiss (.data a)) := by
  refine ⟨fun passes => completes_writeBack hp ?_, fun on miss => traps_of_error ?_⟩
  · rw [hx, State.translated_passes passes]
  · rw [hx, State.translated_misses on miss]

/-- Settles O48: FDC, FIC and PDC are one translation by PSW[D], and FDCE and FICE none. -/
theorem cacheControl : Obligations.CacheControl := by
  rintro s b x im5 sr sr3 m e e' a hp rfl rfl
  refine ⟨fun resolved => ?_, fun resolved => ?_, completes_writeBack hp rfl, ?explicit⟩
  · have fdc := completesOrMisses (i := .fdcIndexed b x sr m) hp (congrArg (complete s) (State.fdcForm_eq resolved))
    have pdc := completesOrMisses (i := .pdc b x sr m) hp (congrArg (complete s) (State.pdcForm_eq resolved))
    have fic := completesOrMisses (i := .ficImplicit b x sr m) (a := a) (e := s.mmEa b x sr m) hp (by
      change complete s ((s.mmEa b x sr m).resolveVirtual s >>= _) = _
      rw [State.mmEa, resolved]
      rfl)
    exact ⟨completes_writeBack hp (congrArg (complete s) (State.fdceForm_eq resolved)),
      fun passes => ⟨fdc.1 passes, pdc.1 passes, fic.1 passes⟩, fun on miss => ⟨fdc.2 on miss, pdc.2 on miss, fic.2 on miss⟩⟩
  · exact completesOrMisses (i := .fdcShort b im5 sr) (e := s.ea b (lowSignExt im5) .none sr false) hp
      (congrArg (complete s) (State.fdcForm_eq resolved))
  case explicit =>
    rintro rfl
    exact completesOrMisses hp rfl

/-! ### Inserts and purges (R716 to R721) -/

section
variable {i : Instr} {s : State}

theorem State.insertAllowed_eq_ok {r1 : BitVec 5} (level : s.priv = 0#2) (quiet : s.flag Psw.Q = false)
    (size : ((s.readGr r1).extractLsb' 0 4).toNat < 8) : s.insertAllowed r1 = .ok () := by
  have known : pageSize (field (s.readGr r1) 60 63) = .ok (field (s.readGr r1) 60 63) := if_pos size
  rw [State.insertAllowed, State.privileged_eq_ok level, quiet, known]
  rfl

theorem State.insertAllowed_of_collecting {r1 : BitVec 5} (level : s.priv = 0#2) (collecting : s.flag Psw.Q = true) :
    s.insertAllowed r1 = .error (.refuse .insertWithQ) := by
  rw [State.insertAllowed, State.privileged_eq_ok level, collecting]
  rfl

theorem State.insertAllowed_of_reserved {r1 : BitVec 5} (level : s.priv = 0#2) (quiet : s.flag Psw.Q = false)
    (size : 8 ≤ ((s.readGr r1).extractLsb' 0 4).toNat) : s.insertAllowed r1 = .error (.refuse .reservedPageSize) := by
  have reserved : pageSize (field (s.readGr r1) 60 63) = .error (.refuse .reservedPageSize) := if_neg (Nat.not_lt.2 size)
  rw [State.insertAllowed, State.privileged_eq_ok level, quiet, reserved]
  rfl

/-- An insertion whose checks refuse it is refused. -/
theorem refused_of_insertAllowed {r2 r1 : BitVec 5} {x : Refusal} (refused : s.insertAllowed r1 = .error (.refuse x)) :
    exec (.idtlbt r2 r1) s = .refused x ∧ exec (.iitlbt r2 r1) s = .refused x := by
  constructor
  · change complete s (s.insertAllowed r1 >>= _) = _
    rw [refused]
    rfl
  · change complete s (s.insertAllowed r1 >>= _) = _
    rw [refused]
    rfl

theorem pageSize_eq_ok {code : BitVec 4} (h : code.toNat < 8) : pageSize code = .ok code := if_pos h

theorem pageSize_reserved {code : BitVec 4} (h : 8 ≤ code.toNat) : pageSize code = .error (.refuse .reservedPageSize) := if_neg (Nat.not_lt.2 h)

variable {e : Ea} {a : DataAddr} {size : BitVec 4}

theorem State.pdtlbForm_eq (level : s.priv = 0#2) (resolved : e.resolveVirtual s = .ok a) (hs : e.base.extractLsb' 0 4 = size) :
    s.pdtlbForm e = pageSize size >>= fun size =>
      done s (e.writeBack { s with dtlb := purgePage s.dtlb (s.gva a.space a.offset) size }) false := by
  rw [State.pdtlbForm, State.privileged_eq_ok level, resolved, hs]
  rfl

theorem State.pitlbForm_eq (level : s.priv = 0#2) (hs : e.base.extractLsb' 0 4 = size) :
    s.pitlbForm e a = pageSize size >>= fun size =>
      done s (e.writeBack { s with itlb := purgePage s.itlb (s.gva a.space a.offset) size }) false := by
  rw [State.pitlbForm, State.privileged_eq_ok level, hs]
  rfl

theorem State.pdtlbeForm_eq (level : s.priv = 0#2) (resolved : e.resolveVirtual s = .ok a) :
    s.pdtlbeForm e =
      done s (e.writeBack { s with dtlb := s.dtlb.filter fun t => !(Config.dtlbPurgeSelects a.space a.offset t.gva) }) false := by
  rw [State.pdtlbeForm, State.privileged_eq_ok level, resolved]
  rfl

theorem State.pitlbeForm_eq (level : s.priv = 0#2) :
    s.pitlbeForm e a =
      done s (e.writeBack { s with itlb := s.itlb.filter fun t => !(Config.itlbPurgeSelects a.space a.offset t.gva) }) false := by
  rw [State.pitlbeForm, State.privileged_eq_ok level]
  rfl

end

/-! ### What a TLB holds after an insert or a purge (21_translation.md R270, R271) -/

section
variable {tlb : List TlbEntry} {e f : TlbEntry} {g h : BitVec 96} {size : BitVec 4}

theorem tlbLookup_purgePage_of_none (miss : tlbLookup tlb h = none) : tlbLookup (purgePage tlb g size) h = none :=
  List.find?_eq_none.2 fun x hx => List.find?_eq_none.1 miss x (List.mem_of_mem_filter hx)

/-- The first entry that covers an address, if it does not overlap the page, is still the first one. -/
theorem tlbLookup_purgePage_of_clear (hit : tlbLookup tlb h = some f) (clear : overlaps g size f = false) :
    tlbLookup (purgePage tlb g size) h = some f := by
  obtain ⟨covers, before, after, rfl, first⟩ := List.find?_eq_some_iff_append.1 hit
  refine List.find?_eq_some_iff_append.2 ⟨covers, purgePage before g size, purgePage after g size, ?_,
    fun x hx => first x (List.mem_of_mem_filter hx)⟩
  rw [purgePage, List.filter_append, List.filter_cons, clear]
  rfl

/-- Whatever covers an address of the page overlaps the page. -/
theorem tlbLookup_purgePage_of_covered (inside : g >>> pageBits size = h >>> pageBits size) : tlbLookup (purgePage tlb g size) h = none := by
  refine List.find?_eq_none.2 fun x hx covers => ?_
  let page : TlbEntry := { x with gva := g, size := size }
  have pageCovers : page.covers h = true := beq_iff_eq.2 inside
  have clear : overlaps g size x = false := by simpa using (List.mem_filter.1 hx).2
  exact Bool.false_ne_true (clear.symm.trans (overlaps_of_covers pageCovers covers))

theorem tlbLookup_insertEntry_of_covers (covers : e.covers h = true) : tlbLookup (insertEntry tlb e) h = some e :=
  List.find?_cons_of_pos covers

theorem tlbLookup_insertEntry (apart : e.covers h = false) : tlbLookup (insertEntry tlb e) h = tlbLookup (purgePage tlb e.gva e.size) h :=
  List.find?_cons_of_neg (ne_true_of_eq_false apart)

/-- An entry that does not overlap a translation covers none of its addresses. -/
theorem covers_of_clear (hit : tlbLookup tlb h = some f) (clear : overlaps e.gva e.size f = false) : e.covers h = false :=
  Bool.eq_false_iff.2 fun covers =>
    Bool.false_ne_true (clear.symm.trans (overlaps_of_covers covers (List.find?_some (p := (TlbEntry.covers · h)) hit)))

end

/-- Settles O49: each form behind its checks, and the searches of the lists it leaves. -/
theorem tlbInsertPurge : Obligations.TlbInsertPurge := by
  refine ⟨?inserts, ?collecting, ?reserved, ?purges, ?searches⟩
  case inserts =>
    rintro s r2 r1 _ _ e f hp level quiet rfl rfl size rfl rfl
    have allowed := State.insertAllowed_eq_ok level quiet size
    constructor
    · refine completes_of_done hp ?_ rfl rfl rfl rfl
      change complete s (s.insertAllowed r1 >>= _) = _
      rw [allowed]
      rfl
    · refine completes_of_done hp ?_ rfl rfl rfl rfl
      change complete s (s.insertAllowed r1 >>= _) = _
      rw [allowed]
      rfl
  case collecting => exact fun s r2 r1 level collecting => refused_of_insertAllowed (State.insertAllowed_of_collecting level collecting)
  case reserved => exact fun s r2 r1 level quiet size => refused_of_insertAllowed (State.insertAllowed_of_reserved level quiet size)
  case purges =>
    rintro s b x sr sr3 m e e' a a' size hp level rfl rfl resolved rfl rfl
    let size := (s.readGr b).extractLsb' 0 4
    have data := State.pdtlbForm_eq level resolved (size := size) rfl
    have code := State.pitlbForm_eq level (e := s.indexedEa b x 0#2 0#1 m 0)
      (a := ⟨s.readSr (assemble3 sr3), (s.indexedEa b x 0#2 0#1 m 0).offset, s.readGr b⟩) (size := size) rfl
    refine ⟨fun small => ?_, fun big => ?_, completes_writeBack_dtlb hp (congrArg (complete s) (State.pdtlbeForm_eq level resolved)),
      completes_writeBack_itlb hp (congrArg (complete s) (State.pitlbeForm_eq level))⟩
    · rw [pageSize_eq_ok small] at data code
      exact ⟨completes_writeBack_dtlb hp (congrArg (complete s) data), completes_writeBack_dtlb hp (congrArg (complete s) data),
        completes_writeBack_itlb hp (congrArg (complete s) code), completes_writeBack_itlb hp (congrArg (complete s) code)⟩
    · rw [pageSize_reserved big] at data code
      exact ⟨congrArg (complete s) data, congrArg (complete s) data, congrArg (complete s) code, congrArg (complete s) code⟩
  case searches =>
    refine fun tlb e f g h size => ⟨tlbLookup_insertEntry_of_covers, fun miss apart => ?_, fun hit clear => ?_, tlbLookup_purgePage_of_covered,
      tlbLookup_purgePage_of_clear⟩
    · rw [tlbLookup_insertEntry apart, tlbLookup_purgePage_of_none miss]
    · rw [tlbLookup_insertEntry (covers_of_clear hit clear), tlbLookup_purgePage_of_clear hit clear]

/-! ### Probes, LPA and LCI (R722 to R725) -/

section
variable {i : Instr} {s : State} {a : DataAddr} {e : TlbEntry}

/-- A probe's computation. -/
theorem State.probeForm_eq {b : BitVec 5} {sr level : BitVec 2} {kind : AccessKind} {t : BitVec 5}
    (resolved : (s.ea b 0 .none sr false).resolveVirtual s = .ok a) :
    s.probeForm b sr kind level t = s.dataEntry a (.virtualData a) >>= fun e =>
      done s (s.writeGr t (if s.accessAllowed e kind level then 1 else 0)) false := by
  rw [State.probeForm, resolved]
  rfl

/-- What waits for a translation that is not there traps. -/
theorem traps_of_dataEntry {f : TlbEntry → Res Done} (miss : tlbLookup s.dtlb (s.gva a.space a.offset) = none)
    (hx : exec i s = complete s (s.dataEntry a (.virtualData a) >>= f)) : Traps i s .nonAccessDataTlbMiss (.virtualData a) := by
  rw [State.dataEntry_of_none miss] at hx
  exact hx

theorem completes_of_dataEntry {f : TlbEntry → Res Done} {t : BitVec 5} {v : Dword} (hp : Plain s)
    (hit : tlbLookup s.dtlb (s.gva a.space a.offset) = some e) (hf : f e = done s (s.writeGr t v) false)
    (hx : exec i s = complete s (s.dataEntry a (.virtualData a) >>= f)) : Completes i s (s.writeGr t v) false := by
  rw [State.dataEntry_of_some hit] at hx
  exact completes_writeGr hp (hx.trans (congrArg (complete s) hf))

theorem State.lpaForm_eq {ea : Ea} {t : BitVec 5} (level : s.priv = 0#2) (resolved : ea.resolveVirtual s = .ok a) :
    s.lpaForm ea t = s.dataEntry a (.virtualData a) >>= fun x =>
      done s ((ea.writeBack s).writeGr t (x.translate (s.usedOffset a.offset))) false := by
  rw [State.lpaForm, State.privileged_eq_ok level, resolved]
  rfl

/-- LCI on a machine with coherent I/O and no cache. -/
theorem State.lciForm_eq {ea : Ea} {t : BitVec 5} (level : s.priv = 0#2) (resolved : ea.resolveVirtual s = .ok a) :
    s.lciForm ea t = done s ((s.writeGr t (s.free 0)).drawn 1) false := by
  rw [State.lciForm, State.privileged_eq_ok level, resolved]
  rfl

/-- The mask of the low `n` bits, bit by bit. -/
theorem getLsbD_one_shiftLeft_sub_one {n k : Nat} (hn : n < 64) : ((1 : Dword) <<< n - 1).getLsbD k = decide (k < n) := by
  have power : ((1 : Dword) <<< n).toNat = 2 ^ n := by
    rw [BitVec.toNat_shiftLeft, Nat.shiftLeft_eq, Nat.mod_eq_of_lt]
    · exact one_mul _
    · simpa using Nat.pow_lt_pow_right (by decide) hn
  have value : ((1 : Dword) <<< n - 1).toNat = 2 ^ n - 1 := by
    rw [BitVec.toNat_sub_of_le, power]
    · rfl
    · rw [BitVec.le_def, power]
      exact Nat.two_pow_pos n
  rw [← BitVec.testBit_toNat, value, Nat.testBit_two_pow_sub_one]

/-- The bits within the page are the offset's, and the others the physical page number's (R246). -/
theorem TlbEntry.getLsbD_translate (o : Dword) {k : Nat} (hk : k < 64) :
    (e.translate o).getLsbD k = if k < 12 + 2 * e.size.toNat then o.getLsbD k else decide (12 ≤ k) && e.ppn.getLsbD (k - 12) := by
  have small : 12 + 2 * e.size.toNat < 64 := by omega
  have inPage : ((1 : Dword) <<< pageBits e.size - 1).getLsbD k = decide (k < 12 + 2 * e.size.toNat) := getLsbD_one_shiftLeft_sub_one small
  have frame : (e.ppn ++ 0#12 : Dword).getLsbD k = (decide (12 ≤ k) && e.ppn.getLsbD (k - 12)) := by
    rw [BitVec.getLsbD_append]
    by_cases low : k < 12
    · simp [low]
    · simp [low, Nat.le_of_not_lt low]
  unfold TlbEntry.translate
  rw [BitVec.getLsbD_or, BitVec.getLsbD_and, BitVec.getLsbD_and, BitVec.getLsbD_not, inPage, frame]
  by_cases inside : k < 12 + 2 * e.size.toNat
  · simp [inside, hk]
  · simp [inside, hk]

end

/-- Settles O50: each form is a search of the data TLB, LCI none. -/
theorem probes : Obligations.Probes := by
  intro s b r x iv t sr m hp
  refine ⟨fun a resolved => ?_, fun a level resolved => ?_, fun a level resolved =>
    completes_writeGr_drawn hp (congrArg (complete s) (State.lciForm_eq level resolved)), fun e o k hk => TlbEntry.getLsbD_translate o hk⟩
  · have form (kind : AccessKind) (level : BitVec 2) := congrArg (complete s) (State.probeForm_eq (kind := kind) (level := level) (t := t) resolved)
    exact ⟨fun miss => ⟨traps_of_dataEntry miss (form _ _), traps_of_dataEntry miss (form _ _), traps_of_dataEntry miss (form _ _),
        traps_of_dataEntry miss (form _ _)⟩,
      fun e hit => ⟨completes_of_dataEntry hp hit rfl (form _ _), completes_of_dataEntry hp hit rfl (form _ _),
        completes_of_dataEntry hp hit rfl (form _ _), completes_of_dataEntry hp hit rfl (form _ _)⟩⟩
  · have form := congrArg (complete s) (State.lpaForm_eq (t := t) level resolved)
    refine ⟨fun miss => traps_of_dataEntry miss form, fun e hit => completes_of_done hp ?_ (by simp) (by simp) (by simp) (by simp)⟩
    rw [State.dataEntry_of_some hit] at form
    exact form

end Sys2Proof.Machine
end

section
/-! SUPPORT. The operations of the assist units behind their configuration bits, for O51. -/

namespace Sys2Proof.Machine

/-! ### Special function units (48_assist_sfu_copr.md R760 to R763) -/

section
variable {i : Instr} {s : State} {c : Config.SfuCall} {t : Option (BitVec 5)} {n : BitVec 1}

/-- What a special operation leaves when its unit raises nothing. -/
def State.afterSpop (s : State) (c : Config.SfuCall) (t : Option (BitVec 5)) : State :=
  match t with
  | some t => (s.afterSfu c).writeGr t (Config.sfuResult c)
  | none => s.afterSfu c

theorem traps_of_spopDisabled (hx : exec i s = complete s (s.spopForm c t n)) (off : s.sfuEnabled c.unit = false) :
    Traps i s .assistEmulation .instrUndefinedAddress := by
  rw [State.spopForm, off] at hx
  exact hx

theorem traps_of_sfuRaises (hx : exec i s = complete s (s.spopForm c t n)) (on : s.sfuEnabled c.unit = true) (raises : sfuRaises c = true) :
    Traps i s .assistException .instr := by
  rw [State.spopForm, on, raises] at hx
  exact hx

theorem completes_spopForm (hp : Plain s) (hx : exec i s = complete s (s.spopForm c t n)) (on : s.sfuEnabled c.unit = true)
    (quiet : sfuRaises c = false) : Completes i s (s.afterSpop c t) (isSet n && Config.sfuCondition c) := by
  rw [State.spopForm, on, quiet] at hx
  cases t with
  | none => exact completes_of_done hp hx rfl rfl rfl rfl
  | some t =>
    refine completes_of_done hp hx ?_ ?_ ?_ ?_
    all_goals
      unfold State.afterSpop
      simp [State.afterSfu]

/-- IDENTIFY SFU raises no exception (R761). -/
theorem sfuRaises_identify {s : State} {sfu : BitVec 3} {a b : Dword} :
    sfuRaises (s.sfuCall 1 sfu (0#15 ++ sfu ++ 0#1).toNat a b) = false := by
  have opcode : (0#15 ++ sfu ++ 0#1).toNat = sfu.toNat * 2 := by
    rw [toNat_append_eq_add, toNat_append_eq_add]
    simp [Nat.mul_comm]
  have identifies : identifiesSfu (s.sfuCall 1 sfu (0#15 ++ sfu ++ 0#1).toNat a b) = true := by
    rw [opcode]
    exact beq_self_eq_true (sfu.toNat * 2)
  rw [sfuRaises, identifies, Bool.not_true, Bool.and_false]

end

/-! ### Coprocessors (R764, R765) -/

section
variable {i : Instr} {s : State} {unit : BitVec 3} {sop1 : BitVec 17} {sop2 : BitVec 5} {n : BitVec 1}

/-- The call of a coprocessor operation. -/
def State.coprCall (s : State) (unit : BitVec 3) (sop1 : BitVec 17) (sop2 : BitVec 5) (n : BitVec 1) : Config.CoprCall :=
  ⟨unit, sop1 ++ sop2, n, s.priv, s.coprRegs unit, s.coprFitted unit⟩

theorem traps_of_coprDisabled (hx : exec i s = complete s (s.coprForm unit sop1 n sop2)) (off : s.coprEnabled unit = false) :
    Traps i s .assistEmulation .instrUndefinedAddress := by
  rw [State.coprForm, off] at hx
  exact hx

/-- IDENTIFY COPROCESSOR of the units 4 to 7 (R765). -/
theorem coprForm_identify (on : s.coprEnabled unit = true) (high : 4 ≤ unit.toNat) :
    s.coprForm unit 0#17 0#1 0#5 = done s (s.setCpr unit 0#5 (Config.coprIdentification unit)) false := by
  rw [State.coprForm, on, decide_eq_true high]
  rfl

/-- Any other operation of an enabled coprocessor. -/
theorem coprForm_operation (on : s.coprEnabled unit = true) (other : unit.toNat < 4 ∨ sop1 ++ sop2 ≠ 0 ∨ n = 1) :
    s.coprForm unit sop1 n sop2 =
      if coprRaises (s.coprCall unit sop1 sop2 n) then .error (trapInstr .assistException)
      else done s (s.setCopr unit (Config.coprRegisters (s.coprCall unit sop1 sop2 n)))
        (isSet n && Config.coprCondition (s.coprCall unit sop1 sop2 n)) := by
  have notIdentify : (decide (4 ≤ unit.toNat) && sop1 ++ sop2 == 0#22 && n == 0#1) = false := by
    obtain low | operation | rfl := other
    · rw [decide_eq_false (Nat.not_le.2 low), Bool.false_and, Bool.false_and]
    · rw [beq_false_of_ne (b := 0#22) operation, Bool.and_false, Bool.false_and]
    · exact Bool.and_false _
  rw [State.coprForm, on, notIdentify]
  rfl

theorem traps_of_coprRaisesOperation (hx : exec i s = complete s (s.coprForm unit sop1 n sop2)) (on : s.coprEnabled unit = true)
    (other : unit.toNat < 4 ∨ sop1 ++ sop2 ≠ 0 ∨ n = 1) (raises : coprRaises (s.coprCall unit sop1 sop2 n) = true) :
    Traps i s .assistException .instr := by
  rw [coprForm_operation on other, raises] at hx
  exact hx

theorem completes_coprForm (hp : Plain s) (hx : exec i s = complete s (s.coprForm unit sop1 n sop2)) (on : s.coprEnabled unit = true)
    (other : unit.toNat < 4 ∨ sop1 ++ sop2 ≠ 0 ∨ n = 1) (quiet : coprRaises (s.coprCall unit sop1 sop2 n) = false) :
    Completes i s (s.setCopr unit (Config.coprRegisters (s.coprCall unit sop1 sop2 n)))
      (isSet n && Config.coprCondition (s.coprCall unit sop1 sop2 n)) := by
  rw [coprForm_operation on other, quiet] at hx
  exact completes_of_done hp hx rfl rfl rfl rfl

theorem toNat_unit4 (lo : BitVec 2) : 4 ≤ (unit4 lo).toNat := by
  revert lo
  decide

end

/-- Settles O51: each operation by its unit's configuration bit and exception. -/
theorem assists : Obligations.Assists := by
  constructor
  · rintro s sop15 sop10 sop5 sop2 r r1 r2 t sfu n _ _ _ _ hp rfl rfl rfl rfl
    refine ⟨fun off => ?disabled, fun on => ?enabled⟩
    case disabled =>
      exact ⟨traps_of_spopDisabled rfl off, traps_of_spopDisabled rfl off, traps_of_spopDisabled rfl off, traps_of_spopDisabled rfl off⟩
    case enabled =>
      refine ⟨completes_spopForm (t := none) hp rfl on, traps_of_sfuRaises rfl on, completes_spopForm (t := some t) hp rfl on,
        traps_of_sfuRaises rfl on, ?_, completes_spopForm (t := none) hp rfl on, traps_of_sfuRaises rfl on,
        completes_spopForm (t := none) hp rfl on, traps_of_sfuRaises rfl on⟩
      rintro rfl rfl
      exact sfuRaises_identify
  · rintro s sop1 sop2 lo n unit _ hp rfl
    refine ⟨?three, ?fourToSeven, fun off => ?_, fun fpOn on => ?_, fun fpOff on => ?_, fun off => ?_, fun on => ?_⟩
    case three =>
      rintro rfl
      have low : (3#3).toNat < 4 := by decide
      exact ⟨fun off => traps_of_coprDisabled (unit := 3#3) rfl off, fun on => traps_of_coprRaisesOperation (unit := 3#3) rfl on (.inl low),
        fun on => completes_coprForm (unit := 3#3) hp rfl on (.inl low)⟩
    case fourToSeven =>
      rintro rfl
      refine ⟨traps_of_coprDisabled rfl, fun on => ⟨?_, fun other => traps_of_coprRaisesOperation rfl on (.inr other),
        fun other => completes_coprForm hp rfl on (.inr other)⟩⟩
      exact completes_of_done hp (congrArg (complete s) (coprForm_identify on (toNat_unit4 lo))) rfl rfl rfl rfl
    · refine traps_of_error (congrArg (complete s) (?_ : s.coprOneForm = _))
      have off : s.coprEnabled 1#3 = false := off
      rw [State.coprOneForm, off]
      rfl
    · refine congrArg (complete s) (?_ : s.coprOneForm = .error (.refuse .coprUnitOne))
      have on : s.coprEnabled 1#3 = true := on
      have fpOn : s.coprEnabled 0#3 = true := fpOn
      rw [State.coprOneForm, on, fpOn]
      rfl
    · refine congrArg (complete s) (?_ : s.coprOneForm = .error (.refuse .mixedFpEnable))
      have on : s.coprEnabled 1#3 = true := on
      have fpOff : s.coprEnabled 0#3 = false := fpOff
      rw [State.coprOneForm, on, fpOff]
      rfl
    · exact ⟨traps_of_error (congrArg (complete s) (if_neg (ne_true_of_eq_false off))),
        traps_of_error (congrArg (complete s) (if_neg (ne_true_of_eq_false off)))⟩
    · exact ⟨completes_of_done hp (congrArg (complete s) (if_pos on)) rfl rfl rfl rfl,
        completes_of_done hp (congrArg (complete s) (if_pos on)) rfl rfl rfl rfl⟩

end Sys2Proof.Machine
end

section
/-! SUPPORT. The gate before every floating-point operation, for O54. -/

namespace Sys2Proof.Machine

/-! ### The gate (50_fp_instructions.md R878 steps 1 to 3) -/

section
variable {s : State}

theorem fpGate_mixed (mixed : s.coprEnabled 0#3 ≠ s.coprEnabled 1#3) : s.fpGate = .error (.refuse .mixedFpEnable) := by
  rw [State.fpGate, State.fpMixed, bne_iff_ne.2 mixed]
  rfl

theorem fpGate_off (h0 : s.coprEnabled 0#3 = false) (h1 : s.coprEnabled 1#3 = false) : s.fpGate = .error emulationTrap := by
  rw [State.fpGate, State.fpMixed, State.fpOff, h0, h1]
  rfl

theorem fpGate_afterFid (h0 : s.coprEnabled 0#3 = true) (h1 : s.coprEnabled 1#3 = true) (after : s.fpSequence = .identified) :
    s.fpGate = .error (.refuse .fpIdentifyAlone) := by
  have after : s.fpAfterFid = true := decide_eq_true after
  rw [State.fpGate, State.fpMixed, State.fpOff, h0, h1, after]
  rfl

theorem fpGate_armed (h0 : s.coprEnabled 0#3 = true) (h1 : s.coprEnabled 1#3 = true) (other : s.fpSequence ≠ .identified)
    (armed : s.fpTrap = true) : s.fpGate = .error (trapInstr .assistException) := by
  have other : s.fpAfterFid = false := decide_eq_false other
  rw [State.fpGate, State.fpMixed, State.fpOff, h0, h1, other, armed]
  rfl

theorem fpGate_pending (h : FpOn s) (pending : s.fpPending = true) : s.fpGate = .error (.refuse .fpPendingField) := by
  obtain ⟨mixed, off, armed, after⟩ := fpOn_gate h
  rw [State.fpGate, mixed, off, armed, after, pending]
  rfl

/-- The seven exception fields, of which register 0 holds one and the others two each (51_fp_exceptions.md R936). -/
theorem fpPending_iff : s.fpPending = true ↔ ∃ k, 1 ≤ k ∧ k ≤ 7 ∧
    (if k % 2 = 1 then (s.readFpr (BitVec.ofNat 5 (k / 2))).extractLsb' 26 6 else (s.readFpr (BitVec.ofNat 5 (k / 2))).extractLsb' 58 6) ≠ 0 := by
  have fields : s.fpPending = true ↔ (s.readFpr 0#5).extractLsb' 26 6 ≠ 0 ∨
      ((s.readFpr 1#5).extractLsb' 58 6 ≠ 0 ∨ (s.readFpr 1#5).extractLsb' 26 6 ≠ 0) ∨
      ((s.readFpr 2#5).extractLsb' 58 6 ≠ 0 ∨ (s.readFpr 2#5).extractLsb' 26 6 ≠ 0) ∨
      ((s.readFpr 3#5).extractLsb' 58 6 ≠ 0 ∨ (s.readFpr 3#5).extractLsb' 26 6 ≠ 0) := by
    simp [State.fpPending, field]
  rw [fields]
  constructor
  · rintro (h | (h | h) | (h | h) | (h | h))
    · exact ⟨1, by decide, by decide, h⟩
    · exact ⟨2, by decide, by decide, h⟩
    · exact ⟨3, by decide, by decide, h⟩
    · exact ⟨4, by decide, by decide, h⟩
    · exact ⟨5, by decide, by decide, h⟩
    · exact ⟨6, by decide, by decide, h⟩
    · exact ⟨7, by decide, by decide, h⟩
  · rintro ⟨k, low, high, h⟩
    interval_cases k
    · exact .inl h
    · exact .inr (.inl (.inl h))
    · exact .inr (.inl (.inr h))
    · exact .inr (.inr (.inl (.inl h)))
    · exact .inr (.inr (.inl (.inr h)))
    · exact .inr (.inr (.inr (.inl h)))
    · exact .inr (.inr (.inr (.inr h)))

end

/-- Every floating-point operation begins with the gate. -/
theorem exec_of_isFpOperation {i : Instr} (s : State) (h : isFpOperation i = true) :
    ∃ f : Unit → Res Done, exec i s = complete s (s.fpGate >>= f) := by
  cases i with
  | fid | fcpy | fcpyE | fabs | fabsE | fsqrt | fsqrtE | frnd | frndE | fneg | fnegE | fnegabs | fnegabsE | fcnvFF | fcnvFFE | fcnvXF | fcnvXFE
  | fcnvFX | fcnvFXE | fcnvFXT | fcnvFXTE | fcnvUF | fcnvUFE | fcnvFU | fcnvFUE | fcnvFUT | fcnvFUTE | fcmp | fcmpE | ftest | fadd | faddE | fsub
  | fsubE | fmpy | fmpyE | fdiv | fdivE | xmpyu | fmpyadd | fmpysub | fmpyfadd | fmpynfadd =>
    exact ⟨_, rfl⟩
  | _ => cases h

/-- Settles O54: an operation ends as the gate says when the gate stops it. -/
theorem fpGates : Obligations.FpGates := by
  intro s i operation
  obtain ⟨f, meaning⟩ := exec_of_isFpOperation s operation
  have stops {x : Stop} (stopped : s.fpGate = .error x) : exec i s = complete s (.error x) := by
    rw [meaning, stopped]
    rfl
  exact ⟨fun mixed => stops (fpGate_mixed mixed), fun h0 h1 => stops (fpGate_off h0 h1), fun h0 h1 after => stops (fpGate_afterFid h0 h1 after),
    fun h0 h1 other armed => stops (fpGate_armed h0 h1 other armed), fun on => ⟨fpPending_iff, fun pending => stops (fpGate_pending on pending)⟩⟩

end Sys2Proof.Machine
end

section
/-! SUPPORT. The floating-point operations that write a result and the two that write two, for O55. -/

namespace Sys2Proof.Machine

/-! ### The operands of the multiple operations (49_floating_point.md R847, R848) -/

section
variable {v rm1 rm2 ta ra tm : BitVec 5} {f : BitVec 1}

theorem regMulti_size (v : BitVec 5) (f : BitVec 1) : (regMulti v f).size ≠ .quad := by
  unfold regMulti
  split <;> simp

theorem regMulti_extension (v : BitVec 5) (f : BitVec 1) : (regMulti v f).size = .single ∨ (regMulti v f).h = 0#1 := by
  unfold regMulti
  split
  · exact .inl rfl
  · exact .inr rfl

/-- A word specifier names register 16 or a later one, a doubleword specifier the register it is. -/
theorem regMulti_destination (h : if f = 1#1 then v ≠ 0#5 else 4 ≤ v.toNat) : FpDestination (regMulti v f) := by
  refine ⟨?_, regMulti_extension v f⟩
  unfold regMulti
  split at h
  next word =>
    rw [if_pos word]
    exact (by decide : ∀ v : BitVec 5, 4 ≤ (1#1 ++ v.extractLsb' 0 4 : BitVec 5).toNat) v
  next double =>
    rw [if_neg double]
    exact h

theorem fpSource_of_destination {r : FpReg} (h : FpDestination r) : FpSource r := ⟨.inr h.1, h.2⟩

theorem specifier_ne_zero (h : if f = 1#1 then v ≠ 0#5 else 4 ≤ v.toNat) : v ≠ 0#5 := by
  split at h
  · exact h
  · rintro rfl
    exact absurd h (by decide)

theorem multiOperands_ok (h1 : ra ≠ tm) (h2 : ta ≠ rm1) (h3 : ta ≠ rm2) (h4 : ta ≠ tm) (h5 : ∀ v ∈ [rm1, rm2, ta, ra, tm], v ≠ 0#5) :
    multiOperands rm1 rm2 ta ra tm = .ok () := by
  obtain ⟨ok, -⟩ | ⟨-, overlap | overlap | overlap | overlap | ⟨v, hv, zero⟩⟩ := multiOperands_cases rm1 rm2 ta ra tm
  · exact ok
  · exact absurd overlap h1
  · exact absurd overlap h2
  · exact absurd overlap h3
  · exact absurd overlap h4
  · exact absurd zero (h5 v hv)

theorem multiOperands_refused (h : ra = tm ∨ ta = rm1 ∨ ta = rm2 ∨ ta = tm ∨ ∃ v ∈ [rm1, rm2, ta, ra, tm], v = 0#5) :
    multiOperands rm1 rm2 ta ra tm = .error (.refuse .fpMultiOperands) := if_pos h

end

/-! ### FMPYADD and FMPYSUB (50_fp_instructions.md R906, R907) -/

section
variable {i : Instr} {s : State} {code : BitVec 6} {rm1 rm2 ta ra tm : BitVec 5} {f : BitVec 1} {op : Fmt → FpEnv → Nat → Nat → Delivery}

/-- Two results, or, when either of them is a trap, an operation for software (51_fp_exceptions.md R935). -/
def State.multiResult (s : State) (code : BitVec 6) (rm1 rm2 ta ra tm : BitVec 5) (f : BitVec 1) (a b : Delivery) : State :=
  match a, b with
  | .value m x, .value n y => (((s.fpWrite (regMulti tm f) m).fpWrite (regMulti ta f) n).fpFlags (x ||| y)).fpDid .other
  | _, _ =>
    (s.fpDeliver code (regMulti tm f) [regMulti rm1 f, regMulti rm2 f, regMulti ta f, regMulti ra f] .unimplemented).fpDid .other

theorem multiResult_values {a b : Delivery} {m n : Nat} {x y : BitVec 5} (ha : a = .value m x) (hb : b = .value n y) :
    s.multiResult code rm1 rm2 ta ra tm f a b =
      (((s.fpWrite (regMulti tm f) m).fpWrite (regMulti ta f) n).fpFlags (x ||| y)).fpDid .other := by
  rw [ha, hb]
  rfl

theorem multiResult_software {a b : Delivery} (h : (∀ m x, a ≠ .value m x) ∨ ∀ n y, b ≠ .value n y) :
    s.multiResult code rm1 rm2 ta ra tm f a b =
      (s.fpDeliver code (regMulti tm f) [regMulti rm1 f, regMulti rm2 f, regMulti ta f, regMulti ra f] .unimplemented).fpDid .other := by
  unfold State.multiResult
  split
  next m x n y =>
    obtain h | h := h
    · exact absurd rfl (h m x)
    · exact absurd rfl (h n y)
  next => rfl

theorem back_multiResult (s : State) (a b : Delivery) :
    (s.multiResult code rm1 rm2 ta ra tm f a b).iaoqBack = s.iaoqBack ∧ (s.multiResult code rm1 rm2 ta ra tm f a b).iasqBack = s.iasqBack ∧
    (s.multiResult code rm1 rm2 ta ra tm f a b).rctr = s.rctr ∧ (s.multiResult code rm1 rm2 ta ra tm f a b).itmr = s.itmr := by
  unfold State.multiResult
  split
  · rw [fpWrite_eq, fpWrite_eq s]
    exact ⟨rfl, rfl, rfl, rfl⟩
  · rw [fpDeliver_eq]
    exact ⟨rfl, rfl, rfl, rfl⟩

/-- The computation on operands that the instructions define. -/
theorem fpMulti_eq (ready : FpReady s) (operands : multiOperands rm1 rm2 ta ra tm = .ok ())
    (data : ∀ v ∈ [rm1, rm2, ta, ra, tm], FpDestination (regMulti v f)) :
    s.fpMulti code rm1 rm2 ta ra tm f op = done s
      (s.multiResult code rm1 rm2 ta ra tm f
        ((sizeOf1 (~~~f)).fmt.mul s.fpEnv (s.fpRead (regMulti rm1 f)) (s.fpRead (regMulti rm2 f)))
        (op (sizeOf1 (~~~f)).fmt s.fpEnv (s.fpRead (regMulti ta f)) (s.fpRead (regMulti ra f)))) false := by
  have sources : ([regMulti rm1 f, regMulti rm2 f, regMulti ra f].forM FpReg.source : Res Unit) = .ok () := by
    apply sources_ok
    · simpa using ⟨fpSource_of_destination (data rm1 (by simp)), fpSource_of_destination (data rm2 (by simp)),
        fpSource_of_destination (data ra (by simp))⟩
    · simp [regMulti_size]
  have add : (regMulti ta f).destination = .ok () := fpDestination_ok (data ta (by simp)) (regMulti_size ta f)
  have mul : (regMulti tm f).destination = .ok () := fpDestination_ok (data tm (by simp)) (regMulti_size tm f)
  rw [State.fpMulti, fpGate_ready ready, operands, sources, add, mul]
  unfold State.multiResult
  dsimp only
  generalize (sizeOf1 (~~~f)).fmt.mul s.fpEnv (s.fpRead (regMulti rm1 f)) (s.fpRead (regMulti rm2 f)) = a
  generalize op (sizeOf1 (~~~f)).fmt s.fpEnv (s.fpRead (regMulti ta f)) (s.fpRead (regMulti ra f)) = b
  cases a <;> cases b <;> rfl

theorem completes_fpMulti (hp : Plain s) (ready : FpReady s) (operands : multiOperands rm1 rm2 ta ra tm = .ok ())
    (data : ∀ v ∈ [rm1, rm2, ta, ra, tm], FpDestination (regMulti v f)) (hx : exec i s = complete s (s.fpMulti code rm1 rm2 ta ra tm f op))
    {a b : Delivery} (ha : (sizeOf1 (~~~f)).fmt.mul s.fpEnv (s.fpRead (regMulti rm1 f)) (s.fpRead (regMulti rm2 f)) = a)
    (hb : op (sizeOf1 (~~~f)).fmt s.fpEnv (s.fpRead (regMulti ta f)) (s.fpRead (regMulti ra f)) = b) :
    Completes i s (s.multiResult code rm1 rm2 ta ra tm f a b) false := by
  rw [fpMulti_eq ready operands data, ha, hb] at hx
  obtain ⟨h1, h2, h3, h4⟩ := back_multiResult (code := code) (rm1 := rm1) (rm2 := rm2) (ta := ta) (ra := ra) (tm := tm) (f := f) s a b
  exact completes_of_done hp hx h1 h2 h3 h4

theorem refused_of_multiOperands (ready : FpReady s) (operands : multiOperands rm1 rm2 ta ra tm = .error (.refuse .fpMultiOperands))
    (hx : exec i s = complete s (s.fpMulti code rm1 rm2 ta ra tm f op)) : exec i s = .refused .fpMultiOperands := by
  rw [hx, State.fpMulti, fpGate_ready ready, operands]
  rfl

/-- A doubleword destination is a data register or refused. -/
theorem regMulti_destination_cases (v : BitVec 5) :
    (4 ≤ v.toNat ∧ (regMulti v 0#1).destination = .ok ()) ∨ (regMulti v 0#1).destination = .error (.refuse .fpRegister) := by
  by_cases h : 4 ≤ v.toNat
  · exact .inl ⟨h, fpDestination_ok ⟨h, .inr rfl⟩ (regMulti_size v 0#1)⟩
  · exact .inr (if_pos (Nat.lt_of_not_le h))

/-- A doubleword operation that names an exception register. -/
theorem refused_of_exceptionRegister (ready : FpReady s) (operands : multiOperands rm1 rm2 ta ra tm = .ok ())
    (named : ∃ v ∈ [rm1, rm2, ta, ra, tm], v.toNat < 4) (nonzero : ∀ v ∈ [rm1, rm2, ta, ra, tm], v ≠ 0#5)
    (hx : exec i s = complete s (s.fpMulti code rm1 rm2 ta ra tm 0#1 op)) : exec i s = .refused .fpRegister := by
  rw [hx, State.fpMulti, fpGate_ready ready, operands]
  obtain ⟨sources, data, -⟩ | ⟨sources, -⟩ | ⟨-, x, mem, -, extension⟩ :=
    sources_cases [regMulti rm1 0#1, regMulti rm2 0#1, regMulti ra 0#1] (by simp [regMulti_size])
  case inl =>
    rw [sources]
    obtain ⟨hta, add⟩ | add := regMulti_destination_cases ta
    · obtain ⟨htm, mul⟩ | mul := regMulti_destination_cases tm
      · obtain ⟨v, mem, low⟩ := named
        have source (hv : v ∈ [rm1, rm2, ra]) : 4 ≤ v.toNat := by
          by_contra small
          exact data ⟨regMulti v 0#1, List.mem_map_of_mem (f := (regMulti · 0#1)) hv, nonzero v mem, low⟩
        have high : 4 ≤ v.toNat := by
          simp only [List.mem_cons, List.not_mem_nil, or_false] at mem source
          obtain rfl | rfl | rfl | rfl | rfl := mem
          · exact source (.inl rfl)
          · exact source (.inr (.inl rfl))
          · exact hta
          · exact source (.inr (.inr rfl))
          · exact htm
        omega
      · rw [add, mul]
        rfl
    · rw [add]
      rfl
  case inr.inl =>
    rw [sources]
    rfl
  case inr.inr =>
    have double : x.h = 0#1 := by
      simp only [List.mem_cons, List.not_mem_nil, or_false] at mem
      obtain rfl | rfl | rfl := mem <;> rfl
    exact absurd (double.symm.trans extension) (by decide)

end

/-- Settles O55: one delivery for each operation with a destination, and the two results of FMPYADD and FMPYSUB. -/
theorem fpOperations : Obligations.FpOperations := by
  refine ⟨?single, ?multi, ?overlap, ?exception⟩
  case single =>
    intro s r r1 r2 t fmt f rx tx x1 x2 hi lo hp ready
    have completes {i : Instr} {code : BitVec 6} {d : FpReg} {srcs : List FpReg} {v : Delivery}
        (hx : exec i s = complete s (s.fpOperation code d srcs v)) : FpCompletes i s code d srcs v := fpCompletes_of_operation hp ready hx
    exact ⟨completes rfl, completes rfl, completes rfl, completes rfl, completes rfl, completes rfl, completes rfl, completes rfl,
      completes rfl, completes rfl, completes rfl, completes rfl, completes rfl, completes rfl, completes rfl, completes rfl, completes rfl,
      completes rfl, completes rfl, completes rfl, completes rfl, completes rfl, completes rfl⟩
  case multi =>
    rintro s rm1 rm2 ta ra tm f g z hp ready hg hz h1 h2 h3 h4 h5
    have hg : g = fun v => regMulti v f := hg
    have hz : z = sizeOf1 (~~~f) := by
      rw [hz]
      exact (by decide : ∀ f : BitVec 1, (if f = 1#1 then FpSize.single else FpSize.double) = sizeOf1 (~~~f)) f
    subst hg hz
    have operands := multiOperands_ok h1 h2 h3 h4 fun v hv => specifier_ne_zero (h5 v hv)
    have data : ∀ v ∈ [rm1, rm2, ta, ra, tm], FpDestination (regMulti v f) := fun v hv => regMulti_destination (h5 v hv)
    constructor
    · intro a b ha hb
      have completes := completes_fpMulti (i := .fmpyadd rm1 rm2 ta ra f tm) hp ready operands data rfl ha hb
      refine ⟨fun m u n v ha hb => ?_, fun software => ?_⟩
      · rwa [multiResult_values ha hb] at completes
      · rwa [multiResult_software software] at completes
    · intro a b ha hb
      have completes := completes_fpMulti (i := .fmpysub rm1 rm2 ta ra f tm) hp ready operands data rfl ha hb
      refine ⟨fun m u n v ha hb => ?_, fun software => ?_⟩
      · rwa [multiResult_values ha hb] at completes
      · rwa [multiResult_software software] at completes
  case overlap =>
    intro s rm1 rm2 ta ra tm f ready overlap
    have operands := multiOperands_refused overlap
    exact ⟨refused_of_multiOperands ready operands rfl, refused_of_multiOperands ready operands rfl⟩
  case exception =>
    intro s rm1 rm2 ta ra tm ready h1 h2 h3 h4 h5 named
    have operands := multiOperands_ok h1 h2 h3 h4 h5
    exact ⟨refused_of_exceptionRegister ready operands named h5 rfl, refused_of_exceptionRegister ready operands named h5 rfl⟩

end Sys2Proof.Machine
end

section
/-! SUPPORT. The halves of a floating-point register, what writing a destination and preserving the sources leave in the registers, and the Status
Register's fields after a delivery, for O58. -/

namespace Sys2Proof.Machine

/-! ### Halves (49_floating_point.md R805) -/

section
variable {h k : BitVec 1} {v w : Dword} {x : BitVec 32}

theorem withHalf_left : withHalf 0#1 v x = x ++ v.extractLsb' 0 32 := rfl

theorem withHalf_right : withHalf 1#1 v x = v.extractLsb' 32 32 ++ x := rfl

theorem half_left : half 0#1 v = v.extractLsb' 32 32 := rfl

theorem half_right : half 1#1 v = v.extractLsb' 0 32 := rfl

theorem eq_zero_or_one (h : BitVec 1) : h = 0#1 ∨ h = 1#1 := by
  revert h
  decide

theorem extractLsb'_append_high (a b : BitVec 32) : (a ++ b : Dword).extractLsb' 32 32 = a :=
  BitVec.extractLsb'_append_eq_left

theorem extractLsb'_append_low (a b : BitVec 32) : (a ++ b : Dword).extractLsb' 0 32 = b :=
  BitVec.extractLsb'_append_eq_right

theorem half_withHalf_same : half h (withHalf h v x) = x := by
  obtain rfl | rfl := eq_zero_or_one h
  · rw [withHalf_left, half_left, extractLsb'_append_high]
  · rw [withHalf_right, half_right, extractLsb'_append_low]

theorem half_withHalf_other (other : k ≠ h) : half k (withHalf h v x) = half k v := by
  obtain rfl | rfl := eq_zero_or_one h
  · obtain rfl := (eq_zero_or_one k).resolve_left other
    rw [withHalf_left, half_right, half_right, extractLsb'_append_low]
  · obtain rfl := (eq_zero_or_one k).resolve_right other
    rw [withHalf_right, half_left, half_left, extractLsb'_append_high]

theorem eq_of_halves (equal : ∀ h, half h v = half h w) : v = w := by
  have split (u : Dword) : u = half 0#1 u ++ half 1#1 u := by
    have join : u.extractLsb' 0 (32 + 32) = u.extractLsb' 32 32 ++ u.extractLsb' 0 32 :=
      (BitVec.extractLsb'_append_extractLsb'_eq_extractLsb' rfl).symm
    exact BitVec.extractLsb'_eq_self.symm.trans join
  rw [split v, split w, equal, equal]

end

/-! ### A destination and a source that are no quad -/

/-- The register of the operand `r`, holding `old`, with the bits `v` written to the operand. -/
def FpReg.written (r : FpReg) (old : Dword) (v : Nat) : Dword :=
  if r.size = .single then withHalf r.h old (BitVec.ofNat 32 v) else BitVec.ofNat 64 v

section
variable {s t u : State} {r : FpReg}

theorem fpWrite_eq_writeFpr (hq : r.size ≠ .quad) (v : Nat) : s.fpWrite r v = s.writeFpr r.n (r.written (s.readFpr r.n) v) := by
  unfold State.fpWrite FpReg.written
  cases size : r.size with
  | single => rfl
  | double => rfl
  | quad => exact absurd size hq

theorem fpRead_single (nonzero : r.n ≠ 0#5) (single : r.size = .single) : s.fpRead r = (half r.h (s.readFpr r.n)).toNat := by
  rw [State.fpRead, if_neg nonzero, single]

theorem fpRead_double (nonzero : r.n ≠ 0#5) (double : r.size = .double) : s.fpRead r = (s.readFpr r.n).toNat := by
  rw [State.fpRead, if_neg nonzero, double]

/-- A source's own bits, written to its register. -/
theorem written_fpRead_single (nonzero : r.n ≠ 0#5) (single : r.size = .single) (old : Dword) :
    r.written old (s.fpRead r) = withHalf r.h old (half r.h (s.readFpr r.n)) := by
  rw [FpReg.written, if_pos single, fpRead_single nonzero single, BitVec.ofNat_toNat, BitVec.setWidth_eq]

theorem written_fpRead_double (nonzero : r.n ≠ 0#5) (double : r.size = .double) (old : Dword) :
    r.written old (s.fpRead r) = s.readFpr r.n := by
  rw [FpReg.written, double, if_neg (by simp), fpRead_double nonzero double, BitVec.ofNat_toNat, BitVec.setWidth_eq]

/-- Each half of each register of `u` is what it is in `s` or what it is in `t`. -/
def MixOf (s t u : State) : Prop := ∀ q h, half h (u.readFpr q) = half h (t.readFpr q) ∨ half h (u.readFpr q) = half h (s.readFpr q)

theorem MixOf.refl (s t : State) : MixOf s t t := fun _ _ => .inl rfl

theorem MixOf.trans {w : State} (first : MixOf s t u) (second : MixOf s u w) : MixOf s t w := fun q h =>
  (second q h).elim (fun same => (first q h).imp same.trans same.trans) .inr

/-- Where `t` agrees with `s`, so does `u`. -/
theorem MixOf.agree (mix : MixOf s t u) {q : BitVec 5} {h : BitVec 1} (agree : half h (t.readFpr q) = half h (s.readFpr q)) :
    half h (u.readFpr q) = half h (s.readFpr q) := (mix q h).elim (·.trans agree) id

/-- Writing a source's bits back (51_fp_exceptions.md R943) gives its register's halves of `s` and no other change. -/
theorem mixOf_fpKeep (hq : r.size ≠ .quad) : MixOf s t (t.fpKeep s r) := by
  unfold State.fpKeep
  split
  · exact MixOf.refl s t
  next nonzero =>
    intro q h
    rw [fpWrite_eq_writeFpr hq, State.readFpr_writeFpr]
    split
    next same =>
      subst same
      cases size : r.size with
      | single =>
        rw [written_fpRead_single nonzero size]
        by_cases other : h = r.h
        · exact .inr (other ▸ half_withHalf_same)
        · exact .inl (half_withHalf_other other)
      | double => exact .inr (congrArg (half h) (written_fpRead_double nonzero size _))
      | quad => exact absurd size hq
    next => exact .inl rfl

/-- After it the source reads as in `s`. -/
theorem fpRead_fpKeep (hq : r.size ≠ .quad) : (t.fpKeep s r).fpRead r = s.fpRead r := by
  by_cases nonzero : r.n = 0#5
  · rw [State.fpRead, State.fpRead, if_pos nonzero, if_pos nonzero]
  · rw [State.fpKeep, if_neg nonzero, fpWrite_eq_writeFpr hq]
    cases size : r.size with
    | single =>
      rw [fpRead_single nonzero size, State.readFpr_writeFpr, if_pos rfl, written_fpRead_single nonzero size, half_withHalf_same,
        fpRead_single nonzero size]
    | double =>
      rw [fpRead_double nonzero size, State.readFpr_writeFpr, if_pos rfl, written_fpRead_double nonzero size, fpRead_double nonzero size]
    | quad => exact absurd size hq

/-- A source that reads in `t` as in `s` does so in any mix of the two. -/
theorem MixOf.fpRead (mix : MixOf s t u) (hq : r.size ≠ .quad) (read : t.fpRead r = s.fpRead r) : u.fpRead r = s.fpRead r := by
  by_cases nonzero : r.n = 0#5
  · rw [State.fpRead, State.fpRead, if_pos nonzero, if_pos nonzero]
  · cases size : r.size with
    | single =>
      rw [fpRead_single nonzero size, fpRead_single nonzero size] at read ⊢
      rw [mix.agree (BitVec.eq_of_toNat_eq read)]
    | double =>
      rw [fpRead_double nonzero size, fpRead_double nonzero size] at read ⊢
      have same : t.readFpr r.n = s.readFpr r.n := BitVec.eq_of_toNat_eq read
      rw [eq_of_halves fun h => mix.agree (congrArg (half h) same)]
    | quad => exact absurd size hq

/-- The sources written back, one after the other. -/
theorem mixOf_foldl_fpKeep (srcs : List FpReg) (hq : ∀ r ∈ srcs, r.size ≠ .quad) (t : State) :
    MixOf s t (srcs.foldl (fun t r => t.fpKeep s r) t) := by
  induction srcs generalizing t with
  | nil => exact MixOf.refl s t
  | cons r srcs ih => exact (mixOf_fpKeep (hq r List.mem_cons_self)).trans (ih (fun x hx => hq x (List.mem_cons_of_mem r hx)) _)

theorem fpRead_foldl_fpKeep (srcs : List FpReg) (hq : ∀ r ∈ srcs, r.size ≠ .quad) (t : State) :
    ∀ r ∈ srcs, (srcs.foldl (fun t r => t.fpKeep s r) t).fpRead r = s.fpRead r := by
  induction srcs generalizing t with
  | nil => simp
  | cons x srcs ih =>
    have later : ∀ r ∈ srcs, r.size ≠ .quad := fun r hr => hq r (List.mem_cons_of_mem x hr)
    intro r hr
    obtain rfl | hr := List.mem_cons.1 hr
    · exact (mixOf_foldl_fpKeep srcs later _).fpRead (hq r List.mem_cons_self) (fpRead_fpKeep (hq r List.mem_cons_self))
    · exact ih later _ r hr

end

/-! ### The destination that is lost (51_fp_exceptions.md R943) -/

section
variable {s : State} {d : FpReg} {srcs : List FpReg}

/-- Nothing but the destination's register changes. -/
theorem readFpr_fpLose (hd : FpDestination d) (dq : d.size ≠ .quad) (hq : ∀ r ∈ srcs, r.size ≠ .quad) {q : BitVec 5} (other : q ≠ d.n) :
    (s.fpLose d srcs).readFpr q = s.readFpr q := by
  unfold State.fpLose
  rw [fpDestination_ok hd dq]
  refine eq_of_halves fun h => (mixOf_foldl_fpKeep srcs hq _).agree ?_
  rw [fpWrite_eq_writeFpr dq]
  exact congrArg (half h) ((State.readFpr_writeFpr s d.n q _).trans (if_neg other))

theorem fpRead_fpLose (hd : FpDestination d) (dq : d.size ≠ .quad) (hq : ∀ r ∈ srcs, r.size ≠ .quad) :
    ∀ r ∈ srcs, (s.fpLose d srcs).fpRead r = s.fpRead r := by
  unfold State.fpLose
  rw [fpDestination_ok hd dq]
  exact fpRead_foldl_fpKeep srcs hq _

theorem fpLose_frame (hd : FpDestination d) (dq : d.size ≠ .quad) :
    s.fpLose d srcs = { s with fpr := (s.fpLose d srcs).fpr, freeCount := s.freeCount + 2 } := by
  unfold State.fpLose
  rw [fpDestination_ok hd dq]
  dsimp only
  rw [foldl_fpKeep_eq, fpWrite_eq]
  rfl

end

/-! ### The Status Register (49_floating_point.md R824; 51_fp_exceptions.md R933) -/

section
variable {s : State}

/-- The flags are the five leftmost bits. -/
theorem or_flags_eq (v : Dword) (x : BitVec 5) :
    v ||| ((x.zeroExtend 64) <<< 59) = (v.extractLsb' 59 5 ||| x) ++ v.extractLsb' 0 59 := by
  have join : v.extractLsb' 0 (5 + 59) = v.extractLsb' 59 5 ++ v.extractLsb' 0 59 :=
    (BitVec.extractLsb'_append_extractLsb'_eq_extractLsb' rfl).symm
  have split : v = v.extractLsb' 59 5 ++ v.extractLsb' 0 59 := BitVec.extractLsb'_eq_self.symm.trans join
  have flags : ((x.zeroExtend 64) <<< 59 : Dword) = x ++ 0#59 := by
    have := x.isLt
    apply BitVec.eq_of_toNat_eq
    rw [toNat_append_eq_add]
    simp [Nat.shiftLeft_eq]
    omega
  conv_lhs => rw [split, flags, BitVec.or_append, BitVec.or_zero]

/-- The left word of the Status Register whose flags are `a`. -/
theorem leftWord_flags (a : BitVec 5) (v : Dword) : (a ++ v.extractLsb' 0 59 : Dword).extractLsb' 32 32 = a ++ v.extractLsb' 32 27 := by
  apply BitVec.eq_of_getLsbD_eq
  intro i hi
  simp only [BitVec.getLsbD_extractLsb', BitVec.getLsbD_append]
  by_cases low : i < 27
  · simp [low, hi, show 32 + i < 59 by omega]
  · simp [low, hi, show ¬32 + i < 59 by omega, show 32 + i - 59 = i - 27 by omega]

theorem readFpr_fpFlags (x : BitVec 5) (q : BitVec 5) :
    (s.fpFlags x).readFpr q =
      if q = 0#5 then ((s.readFpr 0#5).extractLsb' 59 5 ||| x) ++ (s.readFpr 0#5).extractLsb' 0 59 else s.readFpr q := by
  rw [State.fpFlags, State.readFpr_writeFpr, or_flags_eq]

theorem readFpr_fpTrapped (c : BitVec 6) (q : BitVec 5) :
    (s.fpTrapped c).readFpr q =
      if q = 0#5 then withBit ((s.readFpr 0#5).extractLsb' 32 32 ++ (c ++ s.iword.extractLsb' 0 26)) 25 true else s.readFpr q := by
  rw [State.fpTrapped, State.readFpr_writeFpr]
  rfl

/-- A trapping exception sets no flag of its own (D28). -/
theorem codeFlags_eq_zero (c : BitVec 6) : codeFlags c = 0#5 := by
  unfold codeFlags
  exact if_neg (by decide)

/-- The word that an exception register takes, joined to the left word of register 0. -/
theorem append_code (a : BitVec 32) (b : BitVec 6) (c : BitVec 26) : (a ++ (b ++ c) : Dword) = a ++ b ++ c := by
  apply BitVec.eq_of_toNat_eq
  rw [toNat_append_eq_add, toNat_append_eq_add, toNat_append_eq_add, toNat_append_eq_add]
  omega

/-- The flags, then the exception. -/
theorem readFpr_zero_trapped (x : BitVec 5) (c : BitVec 6) :
    ((s.fpFlags (x ||| codeFlags c)).fpTrapped c).readFpr 0#5 =
      withBit (((s.readFpr 0#5).extractLsb' 59 5 ||| x) ++ (s.readFpr 0#5).extractLsb' 32 27 ++ c ++ s.iword.extractLsb' 0 26) 25 true := by
  rw [readFpr_fpTrapped, if_pos rfl, readFpr_fpFlags, if_pos rfl, codeFlags_eq_zero, BitVec.or_zero, leftWord_flags, append_code]
  rfl

/-- Neither touches another register. -/
theorem readFpr_trapped_of_ne {x : BitVec 5} {c : BitVec 6} {q : BitVec 5} (hq : q ≠ 0#5) :
    ((s.fpFlags x).fpTrapped c).readFpr q = s.readFpr q := by
  rw [readFpr_fpTrapped, if_neg hq, readFpr_fpFlags, if_neg hq]

/-- Register 0 is read as zero by every source (R806). -/
theorem fpRead_of_registers {t : State} {r : FpReg} (hq : r.size ≠ .quad) (same : ∀ q, q ≠ 0#5 → t.readFpr q = s.readFpr q) :
    t.fpRead r = s.fpRead r := by
  by_cases zero : r.n = 0#5
  · rw [State.fpRead, State.fpRead, if_pos zero, if_pos zero]
  · exact (MixOf.refl s t).fpRead hq (by
      cases size : r.size with
      | single => rw [fpRead_single zero size, fpRead_single zero size, same _ zero]
      | double => rw [fpRead_double zero size, fpRead_double zero size, same _ zero]
      | quad => exact absurd size hq)

end

/-- Nothing but the floating-point registers and the count of free values changes, and then nothing but the registers. -/
theorem frame_trans {s t u : State} {n : Nat} (ht : t = { s with fpr := t.fpr, freeCount := n }) (hu : u = { t with fpr := u.fpr }) :
    u = { s with fpr := u.fpr, freeCount := n } := by
  refine hu.trans ?_
  generalize u.fpr = registers
  rw [ht]

/-- Settles O58: by the destination's write or loss, then the Status Register. -/
theorem fpDelivered : Obligations.FpDelivered := by
  intro s code c d srcs bits x hd dq sources
  have hq : ∀ r ∈ srcs, r.size ≠ .quad := fun r hr => (sources r hr).2
  have nonzero : d.n ≠ 0#5 := by
    intro zero
    have := hd.1
    rw [zero] at this
    exact absurd this (by decide)
  have destination (old : Dword) : (if d.size = .single then
      (if d.h = 0#1 then BitVec.ofNat 32 bits ++ old.extractLsb' 0 32 else old.extractLsb' 32 32 ++ BitVec.ofNat 32 bits)
      else BitVec.ofNat 64 bits) = d.written old bits := rfl
  have wrote (q : BitVec 5) : (s.fpWrite d bits).readFpr q = if q = d.n then d.written (s.readFpr d.n) bits else s.readFpr q := by
    rw [fpWrite_eq_writeFpr dq, State.readFpr_writeFpr]
  have wroteZero : (s.fpWrite d bits).readFpr 0#5 = s.readFpr 0#5 := (wrote 0#5).trans (if_neg nonzero.symm)
  refine ⟨?value, ?trapped, ?lost, ?unimplemented⟩
  case value =>
    rintro u _ _ rfl rfl rfl
    rw [destination]
    refine ⟨?_, ?_, fun q hq0 hqd => ?_, ?_⟩
    · exact (readFpr_fpFlags x 0#5).trans (by rw [if_pos rfl, wroteZero])
    · exact (readFpr_fpFlags x d.n).trans (by rw [if_neg nonzero, wrote, if_pos rfl])
    · exact (readFpr_fpFlags x q).trans (by rw [if_neg hq0, wrote, if_neg hqd])
    · exact frame_trans (fpWrite_eq s d bits) rfl
  case trapped =>
    rintro u _ _ rfl rfl rfl
    rw [destination]
    refine ⟨?_, ?_, fun q hq0 hqd => ?_, ?_⟩
    · refine (readFpr_zero_trapped (s := s.fpWrite d bits) x c).trans ?_
      rw [wroteZero, fpWrite_eq]
    · exact (readFpr_trapped_of_ne nonzero).trans ((wrote d.n).trans (if_pos rfl))
    · exact (readFpr_trapped_of_ne hq0).trans ((wrote q).trans (if_neg hqd))
    · exact frame_trans (frame_trans (fpWrite_eq s d bits) rfl) rfl
  case lost =>
    rintro u rfl
    have kept : ∀ q, q ≠ 0#5 → (s.fpDeliver code d srcs (.trapped c none x)).readFpr q = (s.fpLose d srcs).readFpr q :=
      fun q hq0 => readFpr_trapped_of_ne hq0
    refine ⟨?_, fun q hq0 hqd => (kept q hq0).trans (readFpr_fpLose hd dq hq hqd), fun r hr => ?_, ?_⟩
    · refine (readFpr_zero_trapped (s := s.fpLose d srcs) x c).trans ?_
      rw [readFpr_fpLose hd dq hq nonzero.symm, fpLose_eq]
    · exact (fpRead_of_registers (hq r hr) kept).trans (fpRead_fpLose hd dq hq r hr)
    · exact frame_trans (frame_trans (fpLose_frame hd dq) rfl) rfl
  case unimplemented =>
    rintro u rfl
    have kept : ∀ q, q ≠ 0#5 → (s.fpDeliver code d srcs .unimplemented).readFpr q = (s.fpLose d srcs).readFpr q :=
      fun q hq0 => (readFpr_fpTrapped code q).trans (if_neg hq0)
    refine ⟨?_, fun q hq0 hqd => (kept q hq0).trans (readFpr_fpLose hd dq hq hqd), fun r hr => ?_, ?_⟩
    · refine (readFpr_fpTrapped (s := s.fpLose d srcs) code 0#5).trans ?_
      rw [if_pos rfl, readFpr_fpLose hd dq hq nonzero.symm, fpLose_eq]
      rw [append_code]
    · exact (fpRead_of_registers (hq r hr) kept).trans (fpRead_fpLose hd dq hq r hr)
    · exact frame_trans (fpLose_frame hd dq) rfl

end Sys2Proof.Machine
end

section
/-! SUPPORT. Rounding a real magnitude to an integer in a direction, and the model's rounding as one, for O56 and O59. -/

namespace Sys2Proof.Machine

/-! ### Directions (49_floating_point.md R851) -/

/-- What a rounding mode does to a magnitude of a given sign. -/
inductive Direction where
  | nearest
  | down
  | up
deriving DecidableEq

/-- The direction of the mode `rm` for the sign `neg`. -/
def direction (rm : BitVec 2) (neg : Bool) : Direction :=
  match rm.toNat with
  | 0 => .nearest
  | 1 => .down
  | 2 => if neg then .down else .up
  | _ => if neg then .up else .down

/-- `k` is the real magnitude `y` rounded to an integer. -/
def RoundsTo (dir : Direction) (y : ℝ) (k : Nat) : Prop :=
  match dir with
  | .nearest => |(k : ℝ) - y| ≤ 1 / 2 ∧ (|(k : ℝ) - y| = 1 / 2 → k % 2 = 0)
  | .down => (k : ℝ) ≤ y ∧ y < k + 1
  | .up => (k : ℝ) - 1 < y ∧ y ≤ k

section
variable {dir : Direction} {y z : ℝ} {k : Nat}

/-- An integer rounds to itself. -/
theorem roundsTo_self (dir : Direction) (k : Nat) : RoundsTo dir k k := by
  cases dir with
  | nearest => exact ⟨by simp, by norm_num⟩
  | down => exact ⟨le_rfl, lt_add_one _⟩
  | up => exact ⟨sub_one_lt _, le_rfl⟩

/-- Nothing lies between a magnitude and its rounding but less than a unit. -/
theorem RoundsTo.bounds (h : RoundsTo dir y k) : (k : ℝ) - 1 < y ∧ y < k + 1 := by
  cases dir with
  | nearest =>
    obtain ⟨low, high⟩ := abs_le.1 h.1
    constructor <;> linarith
  | down => exact ⟨by linarith [h.1], h.2⟩
  | up => exact ⟨h.1, by linarith [h.2]⟩

/-- An integer below the magnitude is below the rounding. -/
theorem RoundsTo.le_of_le (h : RoundsTo dir y k) {a : Nat} (ha : (a : ℝ) ≤ y) : a ≤ k := by
  have : (a : ℝ) < k + 1 := ha.trans_lt h.bounds.2
  exact Nat.lt_succ_iff.1 (by exact_mod_cast this)

/-- An integer above the magnitude is above the rounding. -/
theorem RoundsTo.le_of_ge (h : RoundsTo dir y k) {a : Nat} (ha : y ≤ a) : k ≤ a := by
  have : (k : ℝ) < a + 1 := by linarith [h.bounds.1]
  exact Nat.lt_succ_iff.1 (by exact_mod_cast this)

/-- A rounding that is even, seen at half the precision. -/
theorem RoundsTo.half (h : RoundsTo dir y (2 * k)) : RoundsTo dir (y / 2) k := by
  cases dir with
  | nearest =>
    obtain ⟨low, high⟩ := abs_le.1 h.1
    push_cast at low high
    have close : |(k : ℝ) - y / 2| < 1 / 2 := abs_lt.2 ⟨by linarith, by linarith⟩
    exact ⟨close.le, fun same => absurd same close.ne⟩
  | down =>
    obtain ⟨low, high⟩ := h
    push_cast at low high
    exact ⟨by linarith, by linarith⟩
  | up =>
    obtain ⟨low, high⟩ := h
    push_cast at low high
    exact ⟨by linarith, by linarith⟩

/-! ### Magnitudes that no halfway point tells apart -/

/-- `y` and `z` lie alike to every multiple of a half. -/
def SameHalves (y z : ℝ) : Prop := ∀ j : Int, (y < j / 2 ↔ z < j / 2) ∧ (y = j / 2 ↔ z = j / 2)

theorem SameHalves.refl (y : ℝ) : SameHalves y y := fun _ => ⟨Iff.rfl, Iff.rfl⟩

theorem SameHalves.symm (h : SameHalves y z) : SameHalves z y := fun j => ⟨(h j).1.symm, (h j).2.symm⟩

theorem SameHalves.le_iff (h : SameHalves y z) (j : Int) : y ≤ j / 2 ↔ z ≤ j / 2 := by
  rw [le_iff_lt_or_eq, le_iff_lt_or_eq, (h j).1, (h j).2]

theorem SameHalves.natCast_le_iff (h : SameHalves y z) (a : Nat) : (a : ℝ) ≤ y ↔ (a : ℝ) ≤ z := by
  have twice : (a : ℝ) = ((2 * a : Int) : ℝ) / 2 := by push_cast; ring
  rw [← not_lt, ← not_lt, twice, (h _).1]

theorem SameHalves.natCast_eq_iff (h : SameHalves y z) (a : Nat) : y = a ↔ z = a := by
  have twice : (a : ℝ) = ((2 * a : Int) : ℝ) / 2 := by push_cast; ring
  rw [twice, (h _).2]

/-- Halving keeps it, as a multiple of 1 is one of 1/2. -/
theorem SameHalves.half (h : SameHalves y z) : SameHalves (y / 2) (z / 2) := by
  intro j
  have twice : (j : ℝ) = ((2 * j : Int) : ℝ) / 2 := by push_cast; ring
  have lt_iff (x : ℝ) : x / 2 < j / 2 ↔ x < ((2 * j : Int) : ℝ) / 2 := by rw [← twice]; constructor <;> intro <;> linarith
  have eq_iff (x : ℝ) : x / 2 = j / 2 ↔ x = ((2 * j : Int) : ℝ) / 2 := by rw [← twice]; constructor <;> intro <;> linarith
  rw [lt_iff, lt_iff, eq_iff, eq_iff]
  exact h (2 * j)

theorem SameHalves.div_two_pow (h : SameHalves y z) (n : Nat) : SameHalves (y / 2 ^ n) (z / 2 ^ n) := by
  induction n with
  | zero => simpa using h
  | succ n ih =>
    rw [pow_succ, ← div_div, ← div_div]
    exact ih.half

/-- The same rounding. -/
theorem RoundsTo.congr (h : RoundsTo dir y k) (same : SameHalves y z) : RoundsTo dir z k := by
  have below : ((2 * k - 1 : Int) : ℝ) / 2 = k - 1 / 2 := by push_cast; ring
  have above : ((2 * k + 1 : Int) : ℝ) / 2 = k + 1 / 2 := by push_cast; ring
  have one : ((2 * k - 2 : Int) : ℝ) / 2 = k - 1 := by push_cast; ring
  have whole : ((2 * k : Int) : ℝ) / 2 = k := by push_cast; ring
  have next : ((2 * k + 2 : Int) : ℝ) / 2 = k + 1 := by push_cast; ring
  cases dir with
  | nearest =>
    obtain ⟨close, even⟩ := h
    have upper := same.le_iff (2 * k + 1)
    have lower := (same (2 * k - 1)).1
    have upperEq := (same (2 * k + 1)).2
    have lowerEq := (same (2 * k - 1)).2
    rw [below] at lower lowerEq
    rw [above] at upper upperEq
    rw [abs_le] at close
    refine ⟨abs_le.2 ⟨by linarith [upper.1 (by linarith)], ?_⟩, fun tie => even ?_⟩
    · have := mt lower.2 (by linarith)
      linarith
    · obtain tie | tie := (abs_eq (by norm_num)).1 tie
      · rw [lowerEq.2 (by linarith)]
        norm_num
      · rw [upperEq.2 (by linarith)]
        norm_num
  | down =>
    have low := (same (2 * k)).1
    have high := (same (2 * k + 2)).1
    rw [whole] at low
    rw [next] at high
    exact ⟨not_lt.1 (mt low.2 (not_lt.2 h.1)), high.1 h.2⟩
  | up =>
    have low := same.le_iff (2 * k - 2)
    have high := same.le_iff (2 * k)
    rw [one] at low
    rw [whole] at high
    exact ⟨not_le.1 (mt low.2 (not_le.2 h.1)), high.1 h.2⟩

/-- A magnitude cut to an integer, with a half added for what was cut off. -/
theorem sameHalves_sticky {t : ℝ} {n : Nat} (low : n ≤ t) (high : t < n + 1) :
    SameHalves (t / 2) (((2 * n + (if t = n then 0 else 1) : Nat) : ℝ) / 4) := by
  have quarter (c : Nat) : ((2 * n + c : Nat) : ℝ) / 4 = (n + c / 2) / 2 := by push_cast; ring
  rw [quarter]
  have integers (z : ℝ) (j : Int) : (z / 2 < j / 2 ↔ z < j) ∧ (z / 2 = j / 2 ↔ z = j) := by
    constructor <;> constructor <;> intro <;> linarith
  intro j
  rw [(integers t j).1, (integers t j).2, (integers _ j).1, (integers _ j).2]
  split
  next exact => simp [exact]
  next inexact =>
    have above : (n : ℝ) < t := lt_of_le_of_ne low fun same => inexact same.symm
    by_cases hj : j ≤ n
    · have hj : (j : ℝ) ≤ n := by exact_mod_cast hj
      constructor <;> constructor <;> intro h <;> push_cast at h ⊢ <;> linarith
    · have hj : (n : ℝ) + 1 ≤ j := by exact_mod_cast Int.lt_of_not_ge hj
      constructor <;> constructor <;> intro h <;> push_cast at h ⊢ <;> linarith

end

/-! ### The model's rounding (R851) -/

section
variable {rm : BitVec 2} {neg : Bool} {m : Nat} {e q : Int}

/-- The remainder's part of a unit, against a half. -/
theorem fraction_lt_half {r n : Nat} (hn : 0 < n) : ((r : ℝ) / n < 1 / 2 ↔ 2 * r < n) ∧ ((r : ℝ) / n = 1 / 2 ↔ 2 * r = n) := by
  have positive : (0 : ℝ) < n := by exact_mod_cast hn
  constructor
  · rw [div_lt_div_iff₀ positive two_pos, one_mul, mul_comm]
    exact_mod_cast Iff.rfl
  · rw [div_eq_div_iff positive.ne' two_ne_zero, one_mul, mul_comm]
    exact_mod_cast Iff.rfl

theorem fraction_bounds {r n : Nat} (hr : r < n) : (0 : ℝ) ≤ (r : ℝ) / n ∧ (r : ℝ) / n < 1 :=
  ⟨by positivity, (div_lt_one (by exact_mod_cast Nat.zero_lt_of_lt hr)).2 (by exact_mod_cast hr)⟩

theorem roundsTo_nearest {d r n : Nat} (hr : r < n) :
    RoundsTo .nearest (d + (r : ℝ) / n) (d + (decide (n < 2 * r) || (2 * r == n && d % 2 == 1)).toNat) := by
  obtain ⟨below, tie⟩ := fraction_lt_half (r := r) (Nat.zero_lt_of_lt hr)
  obtain ⟨low, high⟩ := fraction_bounds hr
  generalize (r : ℝ) / n = x at *
  obtain less | equal | more := lt_trichotomy (2 * r) n
  · have small := below.2 less
    rw [decide_eq_false less.not_gt, beq_eq_false_iff_ne.2 less.ne]
    have close : |((d + 0 : Nat) : ℝ) - (d + x)| < 1 / 2 := by
      push_cast
      exact abs_lt.2 ⟨by linarith, by linarith⟩
    exact ⟨close.le, fun same => absurd same close.ne⟩
  · have half := tie.2 equal
    rw [decide_eq_false equal.not_gt, beq_iff_eq.2 equal, half]
    cases odd : d % 2 == 1
    · refine ⟨le_of_eq ?_, fun _ => ?_⟩
      · change |((d + 0 : Nat) : ℝ) - (d + 1 / 2)| = 1 / 2
        rw [show ((d + 0 : Nat) : ℝ) - (d + 1 / 2) = -(1 / 2) by push_cast; ring, abs_neg]
        norm_num
      · simpa using odd
    · refine ⟨le_of_eq ?_, fun _ => ?_⟩
      · change |((d + 1 : Nat) : ℝ) - (d + 1 / 2)| = 1 / 2
        rw [show ((d + 1 : Nat) : ℝ) - (d + 1 / 2) = 1 / 2 by push_cast; ring]
        norm_num
      · have odd : d % 2 = 1 := by simpa using odd
        change (d + 1) % 2 = 0
        omega
  · have large : 1 / 2 < x := lt_of_not_ge fun small => by
      obtain less | equal := small.lt_or_eq
      · exact more.not_gt (below.1 less)
      · exact more.ne' (tie.1 equal)
    rw [decide_eq_true more]
    have close : |((d + 1 : Nat) : ℝ) - (d + x)| < 1 / 2 := by
      push_cast
      exact abs_lt.2 ⟨by linarith, by linarith⟩
    exact ⟨close.le, fun same => absurd same close.ne⟩

theorem roundsTo_down {d r n : Nat} (hr : r < n) : RoundsTo .down (d + (r : ℝ) / n) d := by
  obtain ⟨low, high⟩ := fraction_bounds hr
  exact ⟨by linarith, by linarith⟩

theorem roundsTo_up {d r n : Nat} (hr : r < n) : RoundsTo .up (d + (r : ℝ) / n) (d + (r != 0).toNat) := by
  obtain ⟨low, high⟩ := fraction_bounds hr
  cases r with
  | zero => exact ⟨by simp, by simp⟩
  | succ r =>
    have positive : 0 < ((r + 1 : Nat) : ℝ) / n := div_pos (by positivity) (by exact_mod_cast Nat.zero_lt_of_lt hr)
    change (((d + 1 : Nat) : ℝ) - 1 < _ ∧ _ ≤ ((d + 1 : Nat) : ℝ))
    push_cast at positive high ⊢
    exact ⟨by linarith, by linarith⟩

/-- A quotient and what `roundsUp` adds to it. -/
theorem roundsTo_div (rm : BitVec 2) (neg : Bool) (m : Nat) {n : Nat} (hn : 0 < n) :
    RoundsTo (direction rm neg) ((m : ℝ) / n) (m / n + (roundsUp rm neg (m / n % 2 == 1) (m % n) n).toNat) := by
  have rest : m % n < n := Nat.mod_lt m hn
  have split : (m : ℝ) / n = (m / n : Nat) + ((m % n : Nat) : ℝ) / n := by
    have joined : (m : ℝ) = n * (m / n : Nat) + (m % n : Nat) := by exact_mod_cast (Nat.div_add_mod m n).symm
    have nonzero : (n : ℝ) ≠ 0 := by positivity
    field_simp
    linarith
  rw [split]
  have cases : rm = 0#2 ∨ rm = 1#2 ∨ rm = 2#2 ∨ rm = 3#2 := (by decide : ∀ rm : BitVec 2, rm = 0#2 ∨ rm = 1#2 ∨ rm = 2#2 ∨ rm = 3#2) rm
  obtain rfl | rfl | rfl | rfl := cases
  · exact roundsTo_nearest rest
  · exact roundsTo_down rest
  · cases neg with
    | false => simpa [roundsUp, direction] using roundsTo_up rest
    | true => simpa [roundsUp, direction] using roundsTo_down rest
  · cases neg with
    | false => simpa [roundsUp, direction] using roundsTo_down rest
    | true => simpa [roundsUp, direction] using roundsTo_up rest

/-- A power of two that is a natural number. -/
theorem pow2_cast (h : 0 ≤ q) : ((pow2 q : Nat) : ℝ) = 2 ^ q := by
  rw [pow2, Nat.cast_pow, Nat.cast_ofNat, ← zpow_natCast, Int.toNat_of_nonneg h]

theorem pow2_pos (q : Int) : 0 < pow2 q := Nat.two_pow_pos _

/-- A magnitude that is no finer than the unit is a multiple of it. -/
theorem coarse_div (m : Nat) (h : q ≤ e) : (m : ℝ) * 2 ^ e / 2 ^ q = ((m * pow2 (e - q) : Nat) : ℝ) := by
  rw [Nat.cast_mul, pow2_cast (by omega), zpow_sub₀ two_ne_zero, mul_div_assoc]

/-- A finer one is a quotient. -/
theorem fine_div (m : Nat) (h : e < q) : (m : ℝ) * 2 ^ e / 2 ^ q = (m : ℝ) / (pow2 (q - e) : Nat) := by
  rw [pow2_cast (by omega), zpow_sub₀ two_ne_zero, div_div_eq_mul_div]

/-- The multiplier of 2^q that m · 2^e rounds to. -/
theorem roundAt_roundsTo (rm : BitVec 2) (neg : Bool) (m : Nat) (e q : Int) :
    RoundsTo (direction rm neg) ((m : ℝ) * 2 ^ e / 2 ^ q) (roundAt rm neg m e q) := by
  unfold roundAt
  split
  next coarse =>
    rw [coarse_div m coarse]
    exact roundsTo_self _ _
  next fine =>
    rw [fine_div m (lt_of_not_ge fine)]
    exact roundsTo_div rm neg m (pow2_pos _)

/-- Only an integer is what it rounds to. -/
theorem roundsTo_eq_iff {dir : Direction} {y : ℝ} {k : Nat} (h : RoundsTo dir y k) : y = k ↔ ∃ n : Nat, y = n := by
  refine ⟨fun same => ⟨k, same⟩, ?_⟩
  rintro ⟨n, rfl⟩
  exact congrArg _ (le_antisymm (h.le_of_le le_rfl) (h.le_of_ge le_rfl))

/-- The model's test of exactness. -/
theorem exactAt_iff (m : Nat) (e q : Int) : exactAt m e q = true ↔ ∃ n : Nat, (m : ℝ) * 2 ^ e / 2 ^ q = n := by
  rw [exactAt, Bool.or_eq_true, decide_eq_true_eq, beq_iff_eq]
  by_cases coarse : q ≤ e
  · exact iff_of_true (.inl coarse) ⟨_, coarse_div m coarse⟩
  · have positive : ((pow2 (q - e) : Nat) : ℝ) ≠ 0 := by exact_mod_cast (pow2_pos (q - e)).ne'
    rw [fine_div m (lt_of_not_ge coarse), or_iff_right coarse, ← Nat.dvd_iff_mod_eq_zero]
    constructor
    · rintro ⟨n, hn⟩
      refine ⟨n, ?_⟩
      rw [hn, Nat.cast_mul, mul_div_cancel_left₀ _ positive]
    · rintro ⟨n, hn⟩
      rw [div_eq_iff positive] at hn
      exact ⟨n, by rw [mul_comm]; exact_mod_cast hn⟩

end

end Sys2Proof.Machine
end

section
/-! SUPPORT. A real number rounded to a signed integer, and the conversions, for O56. -/

namespace Sys2Proof.Machine

/-! ### Rounding to a signed integer (50_fp_instructions.md R891, R892) -/

/-- An integer of sign `neg`. -/
def signedNat (neg : Bool) (k : Nat) : Int := if neg then -k else k

/-- What the rounding mode `rm` allows of an integer for a real number. -/
def RoundsInt (rm : BitVec 2) (v : ℝ) (k : Int) : Prop :=
  (rm = 0#2 → abs (k - v) ≤ 1 / 2 ∧ (abs (k - v) = 1 / 2 → k % 2 = 0)) ∧
  (rm = 1#2 → abs (k : ℝ) ≤ abs v ∧ abs v < abs (k : ℝ) + 1 ∧ 0 ≤ k * v) ∧
  (rm = 2#2 → v ≤ k ∧ k < v + 1) ∧ (rm = 3#2 → k ≤ v ∧ v < k + 1)

section
variable {rm : BitVec 2} {k : Nat} {x : ℝ}

theorem roundsInt_nonneg (hx : 0 ≤ x) (h : RoundsTo (direction rm false) x k) : RoundsInt rm x k := by
  refine ⟨?_, ?_, ?_, ?_⟩
  · rintro rfl
    obtain ⟨close, even⟩ := h
    rw [Int.cast_natCast]
    exact ⟨close, fun tie => by exact_mod_cast even tie⟩
  · rintro rfl
    obtain ⟨low, high⟩ := h
    rw [Int.cast_natCast, abs_of_nonneg hx, Nat.abs_cast]
    exact ⟨low, high, by positivity⟩
  · rintro rfl
    obtain ⟨low, high⟩ := h
    rw [Int.cast_natCast]
    exact ⟨high, by linarith⟩
  · rintro rfl
    obtain ⟨low, high⟩ := h
    rw [Int.cast_natCast]
    exact ⟨low, high⟩

theorem roundsInt_neg (hx : 0 ≤ x) (h : RoundsTo (direction rm true) x k) : RoundsInt rm (-x) (-(k : Int)) := by
  have cast : ((-(k : Int) : Int) : ℝ) = -(k : ℝ) := by push_cast; rfl
  unfold RoundsInt
  rw [cast]
  refine ⟨?_, ?_, ?_, ?_⟩
  · rintro rfl
    obtain ⟨close, even⟩ := h
    rw [show -(k : ℝ) - -x = -(k - x) by ring, abs_neg]
    exact ⟨close, fun tie => by have := even tie; omega⟩
  · rintro rfl
    obtain ⟨low, high⟩ := h
    rw [abs_neg, abs_neg, abs_of_nonneg hx, Nat.abs_cast, neg_mul_neg]
    exact ⟨low, high, by positivity⟩
  · rintro rfl
    obtain ⟨low, high⟩ := h
    exact ⟨by linarith, by linarith⟩
  · rintro rfl
    obtain ⟨low, high⟩ := h
    exact ⟨by linarith, by linarith⟩

end

/-- The number that a finite value is. -/
noncomputable def finiteValue (neg : Bool) (m : Nat) (e : Int) : ℝ := (if neg then -1 else 1) * m * 2 ^ e

/-- The integer that the model rounds a finite value to. -/
theorem roundAt_roundsInt (rm : BitVec 2) (neg : Bool) (m : Nat) (e : Int) :
    RoundsInt rm (finiteValue neg m e) (signedNat neg (roundAt rm neg m e 0)) := by
  have nonneg : (0 : ℝ) ≤ m * 2 ^ e := by positivity
  have rounds := roundAt_roundsTo rm neg m e 0
  rw [zpow_zero, div_one] at rounds
  cases neg with
  | false =>
    rw [finiteValue, if_neg (by simp), one_mul]
    exact roundsInt_nonneg nonneg rounds
  | true =>
    rw [finiteValue, if_pos rfl, neg_one_mul, neg_mul]
    exact roundsInt_neg nonneg rounds

/-- It is exact when the value is an integer. -/
theorem exactAt_zero_iff (rm : BitVec 2) (neg : Bool) (m : Nat) (e : Int) :
    exactAt m e 0 = true ↔ (signedNat neg (roundAt rm neg m e 0) : ℝ) = finiteValue neg m e := by
  have rounds := roundAt_roundsTo rm neg m e 0
  rw [exactAt_iff, ← roundsTo_eq_iff rounds, zpow_zero, div_one]
  cases neg with
  | false =>
    rw [finiteValue, signedNat, if_neg (by simp), if_neg (by simp), one_mul, Int.cast_natCast, eq_comm]
  | true =>
    rw [finiteValue, signedNat, if_pos rfl, if_pos rfl, neg_one_mul, neg_mul, Int.cast_neg, Int.cast_natCast, neg_inj, eq_comm]

/-! ### The conversion to an integer (51_fp_exceptions.md R950, R951) -/

section
variable {f : Fmt} {env : FpEnv} {rm : BitVec 2} {signed : Bool} {n a : Nat} {lo hi : Int}

theorem convertToInteger_nan (h : f.value a = .nan) : convertToInteger f env rm signed n a = .unimplemented := by
  rw [convertToInteger, h]

theorem convertToInteger_inf {neg : Bool} (range : integerRange signed n = (lo, hi)) (h : f.value a = .inf neg) :
    convertToInteger f env rm signed n a = env.invalid (integerBits n (if neg then lo else hi)) := by
  rw [convertToInteger, h, range]

theorem convertToInteger_fin {neg : Bool} {m : Nat} {e k : Int} (range : integerRange signed n = (lo, hi)) (h : f.value a = .fin neg m e)
    (hk : k = signedNat neg (roundAt rm neg m e 0)) : convertToInteger f env rm signed n a =
      if k < lo then env.invalid (integerBits n lo)
      else if hi < k then env.invalid (integerBits n hi)
      else if exactAt m e 0 then .value (integerBits n k) 0#5
      else env.inexactly (integerBits n k) 0#5 := by
  rw [convertToInteger, h, range, hk]
  rfl

theorem invalid_trapped {bits : Nat} (h : env.traps fpV = true) : env.invalid bits = .trapped 0b100000#6 none 0#5 := by
  rw [FpEnv.invalid, if_pos h]

theorem invalid_value {bits : Nat} (h : env.traps fpV = false) : env.invalid bits = .value bits fpV := by
  rw [FpEnv.invalid, if_neg (by simp [h])]

theorem inexactly_trapped {bits : Nat} {x : BitVec 5} (h : env.traps fpI = true) : env.inexactly bits x = .trapped 0b000010#6 (some bits) x := by
  rw [FpEnv.inexactly, if_pos h]

theorem inexactly_value {bits : Nat} {x : BitVec 5} (h : env.traps fpI = false) : env.inexactly bits x = .value bits (x ||| fpI) := by
  rw [FpEnv.inexactly, if_neg (by simp [h])]

end

theorem integerRange_eq (signed : Bool) (n : Nat) :
    integerRange signed n = (if signed then -2 ^ (n - 1) else 0, if signed then 2 ^ (n - 1) - 1 else 2 ^ n - 1) := by
  cases signed <;> rfl

/-- Settles O56: one delivery for each form, and the model's rounding at the unit. -/
theorem fpConversions : Obligations.FpConversions := by
  constructor
  · intro s r t df sf rx tx df1 sf1 hp ready
    have completes {i : Instr} {code : BitVec 6} {d : FpReg} {srcs : List FpReg} {v : Delivery}
        (hx : exec i s = complete s (s.fpOperation code d srcs v)) : FpCompletes i s code d srcs v := fpCompletes_of_operation hp ready hx
    exact ⟨completes rfl, completes rfl, completes rfl, completes rfl, completes rfl, completes rfl, completes rfl, completes rfl,
      completes rfl, completes rfl, completes rfl, completes rfl, completes rfl, completes rfl⟩
  · intro z env rm signed n a v lo hi _ hlo hhi
    have range : integerRange signed n = (lo, hi) := by rw [integerRange_eq, hlo, hhi]
    refine ⟨convertToInteger_nan, fun neg infinite => ?_, fun finite => ?_⟩
    · rw [convertToInteger_inf range infinite]
      exact ⟨invalid_trapped, invalid_value⟩
    · obtain ⟨neg, m, e, value, rfl⟩ := finite
      obtain ⟨k, hk⟩ : ∃ k, k = signedNat neg (roundAt rm neg m e 0) := ⟨_, rfl⟩
      have result := convertToInteger_fin (env := env) range value hk
      have exact := hk ▸ exactAt_zero_iff rm neg m e
      obtain ⟨nearest, zero, up, down⟩ := hk ▸ roundAt_roundsInt rm neg m e
      refine ⟨k, nearest, zero, up, down, fun low high same => ?_, fun low high other trap => ?_, fun low high other trap => ?_, fun out trap => ?_,
        fun below trap => ?_, fun above trap => ?_⟩
      · rw [result, if_neg low.not_gt, if_neg high.not_gt, if_pos (exact.2 same)]
        rfl
      · rw [result, if_neg low.not_gt, if_neg high.not_gt, if_neg (mt exact.1 other), inexactly_value trap]
        rfl
      · rw [result, if_neg low.not_gt, if_neg high.not_gt, if_neg (mt exact.1 other), inexactly_trapped trap]
        rfl
      · rw [result, invalid_trapped trap, invalid_trapped trap]
        obtain below | above := out
        · rw [if_pos below]
        · rw [if_pos above, ite_self]
      · rw [result, if_pos below, invalid_value trap]
        rfl
      · have ordered : lo ≤ hi := by
          have all : (0 : Int) < 2 ^ n := by positivity
          have half : (0 : Int) < 2 ^ (n - 1) := by positivity
          rw [hlo, hhi]
          cases signed
          · exact Int.le_sub_one_of_lt all
          · simp only [if_true]
            omega
        rw [result, if_neg (by omega), if_pos above, invalid_value trap]
        rfl

end Sys2Proof.Machine
end

section
/-! SUPPORT. Comparing the numbers that patterns are, the compare results in the Status Register, and the tests of them, for O57. -/

namespace Sys2Proof.Machine

/-! ### The relation of two numbers (49_floating_point.md R841) -/

/-- A finite value as a multiple of a unit that is no coarser. -/
theorem scaled_cast (neg : Bool) (m : Nat) {e q : Int} (h : q ≤ e) :
    ((scaled neg m e q : Int) : ℝ) * 2 ^ q = (if neg then -1 else 1) * m * 2 ^ e := by
  have join : ((pow2 (e - q) : Nat) : ℝ) * 2 ^ q = 2 ^ e := by
    rw [pow2_cast (by omega), ← zpow_add₀ two_ne_zero, Int.sub_add_cancel]
  cases neg with
  | false => simp [scaled, mul_assoc, join]
  | true => simp [scaled, mul_assoc, join]

/-- The relation between two integers. -/
def intRelation (a b : Int) : Relation := if a = b then .equal else if a < b then .less else .greater

theorem relation_fin (n1 n2 : Bool) (m1 m2 : Nat) (e1 e2 : Int) : (FpVal.fin n1 m1 e1).relation (.fin n2 m2 e2) =
    intRelation (scaled n1 m1 e1 (min e1 e2)) (scaled n2 m2 e2 (min e1 e2)) := rfl

/-- The relation of two finite values is that of the numbers. -/
theorem relation_of_denotes {x y : FpVal} {v w : ℝ} (hx : Denotes x v) (hy : Denotes y w) :
    (w < v → x.relation y = .greater) ∧ (v < w → x.relation y = .less) ∧ (v = w → x.relation y = .equal) := by
  obtain ⟨n1, m1, e1, rfl, rfl⟩ := hx
  obtain ⟨n2, m2, e2, rfl, rfl⟩ := hy
  have unit : (0 : ℝ) < 2 ^ min e1 e2 := by positivity
  rw [relation_fin, ← scaled_cast n1 m1 (min_le_left e1 e2), ← scaled_cast n2 m2 (min_le_right e1 e2)]
  generalize scaled n1 m1 e1 (min e1 e2) = a
  generalize scaled n2 m2 e2 (min e1 e2) = b
  rw [mul_lt_mul_iff_left₀ unit, mul_lt_mul_iff_left₀ unit, mul_left_inj' unit.ne', Int.cast_lt, Int.cast_lt, Int.cast_inj]
  unfold intRelation
  refine ⟨fun greater => ?_, fun less => ?_, fun equal => if_pos equal⟩
  · rw [if_neg (by omega), if_neg (by omega)]
  · rw [if_neg (by omega), if_pos less]

section
variable {f : Fmt} {a b : Nat} {c : BitVec 5}

theorem value_of_isNan (h : f.isNan a = true) : f.value a = .nan := by
  rw [Fmt.isNan, Bool.and_eq_true, beq_iff_eq, bne_iff_ne] at h
  unfold Fmt.value
  dsimp only
  rw [if_pos h.1, if_neg h.2]

theorem relation_nan (h : f.value a = .nan ∨ f.value b = .nan) : (f.value a).relation (f.value b) = .unordered := by
  obtain h | h := h
  · rw [h]
    rfl
  · rw [h]
    cases f.value a <;> rfl

/-- Two operands that are no NaN are compared without an exception. -/
theorem compare_of_relation {r : Relation} (ha : f.value a ≠ .nan) (hb : f.value b ≠ .nan) (h : (f.value a).relation (f.value b) = r)
    (ordered : r ≠ .unordered) : f.compare a b c = (r.holds c, false) := by
  rw [Fmt.compare, h, (isNan_of_value ha).2, (isNan_of_value hb).2, beq_false_of_ne ordered]
  rfl

theorem ne_nan_of_denotes {v : ℝ} (h : Denotes (f.value a) v) : f.value a ≠ .nan := by
  obtain ⟨neg, m, e, h, -⟩ := h
  rw [h]
  simp

end

/-! ### The tests (R843) -/

/-- Entry `k` of C followed by CQ. -/
def queueEntry (f : Dword) (k : Nat) : Bool := if k = 0 then f.getMsbD 5 else f.getMsbD (9 + k)

theorem queueEntry_succ (f : Dword) (k : Nat) : queueEntry f (k + 1) = f.getMsbD (10 + k) := by
  rw [queueEntry, if_neg (Nat.succ_ne_zero k), show 9 + (k + 1) = 10 + k by omega]

theorem bitAt_C (f : Dword) : bitAt f Fpsr.C = queueEntry f 0 := rfl

theorem bitAt_CQ (f : Dword) (k : Nat) : bitAt f (10 + k) = queueEntry f (k + 1) := (queueEntry_succ f k).symm

theorem acceptTest_iff (f : Dword) (n : Nat) : acceptTest f n = true ↔ ∀ k, k ≤ n → queueEntry f k = false := by
  have entries : acceptTest f n = true ↔ queueEntry f 0 = false ∧ ∀ i < n, queueEntry f (i + 1) = false := by
    simp only [acceptTest, bitAt_C, bitAt_CQ]
    simp
  rw [entries]
  constructor
  · rintro ⟨first, rest⟩ k hk
    cases k with
    | zero => exact first
    | succ k => exact rest k hk
  · exact fun all => ⟨all 0 (Nat.zero_le n), fun i hi => all (i + 1) hi⟩

theorem rejectTest_iff (f : Dword) {n : Nat} (hn : 0 < n) :
    rejectTest f n = true ↔ ∃ k, k < n ∧ queueEntry f k = true ∧ queueEntry f (k + n) = true := by
  have entries : rejectTest f n = true ↔ (queueEntry f 0 = true ∧ queueEntry f (0 + n) = true) ∨
      ∃ i, i < n - 1 ∧ queueEntry f (i + 1) = true ∧ queueEntry f (i + 1 + n) = true := by
    have first : bitAt f (10 + n - 1) = queueEntry f (0 + n) := by
      rw [show 10 + n - 1 = 10 + (n - 1) by omega, bitAt_CQ, Nat.sub_add_cancel hn, Nat.zero_add]
    have later (i : Nat) : bitAt f (10 + n + i) = queueEntry f (i + 1 + n) := by
      rw [Nat.add_assoc, bitAt_CQ, show n + i + 1 = i + 1 + n by omega]
    rw [rejectTest, first, bitAt_C]
    simp only [Bool.or_eq_true, Bool.and_eq_true, List.any_eq_true, List.mem_range, later, bitAt_CQ]
  rw [entries]
  constructor
  · rintro (⟨first, second⟩ | ⟨i, hi, first, second⟩)
    · exact ⟨0, hn, first, second⟩
    · exact ⟨i + 1, by omega, first, second⟩
  · rintro ⟨k, hk, first, second⟩
    cases k with
    | zero => exact .inl ⟨first, second⟩
    | succ k => exact .inr ⟨k, by omega, first, second⟩

/-! ### The compare results (R825, R826) -/

/-- The bits of CQ. -/
theorem getMsbD_cqMask {k : Nat} (hk : k < 64) : cqMask.getMsbD k = decide (10 ≤ k ∧ k ≤ 20) :=
  (by decide : ∀ k < 64, cqMask.getMsbD k = decide (10 ≤ k ∧ k ≤ 20)) k hk

theorem getMsbD_lostByTarget {k : Nat} (hk : k < 64) : lostByTarget.getMsbD k = decide (k = 5 ∨ (17 ≤ k ∧ k ≤ 20)) :=
  (by decide : ∀ k < 64, lostByTarget.getMsbD k = decide (k = 5 ∨ (17 ≤ k ∧ k ≤ 20))) k hk

/-- The queue moved on by one, C in front. -/
theorem getMsbD_queue (f : Dword) {k : Nat} (hk : k < 64) :
    ((((bitOf (bitAt f Fpsr.C) ++ field f 10 19 : BitVec 11)).zeroExtend 64 <<< 43 : Dword)).getMsbD k =
      (decide (10 ≤ k ∧ k ≤ 20) && if k = 10 then f.getMsbD 5 else f.getMsbD (k - 1)) := by
  have first (v : Bool) : (bitOf v).getLsbD 0 = v := by cases v <;> rfl
  rw [BitVec.getMsbD_eq_getLsbD, decide_eq_true hk, Bool.true_and, BitVec.getLsbD_shiftLeft]
  by_cases inside : 10 ≤ k ∧ k ≤ 20
  · have place : ¬64 - 1 - k < 43 := by omega
    have small : 64 - 1 - k - 43 < 64 := by omega
    rw [decide_eq_true inside, decide_eq_false place, decide_eq_true (show 64 - 1 - k < 64 by omega)]
    simp only [Bool.not_false, Bool.true_and, BitVec.truncate_eq_setWidth, BitVec.getLsbD_setWidth, small, decide_true]
    rw [BitVec.getLsbD_append]
    split_ifs with low at_
    · omega
    · simp [field, BitVec.getMsbD_eq_getLsbD, low, show 44 + (64 - 1 - k - 43) = 64 - 1 - (k - 1) by omega, show k - 1 < 64 by omega]
    · rw [show 64 - 1 - k - 43 - (19 - 10 + 1) = 0 by omega, first]
      rfl
    · omega
  · rw [decide_eq_false inside, Bool.false_and]
    by_cases place : 64 - 1 - k < 43
    · simp [place]
    · have high : 11 ≤ 64 - 1 - k - 43 := by omega
      rw [BitVec.zeroExtend, BitVec.getLsbD_setWidth, BitVec.getLsbD_of_ge _ _ high, Bool.and_false, Bool.and_false]

section
variable (s : State) (v : Bool) {k : Nat}

theorem getMsbD_compareResult_queued (hk : k < 64) : ((s.fpCompareResult 0#3 v).readFpr 0#5).getMsbD k =
    (if k = 5 then v else if k = 10 then (s.readFpr 0#5).getMsbD 5
      else if 11 ≤ k ∧ k ≤ 20 then (s.readFpr 0#5).getMsbD (k - 1) else (s.readFpr 0#5).getMsbD k) := by
  have register : (s.fpCompareResult 0#3 v).readFpr 0#5 = withBit ((s.readFpr 0#5 &&& ~~~cqMask) |||
      ((bitOf (bitAt (s.readFpr 0#5) Fpsr.C) ++ field (s.readFpr 0#5) 10 19 : BitVec 11).zeroExtend 64 <<< 43)) Fpsr.C v :=
    (State.readFpr_writeFpr s 0#5 0#5 _).trans (if_pos rfl)
  rw [register]
  refine (bitAt_withBit _ k Fpsr.C v (by decide) hk).trans ?_
  rw [bitAt, BitVec.getMsbD_or, BitVec.getMsbD_and, BitVec.getMsbD_not, getMsbD_cqMask hk, getMsbD_queue _ hk, decide_eq_true hk]
  change (if k = 5 then v else _) = _
  split_ifs <;> simp <;> grind

theorem getMsbD_compareResult_targeted {y : BitVec 3} (hy : y ≠ 0#3) (hk : k < 64) : ((s.fpCompareResult y v).readFpr 0#5).getMsbD k =
    (if k = 9 + y.toNat then v else if k = 5 ∨ (17 ≤ k ∧ k ≤ 20) then (s.free 0).getMsbD k else (s.readFpr 0#5).getMsbD k) := by
  have register : (s.fpCompareResult y v).readFpr 0#5 = withBit ((s.readFpr 0#5 &&& ~~~lostByTarget) ||| (s.free 0 &&& lostByTarget)) (9 + y.toNat) v := by
    rw [State.fpCompareResult, if_neg hy]
    exact (State.readFpr_writeFpr s 0#5 0#5 _).trans (if_pos rfl)
  rw [register]
  refine (bitAt_withBit _ k (9 + y.toNat) v (by omega) hk).trans ?_
  rw [bitAt, BitVec.getMsbD_or, BitVec.getMsbD_and, BitVec.getMsbD_and, BitVec.getMsbD_not, getMsbD_lostByTarget hk, decide_eq_true hk]
  by_cases lost : k = 5 ∨ (17 ≤ k ∧ k ≤ 20)
  · simp [lost]
  · simp [lost]

end

theorem fpArray_compareResult (s : State) (v : Bool) {y : BitVec 3} (hy : y ≠ 0#3) {k : Nat} (hk : k < 7) :
    (s.fpCompareResult y v).fpArray.getMsbD k = (decide (k + 1 = y.toNat) || s.fpArray.getMsbD k) := by
  have target : ((64 : BitVec 7) >>> (y.toNat - 1)).getMsbD k = decide (k + 1 = y.toNat) :=
    (by decide : ∀ y : BitVec 3, y ≠ 0#3 → ∀ k < 7, ((64 : BitVec 7) >>> (y.toNat - 1)).getMsbD k = decide (k + 1 = y.toNat)) y hy k hk
  have array : (s.fpCompareResult y v).fpArray = s.fpArray ||| ((64 : BitVec 7) >>> (y.toNat - 1)) := by
    rw [State.fpCompareResult, if_neg hy]
  rw [array, BitVec.getMsbD_or, target, Bool.or_comm]

/-! ### The instructions (50_fp_instructions.md R880, R897, R898) -/

section
variable {i : Instr} {s : State}

theorem fpToSoftware_eq (regs srcs : List FpReg) : s.fpToSoftware regs srcs = regs.any (fun r => r.size = .quad) := by
  rw [State.fpToSoftware, quadToSoftware, show Config.fpQuadImplemented = false from rfl]
  exact Bool.or_false _

theorem fpFlags_zero : s.fpFlags 0#5 = s := by
  have same : s.readFpr 0#5 ||| ((0#5).zeroExtend 64 <<< 59) = s.readFpr 0#5 := by
    rw [show ((0#5).zeroExtend 64 <<< 59 : Dword) = 0#64 by decide, BitVec.or_zero]
  rw [State.fpFlags, same, State.writeFpr, State.readFpr, Vector.set_getElem_self]

/-- A compare's result goes to the Status Register and what the state keeps of it, and may draw a free value. -/
theorem fpCompareResult_frame (y : BitVec 3) (v : Bool) :
    (s.fpCompareResult y v).iaoqBack = s.iaoqBack ∧ (s.fpCompareResult y v).iasqBack = s.iasqBack ∧
    (s.fpCompareResult y v).rctr = s.rctr ∧ (s.fpCompareResult y v).itmr = s.itmr := by
  unfold State.fpCompareResult
  dsimp only
  split
  · exact ⟨rfl, rfl, rfl, rfl⟩
  · exact ⟨rfl, rfl, rfl, rfl⟩

section
variable {code : BitVec 6} {r1 r2 : FpReg} {y : BitVec 3} {c : BitVec 5}

theorem fpCompare_quad (ready : FpReady s) (quad : r1.size = .quad) :
    s.fpCompare code r1 r2 y c = done s ((s.fpTrapped code).fpDid .other) false := by
  have software : s.fpToSoftware [r1, r2] [r1, r2] = true := by
    rw [fpToSoftware_eq, List.any_cons, decide_eq_true quad, Bool.true_or]
  rw [State.fpCompare, fpGate_ready ready, software]
  rfl

/-- A compare of operands that are defined and no quad. -/
theorem fpCompare_hardware {v : Bool × Bool} (ready : FpReady s) (hq1 : r1.size ≠ .quad) (hq2 : r2.size ≠ .quad) (source1 : FpSource r1)
    (source2 : FpSource r2) (hv : v = r1.size.fmt.compare (s.fpRead r1) (s.fpRead r2) c) :
    s.fpCompare code r1 r2 y c =
      if v.2 && s.fpEnv.traps fpV then done s ((s.fpTrapped 0b100000#6).fpDid .other) false
      else done s (((s.fpCompareResult y v.1).fpFlags (if v.2 then fpV else 0#5)).fpDid .other) false := by
  have hardware : s.fpToSoftware [r1, r2] [r1, r2] = false := by
    rw [fpToSoftware_eq, List.any_cons, decide_eq_false hq1, List.any_cons, decide_eq_false hq2]
    rfl
  rw [State.fpCompare, fpGate_ready ready, hardware, fpSource_ok source1 hq1, fpSource_ok source2 hq2, codeFlags_eq_zero, fpFlags_zero, hv]
  rfl

theorem fpCompares_of_compare (hp : Plain s) (ready : FpReady s) (same : r1.size = r2.size)
    (hx : exec i s = complete s (s.fpCompare code r1 r2 y c)) : FpCompares i s code r1 r2 y c := by
  refine ⟨fun quad => ?quad, fun hq => fpRefuses_of_compare ready hq (same ▸ hq) hx, ?hardware⟩
  case quad =>
    rw [fpCompare_quad ready quad] at hx
    exact completes_of_done hp hx rfl rfl rfl rfl
  case hardware =>
    intro v hv hq source1 source2
    rw [fpCompare_hardware ready hq (same ▸ hq) source1 source2 hv] at hx
    refine ⟨fun invalid trap => ?_, fun quiet => ?_⟩
    · rw [invalid, trap] at hx
      exact completes_of_done hp hx rfl rfl rfl rfl
    · have untrapped : (v.2 && s.fpEnv.traps fpV) = false := by
        obtain h | h := quiet
        · rw [h, Bool.false_and]
        · rw [h, Bool.and_false]
      rw [untrapped] at hx
      obtain ⟨back, backSpace, recovery, timer⟩ := fpCompareResult_frame (s := s) y v.1
      exact completes_of_done hp hx back backSpace recovery timer

end

/-- A test whose result is what its kind of compare left. -/
theorem completes_fpTest {y : BitVec 3} {c : BitVec 5} (hp : Plain s) (ready : FpReady s) (kept : s.fpMixes y c = false)
    (hx : exec i s = complete s (s.fpTest y c)) :
    Completes i s (s.fpDid .other) (if y = 1#3 then queueTest (s.readFpr 0#5) c else bitAt (s.readFpr 0#5) (10 + (y ^^^ 1#3).toNat - 1)) := by
  rw [State.fpTest, fpGate_ready ready, kept] at hx
  exact completes_of_done hp hx rfl rfl rfl rfl

theorem refused_fpTest {y : BitVec 3} {c : BitVec 5} (ready : FpReady s) (mixed : s.fpMixes y c = true)
    (hx : exec i s = complete s (s.fpTest y c)) : exec i s = .refused .fpMixedTest := by
  rw [hx, State.fpTest, fpGate_ready ready, mixed]
  rfl

/-- The left word of the Status Register after FID. -/
theorem identity_word (free : Dword) (identity : BitVec 11) :
    ((free &&& ~~~identityMask) ||| (identity.zeroExtend 64 <<< 43)).extractLsb' 32 32 =
      (free.extractLsb' 32 32 &&& 0xFFC007FF#32) ||| (identity.zeroExtend 32 <<< 11) := by
  apply BitVec.eq_of_getLsbD_eq
  intro i hi
  have mask : (~~~identityMask).getLsbD (32 + i) = (0xFFC007FF#32).getLsbD i :=
    (by decide : ∀ i < 32, (~~~identityMask).getLsbD (32 + i) = (0xFFC007FF#32).getLsbD i) i hi
  have place : (identity.zeroExtend 64 <<< 43 : Dword).getLsbD (32 + i) = (identity.zeroExtend 32 <<< 11 : BitVec 32).getLsbD i := by
    rw [BitVec.getLsbD_shiftLeft, BitVec.getLsbD_shiftLeft, BitVec.zeroExtend, BitVec.getLsbD_setWidth, BitVec.getLsbD_setWidth]
    by_cases low : i < 11
    · simp [low, show 32 + i < 43 by omega]
    · simp [low, hi, show ¬32 + i < 43 by omega, show 32 + i < 64 by omega, show 32 + i - 43 = i - 11 by omega, show i - 11 < 64 by omega,
        show i - 11 < 32 by omega]
  rw [BitVec.getLsbD_extractLsb', BitVec.getLsbD_or, BitVec.getLsbD_and, mask, place, BitVec.getLsbD_or, BitVec.getLsbD_and,
    BitVec.getLsbD_extractLsb', decide_eq_true hi, Bool.true_and, Bool.true_and]

theorem fpIdentify_eq (ready : FpReady s) (stored : s.fpSequence = .stored) : s.fpIdentify = done s
    { (s.writeFpr 0#5 ((((s.free 0).extractLsb' 32 32 &&& 0xFFC007FF#32) ||| ((Config.fpModel ++ Config.fpRevision).zeroExtend 32 <<< 11)) ++
      (s.readFpr 0#5).extractLsb' 0 32)).drawn 1 with fpQueue := 12, fpArray := 0x7F#7, fpSequence := .identified } false := by
  rw [State.fpIdentify, fpGate_ready ready, if_neg (not_not.2 stored), ← identity_word]
  rfl

theorem fpIdentify_refused (ready : FpReady s) (other : s.fpSequence ≠ .stored) : s.fpIdentify = .error (.refuse .fpIdentifyAlone) := by
  rw [State.fpIdentify, fpGate_ready ready, if_pos other]
  rfl

end

/-- How many entries each queue test reads (Table 8-13). -/
theorem queueReads_eq {c : BitVec 5} {n : Nat}
    (h : (c, n) ∈ [(0#5, 1), (1#5, 12), (5#5, 8), (9#5, 6), (13#5, 4), (17#5, 2), (2#5, 12), (6#5, 8)]) : queueReads c = n := by
  simp only [List.mem_cons, Prod.mk.injEq, List.not_mem_nil, or_false] at h
  obtain ⟨rfl, rfl⟩ | ⟨rfl, rfl⟩ | ⟨rfl, rfl⟩ | ⟨rfl, rfl⟩ | ⟨rfl, rfl⟩ | ⟨rfl, rfl⟩ | ⟨rfl, rfl⟩ | ⟨rfl, rfl⟩ := h <;> rfl

/-- Settles O57: the forms behind the gate, the Status Register bit by bit, and the relation of two numbers. -/
theorem fpCompareTest : Obligations.FpCompareTest := by
  refine ⟨?instructions, ?results, ?tests, ?relations⟩
  case instructions =>
    intro s r1 r2 y fmt f x1 x2 c hp ready
    refine ⟨fpCompares_of_compare hp ready rfl rfl, fpCompares_of_compare hp ready rfl rfl, fun stored => ?_, fun other => ?_, fun notQueue => ?_,
      fun n listed => ?_⟩
    · exact completes_of_done hp (congrArg (complete s) (fpIdentify_eq ready stored)) rfl rfl rfl rfl
    · exact congrArg (complete s) (fpIdentify_refused ready other)
    · have mixes (v : Bool) (array : s.fpArray.getMsbD ((y ^^^ 1#3).toNat - 1) = v) : s.fpMixes y 0#5 = !v := by
        rw [State.fpMixes, if_neg notQueue, bitAt, array]
      refine ⟨fun kept => ?_, fun lost => refused_fpTest ready (mixes false lost) rfl⟩
      have completes := completes_fpTest (i := .ftest y 0#5) hp ready (mixes true kept) rfl
      rw [if_neg notQueue, show 10 + (y ^^^ 1#3).toNat - 1 = 9 + (y ^^^ 1#3).toNat by omega] at completes
      exact completes
    · have mixes : s.fpMixes 1#3 c = decide (s.fpQueue < n) := by
        rw [State.fpMixes, if_pos rfl, queueReads_eq listed]
      exact ⟨fun kept => completes_fpTest hp ready (mixes.trans (decide_eq_false kept.not_gt)) rfl,
        fun lost => refused_fpTest ready (mixes.trans (decide_eq_true lost)) rfl⟩
  case results =>
    intro s y v k hk
    refine ⟨getMsbD_compareResult_queued s v hk, rfl, rfl, fun hy => ⟨getMsbD_compareResult_targeted s v hy hk, ?_, fpArray_compareResult s v hy⟩⟩
    rw [State.fpCompareResult, if_neg hy]
  case tests =>
    intro f q hq
    obtain rfl : q = queueEntry f := funext hq
    refine ⟨rfl, fun c n listed => ?_, fun c n listed => ?_⟩
    · simp only [List.mem_cons, Prod.mk.injEq, List.not_mem_nil, or_false] at listed
      obtain ⟨rfl, rfl⟩ | ⟨rfl, rfl⟩ | ⟨rfl, rfl⟩ | ⟨rfl, rfl⟩ | ⟨rfl, rfl⟩ := listed
      all_goals exact acceptTest_iff f _
    · simp only [List.mem_cons, Prod.mk.injEq, List.not_mem_nil, or_false] at listed
      obtain ⟨rfl, rfl⟩ | ⟨rfl, rfl⟩ := listed
      all_goals exact rejectTest_iff f (by decide)
  case relations =>
    intro z a b c
    refine ⟨fun nan => ?_, fun v w hv hw => ?_, fun n w infinite hw => ?_, fun v n hv infinite => ?_, fun n1 n2 infinite1 infinite2 => ?_⟩
    · have unordered := relation_nan (nan.imp value_of_isNan value_of_isNan)
      rw [Fmt.compare, unordered]
      refine ⟨rfl, ?_⟩
      change (z.fmt.isSignaling a || z.fmt.isSignaling b || (true && c.getMsbD 4)) = true ↔ _
      rw [Bool.true_and, Bool.or_eq_true, Bool.or_eq_true, or_assoc]
    · have compared {r : Relation} := compare_of_relation (c := c) (r := r) (ne_nan_of_denotes hv) (ne_nan_of_denotes hw)
      obtain ⟨greater, less, equal⟩ := relation_of_denotes hv hw
      refine ⟨?_, fun h => ?_, fun h => ?_, fun h => ?_⟩
      · obtain h | h | h := lt_trichotomy v w
        · rw [compared (less h) (by simp)]
        · rw [compared (equal h) (by simp)]
        · rw [compared (greater h) (by simp)]
      · rw [compared (greater h) (by simp)]
        rfl
      · rw [compared (less h) (by simp)]
        rfl
      · rw [compared (equal h) (by simp)]
        rfl
    · have notNan : z.fmt.value a ≠ .nan := by simp [infinite]
      obtain ⟨neg, m, e, finite, -⟩ := id hw
      cases n with
      | false => exact compare_of_relation (r := .greater) notNan (ne_nan_of_denotes hw) (by rw [infinite, finite]; rfl) (by simp)
      | true => exact compare_of_relation (r := .less) notNan (ne_nan_of_denotes hw) (by rw [infinite, finite]; rfl) (by simp)
    · have notNan : z.fmt.value b ≠ .nan := by simp [infinite]
      obtain ⟨neg, m, e, finite, -⟩ := id hv
      cases n with
      | false => exact compare_of_relation (r := .less) (ne_nan_of_denotes hv) notNan (by rw [infinite, finite]; rfl) (by simp)
      | true => exact compare_of_relation (r := .greater) (ne_nan_of_denotes hv) notNan (by rw [infinite, finite]; rfl) (by simp)
    · have notNan1 : z.fmt.value a ≠ .nan := by simp [infinite1]
      have notNan2 : z.fmt.value b ≠ .nan := by simp [infinite2]
      have relation : (z.fmt.value a).relation (z.fmt.value b) = if n1 = n2 then .equal else if n1 then .less else .greater := by
        rw [infinite1, infinite2]
        cases n1 <;> cases n2 <;> rfl
      rw [compare_of_relation notNan1 notNan2 relation (by split_ifs <;> simp)]
      split_ifs <;> rfl

end Sys2Proof.Machine
end

section
/-! SUPPORT. The three formats, the values of the patterns made from fields, for O59. -/

namespace Sys2Proof.Machine

/-! ### The formats (49_floating_point.md R811) -/

/-- What the three formats have in common: their precision and bias adjustment lie well within their exponent range. -/
structure WellSized (f : Fmt) : Prop where
  precision : 4 ≤ f.p
  width : (2 ^ f.ew : Int) = 2 * f.emax + 2
  range : 127 ≤ f.emax
  precisionLe : (f.p : Int) ≤ f.emax
  adjustGe : f.emax + 2 * f.p ≤ f.adjust
  adjustLe : (f.adjust : Int) ≤ 2 * f.emax

theorem wellSized_fmt (z : FpSize) : WellSized z.fmt := by
  cases z with
  | single => exact ⟨by decide, by decide, by decide, by decide, by decide, by decide⟩
  | double => exact ⟨by decide, by decide, by decide, by decide, by decide, by decide⟩
  | quad => exact ⟨by decide, by decide, by decide, by decide, by decide, by decide⟩

section
variable {f : Fmt} {neg : Bool} {x y : Nat}

theorem Fmt.emin_eq (f : Fmt) : f.emin = 1 - f.emax := rfl

theorem topExponent_eq (f : Fmt) : f.topExponent + 1 = 2 ^ f.ew := Nat.sub_add_cancel Nat.one_le_two_pow

theorem WellSized.topExponent_cast (hf : WellSized f) : (f.topExponent : Int) = 2 * f.emax + 1 := by
  have joined : ((f.topExponent + 1 : Nat) : Int) = 2 ^ f.ew := by exact_mod_cast congrArg Nat.cast (topExponent_eq f)
  have := hf.width
  omega

theorem WellSized.topExponent_ne_zero (hf : WellSized f) : f.topExponent ≠ 0 := by
  have := hf.topExponent_cast
  have := hf.range
  omega

/-! ### A pattern from its fields (R810) -/

theorem assemble_eq (hy : y < 2 ^ (f.p - 1)) : f.assemble neg x y = (neg.toNat * 2 ^ f.ew + x) * 2 ^ (f.p - 1) + y := by
  rw [Fmt.assemble, ← Nat.shiftLeft_add_eq_or_of_lt hy, Nat.shiftLeft_eq, Nat.shiftLeft_eq]

theorem magnitude_lt (hx : x < 2 ^ f.ew) (hy : y < 2 ^ (f.p - 1)) : x * 2 ^ (f.p - 1) + y < 2 ^ (f.p - 1 + f.ew) := by
  calc x * 2 ^ (f.p - 1) + y < (x + 1) * 2 ^ (f.p - 1) := by rw [Nat.succ_mul]; exact Nat.add_lt_add_left hy _
    _ ≤ 2 ^ f.ew * 2 ^ (f.p - 1) := Nat.mul_le_mul_right _ hx
    _ = 2 ^ (f.p - 1 + f.ew) := by rw [pow_add, Nat.mul_comm]

/-- The fields of any pattern written this way, which an assembled one is. -/
theorem fields_of_sum (hx : x < 2 ^ f.ew) (hy : y < 2 ^ (f.p - 1)) :
    f.exponent ((neg.toNat * 2 ^ f.ew + x) * 2 ^ (f.p - 1) + y) = x ∧ f.fraction ((neg.toNat * 2 ^ f.ew + x) * 2 ^ (f.p - 1) + y) = y ∧
      f.negative ((neg.toNat * 2 ^ f.ew + x) * 2 ^ (f.p - 1) + y) = neg := by
  have unit : 0 < 2 ^ (f.p - 1) := Nat.two_pow_pos _
  refine ⟨?_, ?_, ?_⟩
  · rw [Fmt.exponent, Nat.shiftRight_eq_div_pow, Nat.add_div_of_dvd_right (Nat.dvd_mul_left _ _), Nat.mul_div_cancel _ unit,
      Nat.div_eq_of_lt hy, Nat.add_zero, Nat.mul_add_mod', Nat.mod_eq_of_lt hx]
  · rw [Fmt.fraction, Nat.mul_add_mod', Nat.mod_eq_of_lt hy]
  · have low := magnitude_lt hx hy
    have split : (neg.toNat * 2 ^ f.ew + x) * 2 ^ (f.p - 1) + y = 2 ^ (f.p - 1 + f.ew) * neg.toNat + (x * 2 ^ (f.p - 1) + y) := by
      rw [pow_add]
      ring
    rw [Fmt.negative, split, Nat.testBit_two_pow_mul_add _ low, if_neg (lt_irrefl _), Nat.sub_self]
    cases neg <;> rfl

theorem sum_lt (hp : 0 < f.p) (hx : x < 2 ^ f.ew) (hy : y < 2 ^ (f.p - 1)) :
    (neg.toNat * 2 ^ f.ew + x) * 2 ^ (f.p - 1) + y < 2 ^ (f.p + f.ew) := by
  have low := magnitude_lt hx hy
  have double : 2 ^ (f.p + f.ew) = 2 ^ (f.p - 1 + f.ew) + 2 ^ (f.p - 1 + f.ew) := by
    rw [← two_mul, ← pow_succ', show f.p - 1 + f.ew + 1 = f.p + f.ew by omega]
  have sign : neg.toNat * 2 ^ f.ew * 2 ^ (f.p - 1) ≤ 2 ^ (f.p - 1 + f.ew) := by
    rw [Nat.mul_assoc, pow_add, Nat.mul_comm (2 ^ f.ew)]
    exact (Nat.mul_le_mul_right _ (Bool.toNat_le neg)).trans_eq (Nat.one_mul _)
  rw [Nat.add_mul]
  omega

theorem assemble_lt (hp : 0 < f.p) (hx : x < 2 ^ f.ew) (hy : y < 2 ^ (f.p - 1)) : f.assemble neg x y < 2 ^ (f.p + f.ew) := by
  rw [assemble_eq hy]
  exact sum_lt hp hx hy

theorem fields_assemble (hx : x < 2 ^ f.ew) (hy : y < 2 ^ (f.p - 1)) :
    f.exponent (f.assemble neg x y) = x ∧ f.fraction (f.assemble neg x y) = y ∧ f.negative (f.assemble neg x y) = neg := by
  rw [assemble_eq hy]
  exact fields_of_sum hx hy

/-! ### The values of the patterns (R812) -/

theorem value_eq {w : Nat} (he : f.exponent w = x) (hy : f.fraction w = y) (hn : f.negative w = neg) :
    f.value w = if x = f.topExponent then (if y = 0 then .inf neg else .nan)
      else if x = 0 then .fin neg y (f.emin - (f.p - 1)) else .fin neg (y + 2 ^ (f.p - 1)) (x - f.emax - (f.p - 1)) := by
  rw [← he, ← hy, ← hn]
  rfl

theorem value_assemble (hx : x < 2 ^ f.ew) (hy : y < 2 ^ (f.p - 1)) :
    f.value (f.assemble neg x y) = if x = f.topExponent then (if y = 0 then .inf neg else .nan)
      else if x = 0 then .fin neg y (f.emin - (f.p - 1)) else .fin neg (y + 2 ^ (f.p - 1)) (x - f.emax - (f.p - 1)) := by
  obtain ⟨he, hf, hn⟩ := fields_assemble (f := f) (neg := neg) hx hy
  exact value_eq he hf hn

theorem topExponent_lt (f : Fmt) : f.topExponent < 2 ^ f.ew := by
  rw [← topExponent_eq]
  exact Nat.lt_succ_self _

theorem unit_pos (f : Fmt) : 0 < 2 ^ (f.p - 1) := Nat.two_pow_pos _

/-- The infinities. -/
theorem isInfinity_infinity (hf : WellSized f) (neg : Bool) : IsInfinity f neg (f.infinity neg) := by
  have hp := hf.precision
  refine ⟨assemble_lt (by omega) (topExponent_lt f) (unit_pos f), ?_⟩
  rw [Fmt.infinity, value_assemble (topExponent_lt f) (unit_pos f), if_pos rfl, if_pos rfl]

/-- A zero's pattern with a small number in its fraction, or the smallest normalized number. -/
theorem value_zero_add (hf : WellSized f) (neg : Bool) {k : Nat} (hk : k ≤ 2 ^ (f.p - 1)) :
    f.zero neg + k < 2 ^ (f.p + f.ew) ∧ f.value (f.zero neg + k) = .fin neg k (f.emin - (f.p - 1)) := by
  have hp := hf.precision
  have top := hf.topExponent_cast
  have range := hf.range
  have width := topExponent_eq f
  have zero : f.zero neg = (neg.toNat * 2 ^ f.ew + 0) * 2 ^ (f.p - 1) + 0 := assemble_eq (unit_pos f)
  obtain small | rfl := hk.lt_or_eq
  · rw [zero, Nat.add_zero]
    have hx : 0 < 2 ^ f.ew := Nat.two_pow_pos _
    obtain ⟨he, hy, hn⟩ := fields_of_sum (f := f) (neg := neg) hx small
    refine ⟨sum_lt (by omega) hx small, ?_⟩
    rw [value_eq he hy hn, if_neg hf.topExponent_ne_zero.symm, if_pos rfl]
  · have one : f.zero neg + 2 ^ (f.p - 1) = (neg.toNat * 2 ^ f.ew + 1) * 2 ^ (f.p - 1) + 0 := by
      rw [zero]
      ring
    have hx : 1 < 2 ^ f.ew := by omega
    obtain ⟨he, hy, hn⟩ := fields_of_sum (f := f) (neg := neg) hx (unit_pos f)
    rw [one]
    refine ⟨sum_lt (by omega) hx (unit_pos f), ?_⟩
    rw [value_eq he hy hn, if_neg (by omega), if_neg one_ne_zero, Nat.zero_add, Fmt.emin_eq]
    rfl

theorem isZero_zero (hf : WellSized f) (neg : Bool) : IsZero f neg (f.zero neg) := by
  obtain ⟨bound, value⟩ := value_zero_add hf neg (Nat.zero_le _)
  exact ⟨bound, _, value⟩

/-- The largest finite number. -/
theorem isLargest_largest (hf : WellSized f) (neg : Bool) : IsLargest f neg (f.largest neg) := by
  have hp := hf.precision
  have top := hf.topExponent_cast
  have range := hf.range
  have width := topExponent_eq f
  have hx : f.topExponent - 1 < 2 ^ f.ew := by omega
  have hy : 2 ^ (f.p - 1) - 1 < 2 ^ (f.p - 1) := Nat.sub_lt (unit_pos f) one_pos
  refine ⟨assemble_lt (by omega) hx hy, 2 ^ (f.p - 1) - 1 + 2 ^ (f.p - 1), ((f.topExponent - 1 : Nat) : Int) - f.emax - (f.p - 1), ?_, ?_⟩
  · rw [Fmt.largest, value_assemble hx hy, if_neg (by omega), if_neg (by omega)]
  · have exponent : ((f.topExponent - 1 : Nat) : Int) - f.emax - (f.p - 1) = f.emax + (1 - f.p) := by omega
    have fraction : ((2 ^ (f.p - 1) - 1 + 2 ^ (f.p - 1) : Nat) : ℝ) = 2 * 2 ^ (f.p - 1) - 1 := by
      rw [Nat.cast_add, Nat.cast_sub (unit_pos f)]
      push_cast
      ring
    have scale : (2 : ℝ) ^ (1 - (f.p : Int)) = (2 ^ (f.p - 1))⁻¹ := by
      rw [← zpow_natCast, ← zpow_neg]
      congr 1
      omega
    have unit : (2 : ℝ) ^ (f.p - 1) ≠ 0 := by positivity
    rw [exponent, fraction, zpow_add₀ two_ne_zero, scale]
    field_simp

/-- The quiet NaN of an invalid operation (R856). -/
theorem isNewNan_newNan (hf : WellSized f) : IsNewNan f f.newNan := by
  have hp := hf.precision
  have hy : 2 ^ (f.p - 3) < 2 ^ (f.p - 1) := Nat.pow_lt_pow_right one_lt_two (by omega)
  obtain ⟨-, fraction, negative⟩ := fields_assemble (f := f) (neg := false) (topExponent_lt f) hy
  refine ⟨assemble_lt (by omega) (topExponent_lt f) hy, ?_, negative, fraction⟩
  rw [Fmt.newNan, value_assemble (topExponent_lt f) hy, if_pos rfl, if_neg (Nat.two_pow_pos _).ne']

/-! ### Normalized numbers -/

/-- A significand with its leading 1, and the exponent field for `e`. -/
theorem value_normalized (hf : WellSized f) (neg : Bool) {m : Nat} {e : Int} (low : 2 ^ (f.p - 1) ≤ m) (high : m < 2 ^ f.p)
    (min : f.emin ≤ e) (max : e ≤ f.emax) :
    f.assemble neg (e + f.emax).toNat (m % 2 ^ (f.p - 1)) < 2 ^ (f.p + f.ew) ∧
    f.value (f.assemble neg (e + f.emax).toNat (m % 2 ^ (f.p - 1))) = .fin neg m (e - (f.p - 1)) := by
  have hp := hf.precision
  have top := hf.topExponent_cast
  have width := topExponent_eq f
  have emin := f.emin_eq
  have hx : (e + f.emax).toNat < 2 ^ f.ew := by omega
  have hy : m % 2 ^ (f.p - 1) < 2 ^ (f.p - 1) := Nat.mod_lt m (unit_pos f)
  have double : 2 ^ f.p = 2 * 2 ^ (f.p - 1) := by
    rw [← pow_succ', show f.p - 1 + 1 = f.p by omega]
  have leading : m % 2 ^ (f.p - 1) + 2 ^ (f.p - 1) = m := by
    rw [Nat.mod_eq_sub_mod low, Nat.mod_eq_of_lt (by omega), Nat.sub_add_cancel low]
  refine ⟨assemble_lt (by omega) hx hy, ?_⟩
  rw [value_assemble hx hy, if_neg (by omega), if_neg (by omega), leading]
  congr 1
  omega

/-- A number of at most p bits, in normalized form. -/
theorem value_pack (hf : WellSized f) (neg : Bool) {k n : Nat} {q : Int} (hn : k.log2 = n) (hk : k ≠ 0) (small : n ≤ f.p - 1)
    (low : f.emin ≤ n + q) (high : n + q ≤ f.emax) :
    f.pack neg k q < 2 ^ (f.p + f.ew) ∧ f.value (f.pack neg k q) = .fin neg (k * 2 ^ (f.p - 1 - n)) (q - ((f.p - 1 - n : Nat) : Int)) := by
  have hp := hf.precision
  obtain ⟨below, above⟩ := (Nat.log2_eq_iff hk).1 hn
  have least : 2 ^ (f.p - 1) ≤ k * 2 ^ (f.p - 1 - n) := by
    calc 2 ^ (f.p - 1) = 2 ^ n * 2 ^ (f.p - 1 - n) := by rw [← pow_add, Nat.add_sub_cancel' small]
      _ ≤ k * 2 ^ (f.p - 1 - n) := Nat.mul_le_mul_right _ below
  have most : k * 2 ^ (f.p - 1 - n) < 2 ^ f.p := by
    calc k * 2 ^ (f.p - 1 - n) < 2 ^ (n + 1) * 2 ^ (f.p - 1 - n) := Nat.mul_lt_mul_of_pos_right above (Nat.two_pow_pos _)
      _ = 2 ^ f.p := by rw [← pow_add, show n + 1 + (f.p - 1 - n) = f.p by omega]
  have packed : f.pack neg k q = f.assemble neg ((n : Int) + q + f.emax).toNat (k * 2 ^ (f.p - 1 - n) % 2 ^ (f.p - 1)) := by
    rw [Fmt.pack, hn]
    rw [if_pos small, Nat.shiftLeft_eq]
  rw [packed]
  obtain ⟨bound, value⟩ := value_normalized hf neg least most low high
  refine ⟨bound, value.trans ?_⟩
  congr 1
  omega

/-- A number rounded up to p + 1 bits. -/
theorem value_pack_carry (hf : WellSized f) (neg : Bool) {q : Int} (low : f.emin ≤ f.p + q) (high : f.p + q ≤ f.emax) :
    f.pack neg (2 ^ f.p) q < 2 ^ (f.p + f.ew) ∧ f.value (f.pack neg (2 ^ f.p) q) = .fin neg (2 ^ (f.p - 1)) (q + 1) := by
  have hp := hf.precision
  have packed : f.pack neg (2 ^ f.p) q = f.assemble neg ((f.p : Int) + q + f.emax).toNat (2 ^ (f.p - 1) % 2 ^ (f.p - 1)) := by
    rw [Fmt.pack, Nat.log2_two_pow]
    rw [if_neg (by omega), Nat.shiftRight_eq_div_pow, Nat.pow_div (by omega) two_pos, show f.p - (f.p - (f.p - 1)) = f.p - 1 by omega]
  rw [packed]
  obtain ⟨bound, value⟩ := value_normalized hf neg le_rfl (Nat.pow_lt_pow_right one_lt_two (by omega)) low high
  refine ⟨bound, value.trans ?_⟩
  congr 1
  omega

end

end Sys2Proof.Machine
end

section
/-! SUPPORT. The rounding of a real number into a format, its overflow and underflow, and what `deliver` answers, for O59. -/

namespace Sys2Proof.Machine

/-! ### The rounding mode and the sign (49_floating_point.md R851) -/

section
variable {rm : BitVec 2} {v : ℝ} {neg : Bool}

theorem mode_cases (rm : BitVec 2) : rm = 0#2 ∨ rm = 1#2 ∨ rm = 2#2 ∨ rm = 3#2 :=
  (by decide : ∀ rm : BitVec 2, rm = 0#2 ∨ rm = 1#2 ∨ rm = 2#2 ∨ rm = 3#2) rm

/-- `neg` is the sign of `v`; a zero has either. -/
def SignOf (v : ℝ) (neg : Bool) : Prop := (0 < v → neg = false) ∧ (v < 0 → neg = true)

theorem SignOf.zero (neg : Bool) : SignOf 0 neg := ⟨fun h => absurd h (lt_irrefl _), fun h => absurd h (lt_irrefl _)⟩

/-- A number that is not 0, by its sign. -/
theorem SignOf.cases (h : SignOf v neg) (hv : v ≠ 0) : (neg = false ∧ 0 < v) ∨ (neg = true ∧ v < 0) := by
  obtain less | more := lt_or_gt_of_ne hv
  · exact .inr ⟨h.2 less, less⟩
  · exact .inl ⟨h.1 more, more⟩

theorem direction_down (h : SignOf v neg) (hrm : rm = 1#2 ∨ (rm = 2#2 ∧ v < 0) ∨ (rm = 3#2 ∧ 0 < v)) : direction rm neg = .down := by
  obtain rfl | ⟨rfl, less⟩ | ⟨rfl, more⟩ := hrm
  · rfl
  · rw [h.2 less]
    rfl
  · rw [h.1 more]
    rfl

theorem direction_up (h : SignOf v neg) (hrm : (rm = 2#2 ∧ 0 < v) ∨ (rm = 3#2 ∧ v < 0)) : direction rm neg = .up := by
  obtain ⟨rfl, more⟩ | ⟨rfl, less⟩ := hrm
  · rw [h.1 more]
    rfl
  · rw [h.2 less]
    rfl

/-- A magnitude rounded to a multiple of 2^q. -/
theorem roundedFrom_of_roundsTo {k : Nat} {q : Int} (sign : SignOf v neg) (h : RoundsTo (direction rm neg) (|v| / 2 ^ q) k) :
    RoundedFrom rm v neg k q := by
  have unit : (0 : ℝ) < 2 ^ q := by positivity
  obtain ⟨y, hy⟩ : ∃ y, y = |v| / 2 ^ q := ⟨_, rfl⟩
  have magnitude : |v| = y * 2 ^ q := by rw [hy, div_mul_cancel₀ _ unit.ne']
  rw [← hy] at h
  refine ⟨sign.1, sign.2, ?_, fun hrm => ?_, fun hrm => ?_⟩
  · rintro rfl
    obtain ⟨close, even⟩ : |(k : ℝ) - y| ≤ 1 / 2 ∧ (|(k : ℝ) - y| = 1 / 2 → k % 2 = 0) := h
    rw [magnitude, ← sub_mul, abs_mul, abs_of_pos unit]
    exact ⟨by nlinarith, fun tie => even (by field_simp at tie ⊢; linarith)⟩
  · rw [direction_down sign hrm] at h
    rw [magnitude]
    exact ⟨mul_le_mul_of_nonneg_right h.1 unit.le, mul_lt_mul_of_pos_right h.2 unit⟩
  · rw [direction_up sign hrm] at h
    rw [magnitude]
    exact ⟨mul_lt_mul_of_pos_right h.1 unit, mul_le_mul_of_nonneg_right h.2 unit.le⟩

end

/-! ### Thresholds (51_fp_exceptions.md Tables 10-7 and 10-8) -/

/-- The magnitude, rounded to `p` bits, has an exponent above `e`. -/
def Exceeds (dir : Direction) (p : Nat) (e : Int) (x : ℝ) : Prop :=
  match dir with
  | .nearest => 2 ^ (e + 1) - 2 ^ (e - p) ≤ x
  | .down => 2 ^ (e + 1) ≤ x
  | .up => 2 ^ (e + 1) - 2 ^ (e + 1 - p) < x

section
variable {dir : Direction} {p k : Nat} {e q : Int} {x : ℝ}

theorem exceeds_of_le (h : (2 : ℝ) ^ (e + 1) ≤ x) : Exceeds dir p e x := by
  have small : (0 : ℝ) < 2 ^ (e - p) := by positivity
  have unit : (0 : ℝ) < 2 ^ (e + 1 - p) := by positivity
  cases dir with
  | nearest => exact (sub_lt_self _ small).le.trans h
  | down => exact h
  | up => exact (sub_lt_self _ unit).trans_le h

theorem not_exceeds_of_le (hp : 1 ≤ p) (h : x ≤ 2 ^ e) : ¬Exceeds dir p e x := by
  have double : (2 : ℝ) ^ (e + 1) = 2 ^ e + 2 ^ e := by rw [zpow_add_one₀ two_ne_zero, mul_two]
  have small : (2 : ℝ) ^ (e - p) < 2 ^ e := zpow_lt_zpow_right₀ one_lt_two (by omega)
  have unit : (2 : ℝ) ^ (e + 1 - p) ≤ 2 ^ e := zpow_le_zpow_right₀ one_le_two (by omega)
  have positive : (0 : ℝ) < 2 ^ e := by positivity
  cases dir with
  | nearest => exact not_le.2 (by linarith)
  | down => exact not_le.2 (by linarith)
  | up => exact not_lt.2 (by linarith)

/-- A magnitude of `p` bits is rounded up to the next power of two from the threshold on. -/
theorem roundsTo_carry_iff (hp : 1 ≤ p) {y : ℝ} (h : RoundsTo dir y k) (high : y < 2 ^ p) :
    k = 2 ^ p ↔ (match dir with | .nearest => (2 : ℝ) ^ p - 1 / 2 ≤ y | .down => False | .up => (2 : ℝ) ^ p - 1 < y) := by
  have even : 2 ^ p = 2 * 2 ^ (p - 1) := by rw [← pow_succ', Nat.sub_add_cancel hp]
  have most : k ≤ 2 ^ p := h.le_of_ge (by exact_mod_cast high.le)
  have below (other : k ≠ 2 ^ p) : (k : ℝ) + 1 ≤ 2 ^ p := by exact_mod_cast lt_of_le_of_ne most other
  cases dir with
  | nearest =>
    obtain ⟨close, tie⟩ := h
    obtain ⟨low, up⟩ := abs_le.1 close
    refine ⟨?_, fun above => by_contra fun other => ?_⟩
    · rintro rfl
      push_cast at up
      linarith
    · have less := below other
      have parity := tie (by rw [abs_sub_comm, abs_of_nonneg] <;> linarith)
      have next : k + 1 = 2 ^ p := by
        have same : (k : ℝ) + 1 = 2 ^ p := by linarith
        exact_mod_cast same
      omega
  | down =>
    refine iff_false_intro ?_
    rintro rfl
    have low := h.1
    push_cast at low
    linarith
  | up =>
    refine ⟨?_, fun above => by_contra fun other => ?_⟩
    · rintro rfl
      simpa using h.1
    · linarith [below other, h.2]

theorem log2_of_bits (hp : 1 ≤ p) (low : 2 ^ (p - 1) ≤ k) (high : k < 2 ^ p) : k.log2 = p - 1 := by
  have positive : 0 < 2 ^ (p - 1) := Nat.two_pow_pos _
  exact (Nat.log2_eq_iff (by omega)).2 ⟨low, by rwa [Nat.sub_add_cancel hp]⟩

/-- The exponent of a rounded magnitude against a bound. -/
theorem exceeds_iff (hp : 1 ≤ p) (h : RoundsTo dir (x / 2 ^ q) k) (low : (2 : ℝ) ^ (p - 1) ≤ x / 2 ^ q) (high : x / 2 ^ q < 2 ^ p) :
    e < k.log2 + q ↔ Exceeds dir p e x := by
  have unit : (0 : ℝ) < 2 ^ q := by positivity
  have least : 2 ^ (p - 1) ≤ k := h.le_of_le (by exact_mod_cast low)
  have most : k ≤ 2 ^ p := h.le_of_ge (by exact_mod_cast high.le)
  have exponent : k.log2 = if k = 2 ^ p then p else p - 1 := by
    split
    next carry => rw [carry, Nat.log2_two_pow]
    next other => exact log2_of_bits hp least (lt_of_le_of_ne most other)
  have scale (n : Nat) : (2 : ℝ) ^ n * 2 ^ q = 2 ^ (n + q) := by rw [zpow_add₀ two_ne_zero, zpow_natCast]
  have lowX : (2 : ℝ) ^ (((p - 1 : Nat) : Int) + q) ≤ x := by rwa [← scale, ← le_div_iff₀ unit]
  have highX : x < (2 : ℝ) ^ ((p : Int) + q) := by rwa [← scale, ← div_lt_iff₀ unit]
  obtain below | equal | above : e + 1 < p + q ∨ e + 1 = p + q ∨ p + q < e + 1 := by omega
  · refine iff_of_true ?_ (exceeds_of_le ((zpow_le_zpow_right₀ one_le_two (by omega)).trans lowX))
    rw [exponent]
    split <;> omega
  · have carries : e < k.log2 + q ↔ k = 2 ^ p := by
      rw [exponent]
      split <;> omega
    rw [carries, roundsTo_carry_iff hp h high]
    have top : (2 : ℝ) ^ (e + 1) = 2 ^ p * 2 ^ q := by rw [equal, scale]
    cases dir with
    | nearest =>
      have half : (2 : ℝ) ^ (e - p) = 1 / 2 * 2 ^ q := by
        rw [show e - p = q - 1 by omega, zpow_sub_one₀ two_ne_zero]
        ring
      rw [Exceeds, top, half, ← sub_mul, le_div_iff₀ unit]
    | down => exact iff_of_false not_false (not_le.2 (by rw [top, scale]; exact highX))
    | up => rw [Exceeds, top, show e + 1 - p = q by omega, ← sub_one_mul, lt_div_iff₀ unit]
  · refine iff_of_false ?_ (not_exceeds_of_le hp (highX.le.trans (zpow_le_zpow_right₀ one_le_two (by omega))))
    rw [exponent]
    split <;> omega

end

section
variable {f : Fmt} {rm : BitVec 2} {v : ℝ} {neg : Bool}

/-- The two directed modes, by the sign: one bound for numbers above 0, the other for those below. -/
theorem beyond_iff {a b : ℝ} (ha : 0 ≤ a) (hb : 0 < b) (sign : SignOf v neg) (hv : v ≠ 0) :
    (a < v ∨ v ≤ -b ↔ if neg then b ≤ |v| else a < |v|) ∧ (b ≤ v ∨ v < -a ↔ if neg then a < |v| else b ≤ |v|) := by
  obtain ⟨rfl, more⟩ | ⟨rfl, less⟩ := sign.cases hv
  · rw [abs_of_pos more, if_neg Bool.false_ne_true, if_neg Bool.false_ne_true]
    exact ⟨or_iff_left (by linarith), or_iff_left (by linarith)⟩
  · rw [abs_of_neg less, if_pos rfl, if_pos rfl, le_neg, lt_neg]
    exact ⟨or_iff_right (by linarith), or_iff_right (by linarith)⟩

/-- The bounds of the nearest and of the directed modes, as the two tables write them. -/
theorem threshold_nearest (p : Nat) (e : Int) : (2 : ℝ) ^ (e + 1) - 2 ^ (e - p) = 2 ^ e * (2 - 2 ^ (-(p : Int))) := by
  rw [mul_sub, ← zpow_add₀ two_ne_zero, ← sub_eq_add_neg, zpow_add_one₀ two_ne_zero]

theorem threshold_up (p : Nat) (e : Int) : (2 : ℝ) ^ (e + 1) - 2 ^ (e + 1 - p) = 2 ^ e * (2 - 2 ^ (1 - (p : Int))) := by
  rw [mul_sub, ← zpow_add₀ two_ne_zero, ← add_sub_assoc, zpow_add_one₀ two_ne_zero]

theorem threshold_up_nonneg (p : Nat) (e : Int) : (0 : ℝ) ≤ 2 ^ (e + 1) - 2 ^ (e + 1 - p) :=
  sub_nonneg.2 (zpow_le_zpow_right₀ one_le_two (by omega))

/-- Table 10-7. -/
theorem overflows_iff (sign : SignOf v neg) (hv : v ≠ 0) : Overflows f rm v ↔ Exceeds (direction rm neg) f.p f.emax |v| := by
  obtain ⟨two, three⟩ := beyond_iff (threshold_up_nonneg f.p f.emax) (b := 2 ^ (f.emax + 1)) (by positivity) sign hv
  rw [Overflows, ← threshold_nearest, ← threshold_up, two, three]
  obtain rfl | rfl | rfl | rfl := mode_cases rm
  · simp [Exceeds, direction]
  · simp [Exceeds, direction]
  · cases neg <;> simp [Exceeds, direction]
  · cases neg <;> simp [Exceeds, direction]

theorem not_overflows_zero : ¬Overflows f rm 0 := by
  have all : (0 : ℝ) < 2 ^ (f.emax + 1) := by positivity
  have part := threshold_up_nonneg f.p f.emax
  have half : (2 : ℝ) ^ (f.emax - f.p) < 2 ^ (f.emax + 1) := zpow_lt_zpow_right₀ one_lt_two (by omega)
  rw [Overflows, ← threshold_nearest, ← threshold_up, abs_zero]
  rintro (⟨-, h⟩ | ⟨-, h⟩ | ⟨-, h | h⟩ | ⟨-, h | h⟩) <;> linarith

/-- Table 10-8. -/
theorem tiny_iff (sign : SignOf v neg) (hv : v ≠ 0) : Tiny f rm v ↔ ¬Exceeds (direction rm neg) f.p (f.emin - 1) |v| := by
  have nearest : (2 : ℝ) ^ f.emin * (1 - 2 ^ (-(f.p : Int) - 1)) = 2 ^ (f.emin - 1 + 1) - 2 ^ (f.emin - 1 - f.p) := by
    rw [mul_sub, mul_one, ← zpow_add₀ two_ne_zero, Int.sub_add_cancel, show f.emin + (-(f.p : Int) - 1) = f.emin - 1 - f.p by omega]
  have up : (2 : ℝ) ^ f.emin * (1 - 2 ^ (-(f.p : Int))) = 2 ^ (f.emin - 1 + 1) - 2 ^ (f.emin - 1 + 1 - f.p) := by
    rw [mul_sub, mul_one, ← zpow_add₀ two_ne_zero, Int.sub_add_cancel, ← sub_eq_add_neg]
  have all : (2 : ℝ) ^ f.emin = 2 ^ (f.emin - 1 + 1) := by rw [Int.sub_add_cancel]
  obtain ⟨two, three⟩ := beyond_iff (threshold_up_nonneg f.p (f.emin - 1)) (b := 2 ^ (f.emin - 1 + 1)) (by positivity) sign hv
  have upward : -(2 : ℝ) ^ (f.emin - 1 + 1) < v ∧ v ≤ 2 ^ (f.emin - 1 + 1) - 2 ^ (f.emin - 1 + 1 - f.p) ↔ _ :=
    (by rw [not_or, not_lt, not_le, and_comm] : _ ↔ ¬(_ ∨ _)).trans (not_congr two)
  have downward : -((2 : ℝ) ^ (f.emin - 1 + 1) - 2 ^ (f.emin - 1 + 1 - f.p)) ≤ v ∧ v < 2 ^ (f.emin - 1 + 1) ↔ _ :=
    (by rw [not_or, not_lt, not_le, and_comm] : _ ↔ ¬(_ ∨ _)).trans (not_congr three)
  rw [Tiny, nearest, up, all, upward, downward, and_iff_right hv]
  obtain rfl | rfl | rfl | rfl := mode_cases rm
  · simp [Exceeds, direction, lt_sub_iff_add_lt]
  · simp [Exceeds, direction]
  · cases neg <;> simp [Exceeds, direction]
  · cases neg <;> simp [Exceeds, direction]

end

end Sys2Proof.Machine
end

section
/-! SUPPORT. The result that `deliver` makes of a number: its value, its overflow and underflow, for O59. -/

namespace Sys2Proof.Machine

section
variable {f : Fmt} {rm : BitVec 2} {v : ℝ} {neg : Bool} {m k : Nat} {e q : Int}

/-- `k` · 2^`q` is `v` rounded to the precision of `f`. -/
structure Rounded (f : Fmt) (rm : BitVec 2) (neg : Bool) (v : ℝ) (k : Nat) (q : Int) : Prop where
  sign : SignOf v neg
  nonzero : v ≠ 0
  low : (2 : ℝ) ^ (f.p - 1) ≤ |v| / 2 ^ q
  high : |v| / 2 ^ q < 2 ^ f.p
  rounds : RoundsTo (direction rm neg) (|v| / 2 ^ q) k

/-- The overflows and the tiny results are told by the exponent of the rounded number. -/
theorem Rounded.overflows_iff (h : Rounded f rm neg v k q) (hf : WellSized f) : Overflows f rm v ↔ f.emax < k.log2 + q := by
  have hp := hf.precision
  rw [Machine.overflows_iff h.sign h.nonzero, exceeds_iff (by omega) h.rounds h.low h.high]

theorem Rounded.tiny_iff (h : Rounded f rm neg v k q) (hf : WellSized f) : Tiny f rm v ↔ k.log2 + q < f.emin := by
  have hp := hf.precision
  rw [Machine.tiny_iff h.sign h.nonzero, ← exceeds_iff (by omega) h.rounds h.low h.high]
  omega

/-- Its pattern, with the exponent moved by `s`, is the rounding of `v` · 2^`s`. -/
theorem Rounded.pack (h : Rounded f rm neg v k q) (hf : WellSized f) (s : Int) (low : f.emin ≤ k.log2 + (q + s)) (high : k.log2 + (q + s) ≤ f.emax) :
    ∃ k' q', f.value (f.pack neg k (q + s)) = .fin neg k' q' ∧ RoundedFrom rm (v * 2 ^ s) neg k' q' ∧ (k' : ℝ) * 2 ^ q' = k * 2 ^ (q + s) := by
  have hp := hf.precision
  have unit : (0 : ℝ) < 2 ^ s := by positivity
  have sign : SignOf (v * 2 ^ s) neg :=
    ⟨fun more => h.sign.1 ((mul_pos_iff_of_pos_right unit).1 more), fun less => h.sign.2 (by_contra fun other => less.not_ge (mul_nonneg (not_lt.1 other) unit.le))⟩
  have scaled : |v * 2 ^ s| / 2 ^ (q + s) = |v| / 2 ^ q := by
    rw [abs_mul, abs_of_pos unit, zpow_add₀ two_ne_zero, mul_div_mul_right _ _ unit.ne']
  have rounds : RoundsTo (direction rm neg) (|v * 2 ^ s| / 2 ^ (q + s)) k := by rw [scaled]; exact h.rounds
  have least : 2 ^ (f.p - 1) ≤ k := h.rounds.le_of_le (by exact_mod_cast h.low)
  have most : k ≤ 2 ^ f.p := h.rounds.le_of_ge (by exact_mod_cast h.high.le)
  obtain fits | rfl := most.lt_or_eq
  · have exponent : k.log2 = f.p - 1 := log2_of_bits (by omega) least fits
    have nonzero : k ≠ 0 := (lt_of_lt_of_le (unit_pos f) least).ne'
    obtain ⟨-, value⟩ := value_pack hf neg exponent nonzero le_rfl (exponent ▸ low) (exponent ▸ high)
    rw [Nat.sub_self, pow_zero, mul_one, Nat.cast_zero, sub_zero] at value
    exact ⟨k, q + s, value, roundedFrom_of_roundsTo sign rounds, rfl⟩
  · rw [Nat.log2_two_pow] at low high
    obtain ⟨-, value⟩ := value_pack_carry hf neg low high
    have double : 2 ^ f.p = 2 * 2 ^ (f.p - 1) := by rw [← pow_succ', Nat.sub_add_cancel (by omega)]
    refine ⟨_, _, value, roundedFrom_of_roundsTo sign ?_, ?_⟩
    · rw [zpow_add_one₀ two_ne_zero, ← div_div]
      exact (double ▸ rounds).half
    · rw [double, zpow_add_one₀ two_ne_zero]
      push_cast
      ring

/-- `m` · 2^`e`, as far as roundings to the precision of `f` and to coarser units can tell, is the magnitude of `v`. -/
structure Represents (f : Fmt) (neg : Bool) (m : Nat) (e : Int) (v : ℝ) : Prop where
  sign : SignOf v neg
  nonzero : v ≠ 0
  positive : m ≠ 0
  same : SameHalves ((m : ℝ) * 2 ^ e / 2 ^ ((m.log2 : Int) + 1 + e - f.p)) (|v| / 2 ^ ((m.log2 : Int) + 1 + e - f.p))

/-- A number that is given exactly. -/
theorem Represents.of_eq (sign : SignOf v neg) (positive : m ≠ 0) (h : |v| = m * 2 ^ e) : Represents f neg m e v := by
  refine ⟨sign, ?_, positive, h ▸ SameHalves.refl _⟩
  rintro rfl
  rw [abs_zero, zero_eq_mul, Nat.cast_eq_zero] at h
  exact h.elim positive (zpow_ne_zero e two_ne_zero)

/-- The rounding at the precision. -/
theorem Represents.rounded (h : Represents f neg m e v) (hp : 1 ≤ f.p) (rm : BitVec 2) (hq : q = (m.log2 : Int) + 1 + e - f.p) :
    Rounded f rm neg v (roundAt rm neg m e q) q := by
  have same := hq ▸ h.same
  have scale : (m : ℝ) * 2 ^ e / 2 ^ q = m * 2 ^ f.p / 2 ^ (m.log2 + 1) := by
    have top : (2 : ℝ) ^ ((m.log2 : Int) + 1) = 2 ^ (m.log2 + 1) := by exact_mod_cast zpow_natCast (2 : ℝ) (m.log2 + 1)
    rw [hq, zpow_sub₀ two_ne_zero, zpow_add₀ two_ne_zero, top, zpow_natCast]
    field_simp
  have below : ((2 ^ m.log2 : Nat) : ℝ) ≤ m := by exact_mod_cast Nat.log2_self_le h.positive
  have above : (m : ℝ) < ((2 ^ (m.log2 + 1) : Nat) : ℝ) := by exact_mod_cast Nat.lt_log2_self
  push_cast at below above
  have leading : (2 : ℝ) ^ f.p = 2 ^ (f.p - 1) * 2 := by rw [← pow_succ, Nat.sub_add_cancel hp]
  refine ⟨h.sign, h.nonzero, ?_, ?_, (roundAt_roundsTo rm neg m e q).congr same⟩
  · have low : ((2 ^ (f.p - 1) : Nat) : ℝ) ≤ m * 2 ^ e / 2 ^ q := by
      rw [scale, le_div_iff₀ (by positivity), leading, pow_succ]
      push_cast
      nlinarith [pow_pos (two_pos (α := ℝ)) (f.p - 1)]
    exact_mod_cast (same.natCast_le_iff _).1 low
  · have high : ¬((2 ^ f.p : Nat) : ℝ) ≤ m * 2 ^ e / 2 ^ q := by
      rw [not_le, scale, div_lt_iff₀ (by positivity)]
      push_cast
      rw [mul_comm]
      exact mul_lt_mul_of_pos_left above (by positivity)
    exact_mod_cast not_le.1 (mt (same.natCast_le_iff _).2 high)

/-- A rounding at any coarser unit, and whether it is exact. -/
theorem Represents.roundsTo (h : Represents f neg m e v) (rm : BitVec 2) (hq : (m.log2 : Int) + 1 + e - f.p ≤ q) :
    RoundsTo (direction rm neg) (|v| / 2 ^ q) (roundAt rm neg m e q) ∧
      (exactAt m e q = true ↔ (roundAt rm neg m e q : ℝ) * 2 ^ q = |v|) := by
  have split (x : ℝ) : x / 2 ^ q = x / 2 ^ ((m.log2 : Int) + 1 + e - f.p) / 2 ^ (q - ((m.log2 : Int) + 1 + e - f.p)).toNat := by
    rw [div_div, ← zpow_natCast, ← zpow_add₀ two_ne_zero]
    congr 2
    omega
  have same : SameHalves ((m : ℝ) * 2 ^ e / 2 ^ q) (|v| / 2 ^ q) := by
    rw [split (m * 2 ^ e), split |v|]
    exact h.same.div_two_pow _
  have rounds := (roundAt_roundsTo rm neg m e q).congr same
  refine ⟨rounds, ?_⟩
  rw [exactAt_iff, ← eq_div_iff (by positivity), eq_comm, roundsTo_eq_iff rounds]
  exact exists_congr same.natCast_eq_iff

end

end Sys2Proof.Machine
end

section
/-! SUPPORT. What `deliver` answers for the exact result of an operation, for O59. -/

namespace Sys2Proof.Machine

/-- `r` is the delivery of the exact result `v`. -/
def Computes (f : Fmt) (env : FpEnv) (arith : Bool) (v : ℝ) (r : Delivery) : Prop := Rounds f env.rm v r ∧ Delivers f env arith v r

/-- A result whose only exceptions are inexact and those of `flags`, which do not trap. -/
def ending (env : FpEnv) (bits : Nat) (flags : BitVec 5) (exact : Bool) : Delivery :=
  if exact then .value bits 0#5 else env.inexactly bits flags

section
variable {f : Fmt} {env : FpEnv} {arith conversion neg exact inexact : Bool} {v : ℝ} {bits m k : Nat} {e q eu : Int} {x flags : BitVec 5}

theorem ending_value (h : ending env bits flags exact = .value k x) :
    k = bits ∧ ((exact = true ∧ x = 0#5) ∨ (exact = false ∧ x = flags ||| fpI)) := by
  cases exact with
  | true =>
    obtain ⟨rfl, rfl⟩ : bits = k ∧ 0#5 = x := by simpa [ending] using h
    exact ⟨rfl, .inl ⟨rfl, rfl⟩⟩
  | false =>
    cases trap : env.traps fpI with
    | true => simp [ending, inexactly_trapped trap] at h
    | false =>
      obtain ⟨rfl, rfl⟩ : bits = k ∧ flags ||| fpI = x := by simpa [ending, inexactly_value trap] using h
      exact ⟨rfl, .inr ⟨rfl, rfl⟩⟩

theorem ending_of_not_traps (h : env.traps fpI = false) : ∃ k x, ending env bits flags exact = .value k x := by
  cases exact with
  | true => exact ⟨_, _, rfl⟩
  | false => exact ⟨_, _, inexactly_value h⟩

/-- The ends of R956 without an overflow or a trapping underflow. -/
theorem ending_computes (within : ¬Overflows f env.rm v)
    (tiny : (Tiny f env.rm v ∧ env.traps fpU = false ∧ flags = fpU) ∨ (¬Tiny f env.rm v ∧ flags = 0#5))
    (value : f.value bits = .fin neg k q) (rounded : RoundedFrom env.rm v neg k q) (hexact : exact = true ↔ (k : ℝ) * 2 ^ q = |v|) :
    Computes f env arith v (ending env bits flags exact) := by
  have flagsOf : flags = fpU ∨ flags = 0#5 := tiny.imp (fun h => h.2.2) (fun h => h.2)
  constructor
  · intro bits' x hr _
    obtain ⟨rfl, ⟨isExact, rfl⟩ | ⟨isInexact, rfl⟩⟩ := ending_value hr
    · exact ⟨neg, k, q, value, rounded, iff_of_false (by simp) (not_not.2 (hexact.1 isExact))⟩
    · refine ⟨neg, k, q, value, rounded, iff_of_true ?_ (mt hexact.2 (by simp [isInexact]))⟩
      obtain rfl | rfl := flagsOf <;> decide
  · refine ⟨fun above => absurd above within, fun _ => ⟨fun bits' x hr => ?_, fun trap _ => ending_of_not_traps trap, fun isTiny trap => ?_⟩⟩
    · obtain ⟨rfl, ⟨-, rfl⟩ | ⟨-, rfl⟩⟩ := ending_value hr
      · simp
      · obtain ⟨isTiny, -, rfl⟩ | ⟨notTiny, rfl⟩ := tiny
        · exact ⟨by decide, iff_of_true (by decide) ⟨isTiny, by decide⟩⟩
        · exact ⟨by decide, iff_of_false (by decide) fun h => notTiny h.1⟩
    · obtain ⟨-, off, -⟩ | ⟨notTiny, -⟩ := tiny
      · rw [off] at trap
        cases trap
      · exact absurd isTiny notTiny

/-- An exact zero. -/
theorem zero_computes (env : FpEnv) (arith : Bool) (value : f.value bits = .fin neg 0 q) : Computes f env arith 0 (.value bits 0#5) := by
  have rounds : RoundsTo (direction env.rm neg) (|0| / 2 ^ q) 0 := by
    rw [abs_zero, zero_div]
    exact_mod_cast roundsTo_self _ 0
  exact ending_computes (exact := true) not_overflows_zero (.inr ⟨fun h => h.1 rfl, rfl⟩) value (roundedFrom_of_roundsTo (.zero neg) rounds) (by simp)

/-! ### The branches of R956 -/

/-- The exact results of the arithmetic operations, whose bias-adjusted roundings the format holds. -/
def Adjustable (f : Fmt) (v : ℝ) : Prop := 2 ^ (f.emin - f.adjust) ≤ |v| ∧ |v| < 2 ^ (f.emax + f.adjust)

theorem Rounded.exponent_bounds (h : Rounded f env.rm neg v k q) (hf : WellSized f) (range : Adjustable f v) :
    f.emin - f.adjust ≤ k.log2 + q ∧ k.log2 + q ≤ f.emax + f.adjust := by
  have hp := hf.precision
  obtain ⟨low, high⟩ := range
  have unit : (0 : ℝ) < 2 ^ q := by positivity
  have least : 2 ^ (f.p - 1) ≤ k := h.rounds.le_of_le (by exact_mod_cast h.low)
  have most : k ≤ 2 ^ f.p := h.rounds.le_of_ge (by exact_mod_cast h.high.le)
  have positive : 0 < 2 ^ (f.p - 1) := unit_pos f
  have lowLog : f.p - 1 ≤ k.log2 := (Nat.le_log2 (by omega)).2 least
  have highLog : k.log2 ≤ f.p := by
    rw [← Nat.log2_two_pow (n := f.p), Nat.log2_eq_log_two, Nat.log2_eq_log_two]
    exact Nat.log_mono_right most
  have above : (2 : ℝ) ^ (f.emin - f.adjust) < 2 ^ ((f.p : Int) + q) := by
    rw [zpow_add₀ two_ne_zero, zpow_natCast]
    exact low.trans_lt ((div_lt_iff₀ unit).1 h.high)
  have below : (2 : ℝ) ^ (((f.p - 1 : Nat) : Int) + q) < 2 ^ (f.emax + f.adjust) := by
    rw [zpow_add₀ two_ne_zero, zpow_natCast]
    exact ((le_div_iff₀ unit).1 h.low).trans_lt high
  have := (zpow_lt_zpow_iff_right₀ (one_lt_two (α := ℝ))).1 above
  have := (zpow_lt_zpow_iff_right₀ (one_lt_two (α := ℝ))).1 below
  omega

theorem SignOf.eq_decide (sign : SignOf v neg) (hv : v ≠ 0) : neg = decide (v < 0) := by
  obtain ⟨rfl, more⟩ | ⟨rfl, less⟩ := sign.cases hv
  · exact (decide_eq_false more.not_gt).symm
  · exact (decide_eq_true less).symm

/-- The untrapped result of an overflow (R954). -/
theorem overflowValue_isOverflow (hf : WellSized f) (rm : BitVec 2) (neg : Bool) : IsOverflow f rm neg (f.overflowValue rm neg) := by
  have infinite := isInfinity_infinity hf
  have largest := isLargest_largest hf
  obtain rfl | rfl | rfl | rfl := mode_cases rm
  · exact ⟨fun _ => infinite neg, by simp⟩
  · exact ⟨by simp, fun _ => largest neg⟩
  · cases neg
    · exact ⟨fun _ => infinite false, by simp⟩
    · exact ⟨by simp, fun _ => largest true⟩
  · cases neg
    · exact ⟨by simp, fun _ => largest false⟩
    · exact ⟨fun _ => infinite true, by simp⟩

theorem deliverOverflow_off (h : env.traps fpO = false) :
    f.deliverOverflow env conversion neg inexact k q eu = env.inexactly (f.overflowValue env.rm neg) fpO := by
  rw [Fmt.deliverOverflow, if_neg (by simp [h])]

theorem deliverOverflow_ne_value (h : env.traps fpO = true) : f.deliverOverflow env conversion neg inexact k q eu ≠ .value bits x := by
  rw [Fmt.deliverOverflow, if_pos h]
  split <;> simp

theorem deliverOverflow_trapped (h : env.traps fpO = true) : f.deliverOverflow env false neg inexact k q eu =
    .trapped (if inexact && env.traps fpI then 0b001010#6 else 0b001000#6) (some (f.pack neg k (q - f.adjust)))
      (if inexact && !(env.traps fpI) then fpI else 0#5) := by
  rw [Fmt.deliverOverflow, if_pos h]
  rfl

/-- The overflow branch. -/
theorem deliverOverflow_computes (hf : WellSized f) (h : Rounded f env.rm neg v k q) (above : f.emax < k.log2 + q)
    (range : arith = true → conversion = false ∧ Adjustable f v) :
    Computes f env arith v (f.deliverOverflow env conversion neg inexact k q eu) := by
  have overflows := (h.overflows_iff hf).2 above
  constructor
  · intro bits x hr none
    cases trap : env.traps fpO with
    | true => exact absurd hr (deliverOverflow_ne_value trap)
    | false =>
      rw [deliverOverflow_off trap] at hr
      obtain ⟨-, ⟨impossible, -⟩ | ⟨-, rfl⟩⟩ := ending_value (exact := false) hr
      · cases impossible
      · exact absurd none (by decide)
  · refine ⟨fun _ => ⟨fun trap => ?_, fun trap => ⟨fun _ _ => deliverOverflow_ne_value trap, fun arithmetic => ?_⟩⟩, fun within => absurd overflows within⟩
    · rw [deliverOverflow_off trap, ← h.sign.eq_decide h.nonzero]
      exact ⟨_, overflowValue_isOverflow hf env.rm neg, rfl⟩
    · obtain ⟨rfl, adjustable⟩ := range arithmetic
      obtain ⟨-, most⟩ := h.exponent_bounds hf adjustable
      have adjust := hf.adjustLe
      have emin := f.emin_eq
      obtain ⟨k', q', value, rounded, -⟩ := h.pack hf (-(f.adjust : Int)) (by omega) (by omega)
      rw [← sub_eq_add_neg] at value
      rw [zpow_neg, zpow_natCast, ← div_eq_mul_inv] at rounded
      rw [deliverOverflow_trapped trap]
      refine ⟨_, _, _, rfl, ?_, neg, k', q', value, rounded⟩
      cases inexact
      · exact .inl rfl
      · cases env.traps fpI
        · exact .inl rfl
        · exact .inr ⟨rfl, rfl⟩

theorem deliverTiny_ne_value (h : env.traps fpU = true) : f.deliverTiny env conversion neg inexact m e k q eu ≠ .value bits x := by
  rw [Fmt.deliverTiny, if_pos h]
  split <;> simp

theorem deliverTiny_trapped (h : env.traps fpU = true) : f.deliverTiny env false neg inexact m e k q eu =
    .trapped (underflowCode (inexact && decide (m / pow2 (q - e) < k)) inexact (inexact && env.traps fpI)) (some (f.pack neg k (q + f.adjust)))
      (if inexact && !(env.traps fpI) then fpI else 0#5) := by
  rw [Fmt.deliverTiny, if_pos h]
  rfl

theorem deliverTiny_off (h : env.traps fpU = false) : f.deliverTiny env conversion neg inexact m e k q eu =
    ending env (f.zero neg + roundAt env.rm neg m e (f.emin - (f.p - 1))) fpU (exactAt m e (f.emin - (f.p - 1))) := by
  rw [Fmt.deliverTiny, if_neg (by simp [h])]
  rfl

theorem underflowCode_low (away inexact both : Bool) : (underflowCode away inexact both).extractLsb' 2 2 = 0b01#2 :=
  (by decide : ∀ a b c : Bool, (underflowCode a b c).extractLsb' 2 2 = 0b01#2) away inexact both

/-- The tiny branch with its trap disabled: a denormalized number, or the smallest normalized one. -/
theorem deliverTiny_computes_off (hf : WellSized f) (h : Represents f neg m e v) (hq : q = (m.log2 : Int) + 1 + e - f.p)
    (hk : k = roundAt env.rm neg m e q) (tiny : k.log2 + q < f.emin) (trap : env.traps fpU = false) :
    Computes f env arith v (f.deliverTiny env conversion neg inexact m e k q eu) := by
  have hp := hf.precision
  have rounded : Rounded f env.rm neg v k q := hk ▸ h.rounded (by omega) env.rm hq
  have least : 2 ^ (f.p - 1) ≤ k := rounded.rounds.le_of_le (by exact_mod_cast rounded.low)
  have positive : 0 < 2 ^ (f.p - 1) := unit_pos f
  have exponent : f.p - 1 ≤ k.log2 := (Nat.le_log2 (by omega)).2 least
  have emin := f.emin_eq
  have emax := hf.range
  obtain ⟨rounds, isExact⟩ := h.roundsTo env.rm (q := f.emin - (f.p - 1)) (by omega)
  have small : |v| / 2 ^ (f.emin - (f.p - 1)) ≤ ((2 ^ (f.p - 1) : Nat) : ℝ) := by
    rw [div_le_iff₀ (by positivity), Nat.cast_pow, Nat.cast_ofNat, ← zpow_natCast, ← zpow_add₀ two_ne_zero]
    have high := (div_lt_iff₀ (by positivity)).1 rounded.high
    rw [← zpow_natCast, ← zpow_add₀ two_ne_zero] at high
    exact high.le.trans (zpow_le_zpow_right₀ one_le_two (by omega))
  obtain ⟨-, value⟩ := value_zero_add hf neg (rounds.le_of_ge small)
  rw [deliverTiny_off trap]
  exact ending_computes (by rw [rounded.overflows_iff hf]; omega) (.inl ⟨(rounded.tiny_iff hf).2 tiny, trap, rfl⟩) value
    (roundedFrom_of_roundsTo h.sign rounds) isExact

/-- The tiny branch with its trap enabled. -/
theorem deliverTiny_computes_on (hf : WellSized f) (h : Rounded f env.rm neg v k q) (tiny : k.log2 + q < f.emin)
    (trap : env.traps fpU = true) (range : arith = true → conversion = false ∧ Adjustable f v) :
    Computes f env arith v (f.deliverTiny env conversion neg inexact m e k q eu) := by
  have adjust := hf.adjustGe
  have emin := f.emin_eq
  have emax := hf.range
  have within : ¬Overflows f env.rm v := by
    rw [h.overflows_iff hf]
    omega
  refine ⟨fun bits x hr => absurd hr (deliverTiny_ne_value trap), fun above => absurd above within, fun _ =>
    ⟨fun bits x hr => absurd hr (deliverTiny_ne_value trap), fun _ off => ?_, fun _ _ => ⟨fun _ _ => deliverTiny_ne_value trap, fun arithmetic => ?_⟩⟩⟩
  · rw [off] at trap
    cases trap
  · obtain ⟨rfl, adjustable⟩ := range arithmetic
    obtain ⟨least, -⟩ := h.exponent_bounds hf adjustable
    have adjustLe := hf.adjustLe
    obtain ⟨k', q', value, rounded, -⟩ := h.pack hf (f.adjust : Int) (by omega) (by omega)
    rw [deliverTiny_trapped trap]
    exact ⟨_, _, _, rfl, underflowCode_low _ _ _, neg, k', q', value, rounded⟩

/-- The branches, by the exponent of the rounded result. -/
theorem deliver_eq (f : Fmt) (env : FpEnv) (conversion neg : Bool) (m : Nat) (e : Int) (hq : q = (m.log2 : Int) + 1 + e - f.p)
    (hk : k = roundAt env.rm neg m e q) : f.deliver env conversion neg m e =
      if f.emax < k.log2 + q then f.deliverOverflow env conversion neg (!(exactAt m e q)) k q (k.log2 + q)
      else if k.log2 + q < f.emin then f.deliverTiny env conversion neg (!(exactAt m e q)) m e k q (k.log2 + q)
      else ending env (f.pack neg k q) 0#5 (exactAt m e q) := by
  subst hk hq
  rw [Fmt.deliver, ending]
  cases exactAt m e ((m.log2 : Int) + 1 + e - f.p) <;> rfl

/-- `deliver`, in every branch. -/
theorem deliver_computes (hf : WellSized f) (env : FpEnv) (h : Represents f neg m e v) (range : arith = true → conversion = false ∧ Adjustable f v) :
    Computes f env arith v (f.deliver env conversion neg m e) := by
  have hp := hf.precision
  obtain ⟨q, hq⟩ : ∃ q, q = (m.log2 : Int) + 1 + e - f.p := ⟨_, rfl⟩
  obtain ⟨k, hk⟩ : ∃ k, k = roundAt env.rm neg m e q := ⟨_, rfl⟩
  have rounded : Rounded f env.rm neg v k q := hk ▸ h.rounded (by omega) env.rm hq
  rw [deliver_eq f env conversion neg m e hq hk]
  split
  next above => exact deliverOverflow_computes hf rounded above range
  next within =>
    split
    next tiny =>
      cases trap : env.traps fpU with
      | true => exact deliverTiny_computes_on hf rounded tiny trap range
      | false => exact deliverTiny_computes_off hf h hq hk tiny trap
    next normal =>
      obtain ⟨k', q', value, from', same⟩ := rounded.pack hf 0 (by omega) (by omega)
      rw [add_zero] at value same
      rw [zpow_zero, mul_one] at from'
      have isExact := (h.roundsTo env.rm hq.ge).2
      rw [← hk, ← same] at isExact
      exact ending_computes (mt (rounded.overflows_iff hf).1 within) (.inr ⟨mt (rounded.tiny_iff hf).1 normal, rfl⟩) value from' isExact

/-- `deliverOrZero` of an exact result. -/
theorem deliverOrZero_computes (hf : WellSized f) (env : FpEnv) (zeroNeg : Bool) (sign : SignOf v neg) (h : |v| = m * 2 ^ e)
    (range : v ≠ 0 → arith = true → conversion = false ∧ Adjustable f v) :
    Computes f env arith v (f.deliverOrZero env conversion neg zeroNeg m e) := by
  rw [Fmt.deliverOrZero]
  split
  next zero =>
    have isZero : v = 0 := by rwa [zero, Nat.cast_zero, zero_mul, abs_eq_zero] at h
    obtain ⟨-, grid, value⟩ := isZero_zero hf zeroNeg
    rw [isZero]
    exact zero_computes env arith value
  next nonzero =>
    have represents : Represents f neg m e v := .of_eq sign nonzero h
    exact deliver_computes hf env represents (range represents.nonzero)

end

end Sys2Proof.Machine
end

section
/-! SUPPORT. The exact results of the arithmetic operations and of the conversions, and their deliveries, for O59. -/

namespace Sys2Proof.Machine

/-! ### Finite values -/

section
variable {f : Fmt} {env : FpEnv} {neg n1 n2 : Bool} {a b c m m1 m2 : Nat} {e e1 e2 : Int} {u v t : ℝ}

theorem abs_finiteValue (neg : Bool) (m : Nat) (e : Int) : |finiteValue neg m e| = m * 2 ^ e := by
  have nonneg : (0 : ℝ) ≤ m * 2 ^ e := by positivity
  cases neg with
  | false => rw [finiteValue, if_neg Bool.false_ne_true, one_mul, abs_of_nonneg nonneg]
  | true => rw [finiteValue, if_pos rfl, mul_assoc, neg_one_mul, abs_neg, abs_of_nonneg nonneg]

theorem signOf_finiteValue (neg : Bool) (m : Nat) (e : Int) : SignOf (finiteValue neg m e) neg := by
  have nonneg : (0 : ℝ) ≤ m * 2 ^ e := by positivity
  cases neg with
  | false =>
    rw [finiteValue, if_neg Bool.false_ne_true, one_mul]
    exact ⟨fun _ => rfl, fun less => absurd less nonneg.not_gt⟩
  | true =>
    rw [finiteValue, if_pos rfl, mul_assoc, neg_one_mul]
    exact ⟨fun more => absurd more (by linarith), fun _ => rfl⟩

theorem finiteValue_ne_zero_iff : finiteValue neg m e ≠ 0 ↔ m ≠ 0 := by
  rw [← abs_ne_zero, abs_finiteValue, mul_ne_zero_iff, Nat.cast_ne_zero, and_iff_left (zpow_ne_zero e two_ne_zero)]

theorem finiteValue_not (neg : Bool) (m : Nat) (e : Int) : finiteValue (!neg) m e = -finiteValue neg m e := by
  cases neg <;> simp [finiteValue]

theorem finiteValue_mul (n1 n2 : Bool) (m1 m2 : Nat) (e1 e2 : Int) :
    finiteValue (n1 ^^ n2) (m1 * m2) (e1 + e2) = finiteValue n1 m1 e1 * finiteValue n2 m2 e2 := by
  have signs : (if n1 ^^ n2 then -1 else 1 : ℝ) = (if n1 then -1 else 1) * (if n2 then -1 else 1) := by
    cases n1 <;> cases n2 <;> norm_num
  unfold finiteValue
  rw [zpow_add₀ two_ne_zero, Nat.cast_mul, signs]
  ring

/-- The magnitude of a number that is a multiple of 2^`e`. -/
theorem unit_le_abs (h : |v| = m * 2 ^ e) (hv : v ≠ 0) {n : Int} (hn : n ≤ e) : 2 ^ n ≤ |v| := by
  have positive : (1 : ℝ) ≤ m := by
    rw [Nat.one_le_cast, Nat.one_le_iff_ne_zero]
    rintro rfl
    rw [Nat.cast_zero, zero_mul, abs_eq_zero] at h
    exact hv h
  calc (2 : ℝ) ^ n ≤ 2 ^ e := zpow_le_zpow_right₀ one_le_two hn
    _ ≤ m * 2 ^ e := le_mul_of_one_le_left (by positivity) positive
    _ = |v| := h.symm

/-- What the values of a format are multiples of, and how large they are. -/
theorem value_bounds (hf : WellSized f) (h : f.value a = .fin neg m e) : f.emin - (f.p - 1) ≤ e ∧ m < 2 ^ f.p ∧ (m : ℝ) * 2 ^ e < 2 ^ (f.emax + 1) := by
  have hp := hf.precision
  have top := hf.topExponent_cast
  have range := hf.range
  have emin := f.emin_eq
  have width := topExponent_eq f
  have field : f.exponent a < 2 ^ f.ew := Nat.mod_lt _ (Nat.two_pow_pos _)
  have fraction : f.fraction a < 2 ^ (f.p - 1) := Nat.mod_lt _ (unit_pos f)
  have double : 2 ^ f.p = 2 ^ (f.p - 1) + 2 ^ (f.p - 1) := by rw [← two_mul, ← pow_succ', Nat.sub_add_cancel (by omega)]
  have large (small : m < 2 ^ f.p) (most : f.p + e ≤ f.emax + 1) : (m : ℝ) * 2 ^ e < 2 ^ (f.emax + 1) := by
    have small : (m : ℝ) < 2 ^ (f.p : Int) := by
      rw [zpow_natCast]
      exact_mod_cast small
    calc (m : ℝ) * 2 ^ e < 2 ^ (f.p : Int) * 2 ^ e := mul_lt_mul_of_pos_right small (by positivity)
      _ = 2 ^ (f.p + e) := (zpow_add₀ two_ne_zero _ _).symm
      _ ≤ 2 ^ (f.emax + 1) := zpow_le_zpow_right₀ one_le_two most
  rw [value_eq rfl rfl rfl] at h
  split_ifs at h with special zero denormal
  · cases h
    have small : f.fraction a < 2 ^ f.p := by omega
    exact ⟨le_rfl, small, large small (by omega)⟩
  · cases h
    have small : f.fraction a + 2 ^ (f.p - 1) < 2 ^ f.p := by omega
    exact ⟨by omega, small, large small (by omega)⟩

theorem nanResult_none {ops : List Nat} (h : ∀ w ∈ ops, f.value w ≠ .nan) : f.nanResult env ops = none := by
  have quiet : ops.find? f.isNan = none := List.find?_eq_none.2 fun w hw => by simp [(isNan_of_value (h w hw)).1]
  have signaling : ops.find? f.isSignaling = none := List.find?_eq_none.2 fun w hw => by simp [(isNan_of_value (h w hw)).2]
  rw [Fmt.nanResult, signaling, quiet]
  rfl

theorem ne_nan_of_fin (h : f.value a = .fin neg m e) : f.value a ≠ .nan := by
  rw [h]
  simp

/-! ### The operations on operands that are no NaN -/

theorem add_eq (ha : f.value a ≠ .nan) (hb : f.value b ≠ .nan) : f.add env a b = f.sumOf env (f.value a) (f.value b) := by
  rw [Fmt.add, nanResult_none (by simp [ha, hb])]
  rfl

theorem sub_eq (ha : f.value a ≠ .nan) (hb : f.value b ≠ .nan) : f.sub env a b = f.sumOf env (f.value a) (f.value b).negate := by
  rw [Fmt.sub, nanResult_none (by simp [ha, hb])]
  rfl

theorem mul_eq (ha : f.value a ≠ .nan) (hb : f.value b ≠ .nan) : f.mul env a b =
    match (f.value a).times (f.value b) with
    | some (.inf n) => .value (f.infinity n) 0#5
    | some (.fin n m e) => f.deliverOrZero env false n n m e
    | _ => env.invalid f.newNan := by
  rw [Fmt.mul, nanResult_none (by simp [ha, hb])]
  rfl

theorem fused_eq (negate : Bool) (ha : f.value a ≠ .nan) (hb : f.value b ≠ .nan) (hc : f.value c ≠ .nan) : f.fused env negate a b c =
    match (f.value a).times (f.value b) with
    | none => env.invalid f.newNan
    | some v => f.sumOf env (if negate then v.negate else v) (f.value c) := by
  rw [Fmt.fused, nanResult_none (by simp [ha, hb, hc])]
  rfl

/-! ### The sum (50_fp_instructions.md R900) -/

/-- The exact sum of two finite values. -/
theorem exactSum_eq (rm : BitVec 2) (n1 : Bool) (m1 : Nat) (e1 : Int) (n2 : Bool) (m2 : Nat) (e2 : Int) {s : Int}
    (hs : s = scaled n1 m1 e1 (min e1 e2) + scaled n2 m2 e2 (min e1 e2)) :
    exactSum rm n1 m1 e1 n2 m2 e2 = (if s = 0 then (if n1 = n2 then n1 else rm == 3#2) else decide (s < 0), s.natAbs, min e1 e2) ∧
      finiteValue n1 m1 e1 + finiteValue n2 m2 e2 = s * 2 ^ min e1 e2 := by
  subst hs
  refine ⟨rfl, ?_⟩
  rw [Int.cast_add, add_mul, scaled_cast n1 m1 (min_le_left e1 e2), scaled_cast n2 m2 (min_le_right e1 e2)]
  rfl

/-- A sum of finite values, whose magnitudes the products of two values bound. -/
theorem sumOf_computes (hf : WellSized f) (env : FpEnv) (n1 n2 : Bool) (hu : |finiteValue n1 m1 e1| < 2 ^ (2 * f.emax + 2))
    (hv : |finiteValue n2 m2 e2| < 2 ^ (2 * f.emax + 2)) (he1 : 2 * (f.emin - (f.p - 1)) ≤ e1) (he2 : 2 * (f.emin - (f.p - 1)) ≤ e2) :
    Computes f env true (finiteValue n1 m1 e1 + finiteValue n2 m2 e2) (f.sumOf env (.fin n1 m1 e1) (.fin n2 m2 e2)) := by
  have hp := hf.precision
  have adjust := hf.adjustGe
  have emin := f.emin_eq
  obtain ⟨s, hs⟩ : ∃ s, s = scaled n1 m1 e1 (min e1 e2) + scaled n2 m2 e2 (min e1 e2) := ⟨_, rfl⟩
  obtain ⟨sum, exact⟩ := exactSum_eq env.rm n1 m1 e1 n2 m2 e2 hs
  have result : f.sumOf env (.fin n1 m1 e1) (.fin n2 m2 e2) = f.deliverOrZero env false (if s = 0 then (if n1 = n2 then n1 else env.rm == 3#2) else decide (s < 0))
      (if s = 0 then (if n1 = n2 then n1 else env.rm == 3#2) else decide (s < 0)) s.natAbs (min e1 e2) := by
    rw [Fmt.sumOf, sum]
  have unit : (0 : ℝ) < 2 ^ min e1 e2 := by positivity
  have magnitude : |finiteValue n1 m1 e1 + finiteValue n2 m2 e2| = (s.natAbs : ℝ) * 2 ^ min e1 e2 := by
    rw [exact, abs_mul, abs_of_pos unit, Nat.cast_natAbs, Int.cast_abs]
  have sign : SignOf (finiteValue n1 m1 e1 + finiteValue n2 m2 e2) (if s = 0 then (if n1 = n2 then n1 else env.rm == 3#2) else decide (s < 0)) := by
    rw [exact]
    constructor
    · intro more
      have more : 0 < s := by exact_mod_cast (mul_pos_iff_of_pos_right unit).1 more
      rw [if_neg more.ne', decide_eq_false more.not_gt]
    · intro less
      have less : s < 0 := by exact_mod_cast (neg_iff_pos_of_mul_neg less).2 unit
      rw [if_neg less.ne, decide_eq_true less]
  rw [result]
  refine deliverOrZero_computes hf env _ sign magnitude fun nonzero _ => ⟨rfl, unit_le_abs magnitude nonzero (by omega), ?_⟩
  calc |finiteValue n1 m1 e1 + finiteValue n2 m2 e2| ≤ |finiteValue n1 m1 e1| + |finiteValue n2 m2 e2| := abs_add_le _ _
    _ < 2 ^ (2 * f.emax + 2) + 2 ^ (2 * f.emax + 2) := add_lt_add hu hv
    _ = 2 ^ (2 * f.emax + 2 + 1) := by rw [← mul_two, zpow_add_one₀ two_ne_zero]
    _ ≤ 2 ^ (f.emax + f.adjust) := zpow_le_zpow_right₀ one_le_two (by omega)

/-- The bounds that a sum needs, of a value of the format. -/
theorem value_bounds_sum (hf : WellSized f) (h : f.value a = .fin neg m e) :
    |finiteValue n1 m e| < 2 ^ (2 * f.emax + 2) ∧ 2 * (f.emin - (f.p - 1)) ≤ e := by
  have range := hf.range
  have hp := hf.precision
  have emin := f.emin_eq
  obtain ⟨least, -, most⟩ := value_bounds hf h
  rw [abs_finiteValue]
  exact ⟨most.trans_le (zpow_le_zpow_right₀ one_le_two (by omega)), by omega⟩

/-- And of the product of two. -/
theorem value_bounds_mul (hf : WellSized f) (ha : f.value a = .fin n1 m1 e1) (hb : f.value b = .fin n2 m2 e2) :
    |finiteValue neg (m1 * m2) (e1 + e2)| < 2 ^ (2 * f.emax + 2) ∧ 2 * (f.emin - (f.p - 1)) ≤ e1 + e2 := by
  obtain ⟨least1, -, most1⟩ := value_bounds hf ha
  obtain ⟨least2, -, most2⟩ := value_bounds hf hb
  refine ⟨?_, by omega⟩
  calc |finiteValue neg (m1 * m2) (e1 + e2)| = (m1 * 2 ^ e1) * (m2 * 2 ^ e2) := by
        rw [abs_finiteValue, zpow_add₀ two_ne_zero, Nat.cast_mul]
        ring
    _ < 2 ^ (f.emax + 1) * 2 ^ (f.emax + 1) := mul_lt_mul'' most1 most2 (by positivity) (by positivity)
    _ = 2 ^ (2 * f.emax + 2) := by
        rw [← zpow_add₀ two_ne_zero]
        congr 1
        omega

theorem add_computes (hf : WellSized f) (env : FpEnv) (ha : f.value a = .fin n1 m1 e1) (hb : f.value b = .fin n2 m2 e2) :
    Computes f env true (finiteValue n1 m1 e1 + finiteValue n2 m2 e2) (f.add env a b) := by
  obtain ⟨hu, he1⟩ := value_bounds_sum hf ha
  obtain ⟨hv, he2⟩ := value_bounds_sum hf hb
  rw [add_eq (ne_nan_of_fin ha) (ne_nan_of_fin hb), ha, hb]
  exact sumOf_computes hf env n1 n2 hu hv he1 he2

theorem sub_computes (hf : WellSized f) (env : FpEnv) (ha : f.value a = .fin n1 m1 e1) (hb : f.value b = .fin n2 m2 e2) :
    Computes f env true (finiteValue n1 m1 e1 - finiteValue n2 m2 e2) (f.sub env a b) := by
  obtain ⟨hu, he1⟩ := value_bounds_sum hf ha
  obtain ⟨hv, he2⟩ := value_bounds_sum hf hb
  rw [sub_eq (ne_nan_of_fin ha) (ne_nan_of_fin hb), ha, hb, sub_eq_add_neg, ← finiteValue_not]
  exact sumOf_computes hf env n1 (!n2) hu hv he1 he2

/-! ### The product (R902, R908) -/

theorem mul_computes (hf : WellSized f) (env : FpEnv) (ha : f.value a = .fin n1 m1 e1) (hb : f.value b = .fin n2 m2 e2) :
    Computes f env true (finiteValue n1 m1 e1 * finiteValue n2 m2 e2) (f.mul env a b) := by
  have hp := hf.precision
  have adjust := hf.adjustGe
  have emin := f.emin_eq
  obtain ⟨small, least⟩ := value_bounds_mul (neg := n1 ^^ n2) hf ha hb
  rw [mul_eq (ne_nan_of_fin ha) (ne_nan_of_fin hb), ha, hb, ← finiteValue_mul]
  refine deliverOrZero_computes hf env _ (signOf_finiteValue _ _ _) (abs_finiteValue _ _ _) fun nonzero _ =>
    ⟨rfl, unit_le_abs (abs_finiteValue _ _ _) nonzero (by omega), ?_⟩
  exact small.trans_le (zpow_le_zpow_right₀ one_le_two (by omega))

theorem fused_computes (hf : WellSized f) (env : FpEnv) (negate : Bool) {n3 : Bool} {m3 : Nat} {e3 : Int} (ha : f.value a = .fin n1 m1 e1)
    (hb : f.value b = .fin n2 m2 e2) (hc : f.value c = .fin n3 m3 e3) :
    Computes f env true ((if negate then -(finiteValue n1 m1 e1 * finiteValue n2 m2 e2) else finiteValue n1 m1 e1 * finiteValue n2 m2 e2) + finiteValue n3 m3 e3)
      (f.fused env negate a b c) := by
  obtain ⟨hv, he3⟩ := value_bounds_sum hf hc
  rw [fused_eq negate (ne_nan_of_fin ha) (ne_nan_of_fin hb) (ne_nan_of_fin hc), ha, hb, hc, ← finiteValue_mul]
  cases negate with
  | false =>
    obtain ⟨hu, he⟩ := value_bounds_mul (neg := n1 ^^ n2) hf ha hb
    exact sumOf_computes hf env _ n3 hu hv he he3
  | true =>
    obtain ⟨hu, he⟩ := value_bounds_mul (neg := !(n1 ^^ n2)) hf ha hb
    rw [if_pos rfl, ← finiteValue_not]
    exact sumOf_computes hf env _ n3 hu hv he he3

/-! ### Results that are cut to more than p bits (R885, R903) -/

/-- A magnitude cut to an integer of more than p bits, doubled, with a last bit for what was cut off. -/
theorem represents_sticky {n : Nat} {s : Bool} (sign : SignOf v neg) (magnitude : |v| = t * 2 ^ (e + 1)) (low : n ≤ t) (high : t < n + 1)
    (hs : s = true ↔ t = n) (bits : 2 ^ f.p ≤ n) : Represents f neg (2 * n + (if s then 0 else 1)) e v := by
  have positive : 0 < 2 ^ f.p := Nat.two_pow_pos _
  have tPositive : 0 < t := low.trans_lt' (by exact_mod_cast positive.trans_le bits)
  obtain ⟨r, hr⟩ : ∃ r, r = 2 * n + (if s then 0 else 1) := ⟨_, rfl⟩
  have length : f.p + 1 ≤ r.log2 := by
    refine (Nat.le_log2 (by omega)).2 ?_
    rw [pow_succ]
    omega
  obtain ⟨j, hj⟩ : ∃ j : Nat, ((r.log2 : Int) + 1 + e - f.p) = e + 2 + j := ⟨r.log2 - 1 - f.p, by omega⟩
  have unit : (2 : ℝ) ^ (e + 2 + (j : Int)) = 2 ^ e * 4 * 2 ^ j := by
    rw [zpow_add₀ two_ne_zero, zpow_add₀ two_ne_zero, zpow_natCast]
    norm_num
  have sticky := sameHalves_sticky low high
  rw [show (if t = n then 0 else 1) = (if s then 0 else 1 : Nat) from if_congr hs.symm rfl rfl, ← hr] at sticky
  rw [← hr]
  refine ⟨sign, ?_, by omega, ?_⟩
  · rintro rfl
    rw [abs_zero] at magnitude
    exact (mul_pos tPositive (zpow_pos two_pos _)).ne magnitude
  · rw [hj, unit, magnitude, zpow_add_one₀ two_ne_zero]
    have given : (r : ℝ) * 2 ^ e / (2 ^ e * 4 * 2 ^ j) = r / 4 / 2 ^ j := by field_simp
    have wanted : t * (2 ^ e * 2) / (2 ^ e * 4 * 2 ^ j) = t / 2 / 2 ^ j := by
      field_simp
      norm_num
    rw [given, wanted]
    exact sticky.symm.div_two_pow j

/-- The quotient of two significands. -/
theorem quotient_represents (sign : SignOf v neg) (h1 : m1 ≠ 0) (h2 : m2 ≠ 0) (magnitude : |v| = m1 / m2 * 2 ^ e) :
    Represents f neg (quotient f.p m1 m2).1 (e + (quotient f.p m1 m2).2) v := by
  obtain ⟨x, hx⟩ : ∃ x, x = m1 <<< (f.p + 3 + m2.log2) := ⟨_, rfl⟩
  have split : quotient f.p m1 m2 = (2 * (x / m2) + (if x % m2 = 0 then 0 else 1), -((f.p + 3 + m2.log2 : Nat) : Int) - 1) := by rw [hx, quotient]
  have cast : (x : ℝ) = m1 * 2 ^ (f.p + 3 + m2.log2) := by
    rw [hx, Nat.shiftLeft_eq]
    push_cast
    rfl
  have divisor : (0 : ℝ) < m2 := by exact_mod_cast Nat.pos_of_ne_zero h2
  have parts : (x : ℝ) / m2 = (x / m2 : Nat) + ((x % m2 : Nat) : ℝ) / m2 := by
    have joined : (x : ℝ) = m2 * (x / m2 : Nat) + (x % m2 : Nat) := by exact_mod_cast (Nat.div_add_mod x m2).symm
    field_simp
    linarith
  obtain ⟨nonneg, less⟩ := fraction_bounds (Nat.mod_lt x (Nat.pos_of_ne_zero h2))
  have bits : 2 ^ f.p ≤ x / m2 := by
    rw [Nat.le_div_iff_mul_le (Nat.pos_of_ne_zero h2), hx, Nat.shiftLeft_eq]
    calc 2 ^ f.p * m2 ≤ 2 ^ f.p * 2 ^ (m2.log2 + 1) := Nat.mul_le_mul_left _ Nat.lt_log2_self.le
      _ ≤ 2 ^ (f.p + 3 + m2.log2) := by rw [← pow_add]; exact Nat.pow_le_pow_right two_pos (by omega)
      _ ≤ m1 * 2 ^ (f.p + 3 + m2.log2) := Nat.le_mul_of_pos_left _ (Nat.pos_of_ne_zero h1)
  have exact : decide (x % m2 = 0) = true ↔ (x : ℝ) / m2 = (x / m2 : Nat) := by
    rw [decide_eq_true_iff, parts, add_eq_left, div_eq_zero_iff, or_iff_left divisor.ne', Nat.cast_eq_zero]
  have scale : |v| = (x : ℝ) / m2 * 2 ^ (e + (-((f.p + 3 + m2.log2 : Nat) : Int) - 1) + 1) := by
    rw [magnitude, cast, show e + (-((f.p + 3 + m2.log2 : Nat) : Int) - 1) + 1 = e - (f.p + 3 + m2.log2 : Nat) by ring, zpow_sub₀ two_ne_zero, zpow_natCast]
    field_simp
  have represents := represents_sticky (f := f) sign scale (by rw [parts]; linarith) (by rw [parts]; linarith) exact bits
  rw [split]
  simpa using represents

end

end Sys2Proof.Machine
end

section
/-! SUPPORT. The quotient, the square root and the conversions to a floating-point format, for O59. -/

namespace Sys2Proof.Machine

section
variable {f g : Fmt} {env : FpEnv} {neg n1 n2 : Bool} {a b m m1 m2 : Nat} {e e1 e2 : Int} {u v : ℝ}

/-! ### The quotient (50_fp_instructions.md R903) -/

theorem div_eq (ha : f.value a ≠ .nan) (hb : f.value b ≠ .nan) : f.div env a b =
    match f.value a, f.value b with
    | .inf _, .inf _ => env.invalid f.newNan
    | .inf n1, .fin n2 _ _ => .value (f.infinity (n1 ^^ n2)) 0#5
    | .fin n1 _ _, .inf n2 => .value (f.zero (n1 ^^ n2)) 0#5
    | .fin n1 m1 e1, .fin n2 m2 e2 =>
      if m2 = 0 then
        if m1 = 0 then env.invalid f.newNan
        else if env.traps fpZ then .trapped 0b010000#6 none 0#5
        else .value (f.infinity (n1 ^^ n2)) fpZ
      else if m1 = 0 then .value (f.zero (n1 ^^ n2)) 0#5
      else f.deliver env false (n1 ^^ n2) (quotient f.p m1 m2).1 (e1 - e2 + (quotient f.p m1 m2).2)
    | _, _ => .value f.newNan 0#5 := by
  rw [Fmt.div, nanResult_none (by simp [ha, hb])]
  rfl

theorem SignOf.div (hu : SignOf u n1) (hv : SignOf v n2) (hu0 : u ≠ 0) (hv0 : v ≠ 0) : SignOf (u / v) (n1 ^^ n2) := by
  obtain ⟨rfl, u0⟩ | ⟨rfl, u0⟩ := hu.cases hu0 <;> obtain ⟨rfl, v0⟩ | ⟨rfl, v0⟩ := hv.cases hv0
  · exact ⟨fun _ => rfl, fun less => absurd less (div_pos u0 v0).not_gt⟩
  · exact ⟨fun more => absurd more (div_neg_of_pos_of_neg u0 v0).not_gt, fun _ => rfl⟩
  · exact ⟨fun more => absurd more (div_neg_of_neg_of_pos u0 v0).not_gt, fun _ => rfl⟩
  · exact ⟨fun _ => rfl, fun less => absurd less (div_pos_of_neg_of_neg u0 v0).not_gt⟩

theorem div_computes (hf : WellSized f) (env : FpEnv) (ha : f.value a = .fin n1 m1 e1) (hb : f.value b = .fin n2 m2 e2) (h2 : finiteValue n2 m2 e2 ≠ 0) :
    Computes f env true (finiteValue n1 m1 e1 / finiteValue n2 m2 e2) (f.div env a b) := by
  have hp := hf.precision
  have adjust := hf.adjustGe
  have emin := f.emin_eq
  have hm2 : m2 ≠ 0 := finiteValue_ne_zero_iff.1 h2
  have result := div_eq (env := env) (ne_nan_of_fin ha) (ne_nan_of_fin hb)
  rw [ha, hb] at result
  simp only [if_neg hm2] at result
  rw [result]
  split
  next zero =>
    obtain ⟨-, grid, value⟩ := isZero_zero hf (n1 ^^ n2)
    rw [zero, finiteValue, Nat.cast_zero, mul_zero, zero_mul, zero_div]
    exact zero_computes env true value
  next hm1 =>
    have h1 : finiteValue n1 m1 e1 ≠ 0 := finiteValue_ne_zero_iff.2 hm1
    have magnitude : |finiteValue n1 m1 e1 / finiteValue n2 m2 e2| = m1 / m2 * 2 ^ (e1 - e2) := by
      rw [abs_div, abs_finiteValue, abs_finiteValue, zpow_sub₀ two_ne_zero]
      field_simp
    obtain ⟨least1, -, most1⟩ := value_bounds hf ha
    obtain ⟨least2, -, most2⟩ := value_bounds hf hb
    have low1 := unit_le_abs (abs_finiteValue n1 m1 e1) h1 least1
    have low2 := unit_le_abs (abs_finiteValue n2 m2 e2) h2 least2
    rw [← abs_finiteValue n1] at most1
    rw [← abs_finiteValue n2] at most2
    have divisor : 0 < |finiteValue n2 m2 e2| := abs_pos.2 h2
    refine deliver_computes hf env (quotient_represents ((signOf_finiteValue _ _ _).div (signOf_finiteValue _ _ _) h1 h2) hm1 hm2 magnitude)
      fun _ => ⟨rfl, ?_, ?_⟩
    · rw [abs_div, le_div_iff₀ divisor]
      calc (2 : ℝ) ^ (f.emin - f.adjust) * |finiteValue n2 m2 e2| ≤ 2 ^ (f.emin - f.adjust) * 2 ^ (f.emax + 1) :=
            mul_le_mul_of_nonneg_left most2.le (by positivity)
        _ = 2 ^ (f.emin - f.adjust + (f.emax + 1)) := (zpow_add₀ two_ne_zero _ _).symm
        _ ≤ 2 ^ (f.emin - (f.p - 1)) := zpow_le_zpow_right₀ one_le_two (by omega)
        _ ≤ |finiteValue n1 m1 e1| := low1
    · rw [abs_div, div_lt_iff₀ divisor]
      calc |finiteValue n1 m1 e1| < 2 ^ (f.emax + 1) := most1
        _ ≤ 2 ^ (f.emax + f.adjust + (f.emin - (f.p - 1))) := zpow_le_zpow_right₀ one_le_two (by omega)
        _ = 2 ^ (f.emax + f.adjust) * 2 ^ (f.emin - (f.p - 1)) := zpow_add₀ two_ne_zero _ _
        _ ≤ 2 ^ (f.emax + f.adjust) * |finiteValue n2 m2 e2| := mul_le_mul_of_nonneg_left low2 (by positivity)

/-! ### The square root (R885) -/

theorem sqrt_eq (ha : f.value a ≠ .nan) : f.sqrt env a =
    match f.value a with
    | .inf neg => if neg then env.invalid f.newNan else .value a 0#5
    | .fin neg m e =>
      if m = 0 then .value a 0#5
      else if neg then env.invalid f.newNan
      else
        let v := if e % 2 = 0 then squareRoot f.p m e else squareRoot f.p (2 * m) (e - 1)
        f.deliver env false false v.1 v.2
    | .nan => .value a 0#5 := by
  rw [Fmt.sqrt, nanResult_none (by simp [ha])]
  rfl

/-- The bits of an integer square root, from bit `n` down. -/
theorem isqrt_spec (n x : Nat) : ∀ acc, acc * acc ≤ x → x < (acc + 2 ^ (n + 1)) * (acc + 2 ^ (n + 1)) →
    isqrt n x acc * isqrt n x acc ≤ x ∧ x < (isqrt n x acc + 1) * (isqrt n x acc + 1) := by
  induction n with
  | zero =>
    intro acc low high
    rw [isqrt]
    split
    next next => exact ⟨next, high⟩
    next last => exact ⟨low, not_le.1 last⟩
  | succ n ih =>
    intro acc low high
    rw [isqrt]
    split
    next set =>
      refine ih _ set ?_
      rwa [Nat.add_assoc, ← Nat.two_mul, ← pow_succ']
    next clear => exact ih _ low (not_le.1 clear)

theorem isqrt_zero (x : Nat) : isqrt (x.log2 / 2 + 1) x 0 * isqrt (x.log2 / 2 + 1) x 0 ≤ x ∧
    x < (isqrt (x.log2 / 2 + 1) x 0 + 1) * (isqrt (x.log2 / 2 + 1) x 0 + 1) := by
  refine isqrt_spec _ x 0 (Nat.zero_le x) ?_
  calc x < 2 ^ (x.log2 + 1) := Nat.lt_log2_self
    _ ≤ 2 ^ (x.log2 / 2 + 1 + 1 + (x.log2 / 2 + 1 + 1)) := Nat.pow_le_pow_right two_pos (by omega)
    _ = (0 + 2 ^ (x.log2 / 2 + 1 + 1)) * (0 + 2 ^ (x.log2 / 2 + 1 + 1)) := by rw [Nat.zero_add, pow_add]

/-- The square root of a number with an even exponent. -/
theorem squareRoot_represents (f : Fmt) {i : Int} (hm : m ≠ 0) (he : e = 2 * i) :
    Represents f false (squareRoot f.p m e).1 (squareRoot f.p m e).2 (Real.sqrt (m * 2 ^ e)) := by
  obtain ⟨k, hk⟩ : ∃ k, k = f.p + 3 := ⟨_, rfl⟩
  obtain ⟨x, hx⟩ : ∃ x, x = m <<< (2 * k) := ⟨_, rfl⟩
  obtain ⟨r, hr⟩ : ∃ r, r = isqrt (x.log2 / 2 + 1) x 0 := ⟨_, rfl⟩
  have split : squareRoot f.p m e = (2 * r + (if r * r = x then 0 else 1), i - k - 1) := by
    rw [hr, hx, hk, squareRoot, he, Int.mul_ediv_cancel_left i two_ne_zero]
  obtain ⟨low, high⟩ : r * r ≤ x ∧ x < (r + 1) * (r + 1) := hr ▸ isqrt_zero x
  have cast : (x : ℝ) = m * (2 ^ k) ^ 2 := by
    rw [hx, Nat.shiftLeft_eq, Nat.mul_comm 2 k, pow_mul]
    push_cast
    rfl
  have given : (m : ℝ) * 2 ^ e = x * (2 ^ (i - k) * 2 ^ (i - k)) := by
    rw [cast, he, zpow_sub₀ two_ne_zero, zpow_natCast, two_mul, zpow_add₀ two_ne_zero]
    field_simp
  have root : Real.sqrt (m * 2 ^ e) = Real.sqrt x * 2 ^ (i - k) := by
    rw [given, Real.sqrt_mul (Nat.cast_nonneg x), Real.sqrt_mul_self (by positivity)]
  have magnitude : |Real.sqrt (m * 2 ^ e)| = Real.sqrt x * 2 ^ (i - k - 1 + 1) := by
    rw [abs_of_nonneg (Real.sqrt_nonneg _), root, Int.sub_add_cancel]
  have lowRoot : (r : ℝ) ≤ Real.sqrt x := Real.le_sqrt_of_sq_le (by rw [pow_two]; exact_mod_cast low)
  have highRoot : Real.sqrt x < r + 1 := (Real.sqrt_lt' (by positivity)).2 (by rw [pow_two]; exact_mod_cast high)
  have exact : decide (r * r = x) = true ↔ Real.sqrt x = r := by
    rw [decide_eq_true_iff, Real.sqrt_eq_iff_mul_self_eq (Nat.cast_nonneg x) (Nat.cast_nonneg r), eq_comm]
    exact_mod_cast Iff.rfl
  have bits : 2 ^ f.p ≤ r := by
    have large : 2 ^ k * 2 ^ k ≤ x := by
      rw [hx, Nat.shiftLeft_eq, two_mul, pow_add]
      exact Nat.le_mul_of_pos_left _ (Nat.pos_of_ne_zero hm)
    have next : 2 ^ k < r + 1 := Nat.mul_self_lt_mul_self_iff.1 (large.trans_lt high)
    exact (Nat.pow_le_pow_right two_pos (by omega)).trans (Nat.lt_succ_iff.1 next)
  have sign : SignOf (Real.sqrt (m * 2 ^ e)) false := ⟨fun _ => rfl, fun less => absurd less (Real.sqrt_nonneg _).not_gt⟩
  have represents := represents_sticky (f := f) sign magnitude lowRoot highRoot exact bits
  rw [split]
  simpa using represents

theorem sqrt_computes (hf : WellSized f) (env : FpEnv) (ha : f.value a = .fin neg m e) (nonneg : 0 ≤ finiteValue neg m e) :
    Computes f env true (Real.sqrt (finiteValue neg m e)) (f.sqrt env a) := by
  have hp := hf.precision
  have adjust := hf.adjustGe
  have emin := f.emin_eq
  have range := hf.range
  rw [sqrt_eq (ne_nan_of_fin ha), ha]
  dsimp only
  split
  next zero =>
    subst zero
    rw [finiteValue, Nat.cast_zero, mul_zero, zero_mul, Real.sqrt_zero]
    exact zero_computes env true ha
  next hm =>
    have nonzero : finiteValue neg m e ≠ 0 := finiteValue_ne_zero_iff.2 hm
    obtain ⟨rfl, positive⟩ | ⟨rfl, less⟩ := (signOf_finiteValue neg m e).cases nonzero
    · have value : finiteValue false m e = m * 2 ^ e := by rw [finiteValue, if_neg Bool.false_ne_true, one_mul]
      obtain ⟨least, -, most⟩ := value_bounds hf ha
      have low := unit_le_abs (abs_finiteValue false m e) nonzero least
      rw [abs_of_pos positive] at low
      rw [← value] at most
      have adjustable : Adjustable f (Real.sqrt (finiteValue false m e)) := by
        rw [Adjustable, abs_of_nonneg (Real.sqrt_nonneg _)]
        constructor
        · refine Real.le_sqrt_of_sq_le (le_trans ?_ low)
          rw [pow_two, ← zpow_add₀ two_ne_zero]
          exact zpow_le_zpow_right₀ one_le_two (by omega)
        · refine (Real.sqrt_lt' (by positivity)).2 (most.trans_le ?_)
          rw [pow_two, ← zpow_add₀ two_ne_zero]
          exact zpow_le_zpow_right₀ one_le_two (by omega)
      rw [if_neg Bool.false_ne_true]
      split
      next even =>
        refine deliver_computes hf env ?_ fun _ => ⟨rfl, adjustable⟩
        rw [value]
        exact squareRoot_represents f hm (show e = 2 * (e / 2) by omega)
      next odd =>
        have double : finiteValue false m e = ((2 * m : Nat) : ℝ) * 2 ^ (e - 1) := by
          rw [value, zpow_sub_one₀ two_ne_zero]
          push_cast
          field_simp
        refine deliver_computes hf env ?_ fun _ => ⟨rfl, adjustable⟩
        rw [double]
        exact squareRoot_represents f (by omega) (show e - 1 = 2 * (e / 2) by omega)
    · exact absurd nonneg less.not_ge

/-! ### The conversions to a floating-point format (R889, R890) -/

theorem convertFloat_computes (hg : WellSized g) (env : FpEnv) (ha : f.value a = .fin neg m e) :
    Computes g env false (finiteValue neg m e) (convertFloat f g env a) := by
  rw [convertFloat, ha]
  exact deliverOrZero_computes hg env _ (signOf_finiteValue neg m e) (abs_finiteValue neg m e) fun _ impossible => absurd impossible Bool.false_ne_true

theorem convertInteger_computes (hf : WellSized f) (env : FpEnv) {n : Int} (small : n.natAbs ≤ 2 ^ 127) (beyond : Nat) :
    Computes f env false n (convertInteger f env n beyond) := by
  have hp := hf.precision
  have magnitude : |(n : ℝ)| = n.natAbs * 2 ^ (0 : Int) := by rw [zpow_zero, mul_one, Nat.cast_natAbs, Int.cast_abs]
  have sign : SignOf (n : ℝ) (decide (n < 0)) :=
    ⟨fun more => decide_eq_false (by have : 0 < n := by exact_mod_cast more
                                     omega), fun less => decide_eq_true (by exact_mod_cast less)⟩
  have inside : ¬(n ≠ 0 ∧ f.emax < ((roundAt env.rm (decide (n < 0)) n.natAbs 0 ((n.natAbs.log2 : Int) + 1 - f.p)).log2 : Int) + ((n.natAbs.log2 : Int) + 1 - f.p)) := by
    rintro ⟨nonzero, above⟩
    have represents : Represents f (decide (n < 0)) n.natAbs 0 n := .of_eq sign (by omega) magnitude
    have rounded := represents.rounded (by omega) env.rm (q := (n.natAbs.log2 : Int) + 1 - f.p) (by omega)
    have overflows := (rounded.overflows_iff hf).2 above
    rw [overflows_iff sign (by exact_mod_cast nonzero)] at overflows
    refine not_exceeds_of_le (by omega) ?_ overflows
    calc |(n : ℝ)| ≤ ((2 ^ 127 : Nat) : ℝ) := by rw [magnitude, zpow_zero, mul_one]; exact_mod_cast small
      _ = 2 ^ (127 : Int) := by norm_num
      _ ≤ 2 ^ f.emax := zpow_le_zpow_right₀ one_le_two hf.range
  rw [convertInteger]
  rw [if_neg inside]
  exact deliverOrZero_computes hf env _ sign magnitude fun _ impossible => absurd impossible Bool.false_ne_true

end

end Sys2Proof.Machine
end

section
/-! SUPPORT. The sign operations, the rounding to an integer and the NaNs, for O59. -/

namespace Sys2Proof.Machine

/-! ### Copies and sign operations (50_fp_instructions.md R881 to R884) -/

theorem bits_eq (z : FpSize) : z.fmt.p + z.fmt.ew = z.bits := by cases z <;> rfl

theorem signWeight_eq (z : FpSize) : signWeight z.fmt = 2 ^ (z.bits - 1) := by cases z <;> rfl

/-- A bit above a number, set by adding it. -/
theorem or_two_pow_of_lt {a n : Nat} (h : a < 2 ^ n) : a ||| 2 ^ n = a + 2 ^ n := by
  have joined := Nat.two_pow_add_eq_or_of_lt h 1
  rw [Nat.mul_one] at joined
  rw [Nat.or_comm, ← joined, Nat.add_comm]

theorem xor_two_pow_of_lt {a n : Nat} (h : a < 2 ^ n) : a ^^^ 2 ^ n = a + 2 ^ n := by
  rw [← or_two_pow_of_lt h]
  refine Nat.eq_of_testBit_eq fun i => ?_
  rw [Nat.testBit_xor, Nat.testBit_or, Nat.testBit_two_pow]
  by_cases hi : n = i
  · rw [← hi, Nat.testBit_lt_two_pow h, Bool.false_xor, Bool.false_or]
  · rw [decide_eq_false hi, Bool.xor_false, Bool.or_false]

/-- The sign bit of a pattern, complemented. -/
theorem xor_sign {a n : Nat} (h : a < 2 ^ (n + 1)) : a ^^^ 2 ^ n = a % 2 ^ n + (if a < 2 ^ n then 2 ^ n else 0) := by
  split
  next positive => rw [Nat.mod_eq_of_lt positive, xor_two_pow_of_lt positive]
  next negative =>
    obtain ⟨b, rfl⟩ := Nat.exists_eq_add_of_le' (not_lt.1 negative)
    have low : b < 2 ^ n := by
      rw [pow_succ] at h
      omega
    rw [Nat.add_mod_right, Nat.mod_eq_of_lt low, ← xor_two_pow_of_lt low, Nat.xor_assoc, Nat.xor_self, Nat.xor_zero, add_zero]

/-- And set. -/
theorem or_sign {a n : Nat} (h : a < 2 ^ (n + 1)) : a ||| 2 ^ n = a % 2 ^ n + 2 ^ n := by
  obtain positive | negative := lt_or_ge a (2 ^ n)
  · rw [Nat.mod_eq_of_lt positive, or_two_pow_of_lt positive]
  · obtain ⟨b, rfl⟩ := Nat.exists_eq_add_of_le' negative
    have low : b < 2 ^ n := by
      rw [pow_succ] at h
      omega
    rw [Nat.add_mod_right, Nat.mod_eq_of_lt low, ← or_two_pow_of_lt low, Nat.or_assoc, Nat.or_self]

theorem sign_operations (z : FpSize) (env : FpEnv) {a sign : Nat} (ha : a < 2 ^ z.bits) (hs : sign = 2 ^ (z.bits - 1)) :
    copyBits z.fmt env a = .value a 0#5 ∧
    absBits z.fmt env a = .value (a % sign) 0#5 ∧
    negBits z.fmt env a = .value (a % sign + (if a < sign then sign else 0)) 0#5 ∧
    negAbsBits z.fmt env a = .value (a % sign + sign) 0#5 := by
  have wide : z.bits - 1 + 1 = z.bits := by cases z <;> rfl
  rw [← wide] at ha
  rw [copyBits, absBits, negBits, negAbsBits, signWeight_eq, hs, xor_sign ha, or_sign ha]
  exact ⟨rfl, rfl, rfl, rfl⟩

/-! ### The rounding to an integer (R886) -/

section
variable {f : Fmt} {env : FpEnv} {neg : Bool} {a m k : Nat} {e : Int} {u : ℝ}

theorem round_eq (ha : f.value a ≠ .nan) : f.round env a =
    match f.value a with
    | .fin neg m e =>
      if exactAt m e 0 then .value a 0#5
      else env.inexactly (if roundAt env.rm neg m e 0 = 0 then f.zero neg else f.pack neg (roundAt env.rm neg m e 0) 0) 0#5
    | _ => .value a 0#5 := by
  rw [Fmt.round, nanResult_none (by simp [ha])]
  rfl

/-- An integer value is what its rounding gives back. -/
theorem exactAt_zero_of_integer {j : Int} (h : finiteValue neg m e = j) : exactAt m e 0 = true := by
  rw [exactAt_iff]
  refine ⟨j.natAbs, ?_⟩
  rw [zpow_zero, div_one, ← abs_finiteValue neg, h, Nat.cast_natAbs, Int.cast_abs]

/-- The pattern of an integer that the format holds. -/
theorem integer_value (hf : WellSized f) (neg : Bool) (hk : k < 2 ^ f.p) : ∃ k' q', (if k = 0 then f.zero neg else f.pack neg k 0) < 2 ^ (f.p + f.ew) ∧
    f.value (if k = 0 then f.zero neg else f.pack neg k 0) = .fin neg k' q' ∧ (k' : ℝ) * 2 ^ q' = k := by
  split
  next zero =>
    obtain ⟨bound, grid, value⟩ := isZero_zero hf neg
    exact ⟨0, grid, bound, value, by rw [zero, Nat.cast_zero, zero_mul]⟩
  next nonzero =>
    have hp := hf.precision
    have fits := hf.precisionLe
    have emin := f.emin_eq
    have small : k.log2 < f.p := (Nat.log2_lt nonzero).2 hk
    obtain ⟨bound, value⟩ := value_pack hf neg (q := 0) rfl nonzero (by omega) (by omega) (by omega)
    refine ⟨_, _, bound, value, ?_⟩
    rw [zero_sub, zpow_neg, zpow_natCast]
    push_cast
    field_simp

/-- What the mode makes of a number, as FRND's rule writes it. -/
theorem roundsInt_cases {rm : BitVec 2} {j : Int} (h : RoundsInt rm u j) :
    (rm = 0#2 → abs (u - j) ≤ 1 / 2 ∧ (abs (u - j) = 1 / 2 → j % 2 = 0)) ∧ (rm = 1#2 → abs (j : ℝ) ≤ abs u ∧ abs (u - j) < 1) ∧
    (rm = 2#2 → j = ⌈u⌉) ∧ (rm = 3#2 → j = ⌊u⌋) := by
  obtain ⟨nearest, zero, up, down⟩ := h
  refine ⟨?_, fun hrm => ?_, fun hrm => ?_, fun hrm => ?_⟩
  · rwa [abs_sub_comm]
  · obtain ⟨le, lt, same⟩ := zero hrm
    refine ⟨le, ?_⟩
    have apart : abs (u - j) = abs u - abs (j : ℝ) := by
      obtain ⟨hj, hu⟩ | ⟨hj, hu⟩ := mul_nonneg_iff.1 same
      · rw [abs_of_nonneg hj, abs_of_nonneg hu] at le ⊢
        exact abs_of_nonneg (by linarith)
      · rw [abs_of_nonpos hj, abs_of_nonpos hu] at le ⊢
        rw [abs_of_nonpos (by linarith)]
        ring
    linarith
  · obtain ⟨le, lt⟩ := up hrm
    exact (Int.ceil_eq_iff.2 ⟨by linarith, le⟩).symm
  · obtain ⟨le, lt⟩ := down hrm
    exact (Int.floor_eq_iff.2 ⟨le, lt⟩).symm

theorem round_rounds (z : FpSize) (env : FpEnv) (ha : z.fmt.value a = .fin neg m e) (fraction : ∀ j : Int, finiteValue neg m e ≠ j) :
    ∃ (j : Int) (bits k : Nat) (q : Int), bits < 2 ^ z.bits ∧ z.fmt.value bits = .fin neg k q ∧
      (j : ℝ) = (if neg then -1 else 1) * k * 2 ^ q ∧ RoundsInt env.rm (finiteValue neg m e) j ∧
      z.fmt.round env a = (if env.traps fpI then .trapped 0b000010#6 (some bits) 0#5 else .value bits fpI) := by
  have hf := wellSized_fmt z
  obtain ⟨k, hk⟩ : ∃ k, k = roundAt env.rm neg m e 0 := ⟨_, rfl⟩
  have inexact : ¬exactAt m e 0 = true := fun exact => fraction _ ((exactAt_zero_iff env.rm neg m e).1 exact).symm
  have finer : e < 0 := by
    rw [exactAt, Bool.or_eq_true, decide_eq_true_iff, not_or] at inexact
    omega
  obtain ⟨-, small, -⟩ := value_bounds hf ha
  have most : k ≤ m := by
    rw [hk]
    refine (roundAt_roundsTo env.rm neg m e 0).le_of_ge ?_
    rw [zpow_zero, div_one]
    exact mul_le_of_le_one_right (Nat.cast_nonneg m) (zpow_le_one_of_nonpos₀ one_le_two finer.le)
  obtain ⟨k', q', bound, value, same⟩ := integer_value hf neg (most.trans_lt small)
  refine ⟨signedNat neg k, _, k', q', bits_eq z ▸ bound, value, ?_, hk ▸ roundAt_roundsInt env.rm neg m e, ?_⟩
  · rw [mul_assoc, same, signedNat]
    cases neg <;> simp
  · rw [round_eq (ne_nan_of_fin ha), ha]
    dsimp only
    rw [if_neg inexact, ← hk]
    rfl

end

/-! ### NaNs (49_floating_point.md R854, R856) -/

section
variable {f g : Fmt} {env : FpEnv} {w : Nat}

theorem isNan_iff : f.isNan w = true ↔ f.value w = .nan := by
  refine ⟨value_of_isNan, fun h => ?_⟩
  rw [Fmt.isNan, Bool.and_eq_true, beq_iff_eq, bne_iff_ne]
  rw [value_eq rfl rfl rfl] at h
  split_ifs at h with top zero
  exact ⟨top, zero⟩

theorem isSignaling_iff : f.isSignaling w = true ↔ IsSignaling f w := by
  rw [Fmt.isSignaling, Bool.and_eq_true, isNan_iff, IsSignaling]

theorem invalid_gives {bits : Nat} {good : Nat → Prop} (h : good bits) : GivesInvalid env good (env.invalid bits) :=
  ⟨invalid_trapped, fun off => ⟨bits, h, invalid_value off⟩⟩

/-- A pattern with the NaNs' exponent and a fraction that is not 0. -/
theorem assemble_nan (hf : WellSized f) (neg : Bool) {y : Nat} (hy : y < 2 ^ (f.p - 1)) (nonzero : y ≠ 0) :
    f.assemble neg f.topExponent y < 2 ^ (f.p + f.ew) ∧ f.value (f.assemble neg f.topExponent y) = .nan ∧
      f.negative (f.assemble neg f.topExponent y) = neg ∧ f.fraction (f.assemble neg f.topExponent y) = y := by
  have hp := hf.precision
  obtain ⟨-, fraction, negative⟩ := fields_assemble (f := f) (neg := neg) (topExponent_lt f) hy
  refine ⟨assemble_lt (by omega) (topExponent_lt f) hy, ?_, negative, fraction⟩
  rw [value_assemble (topExponent_lt f) hy, if_pos rfl, if_neg nonzero]

/-- A fraction with its first bit cleared and the second perhaps set. -/
theorem testBit_quiet (y n i : Nat) (b : Bool) : (if b then y ||| 2 ^ n else y).testBit i = (y.testBit i || (b && decide (n = i))) := by
  cases b with
  | false => simp
  | true => rw [if_pos rfl, Nat.testBit_or, Nat.testBit_two_pow, Bool.true_and]

/-- The quieted NaN (R854). -/
theorem quiets_quiet (hf : WellSized f) (w : Nat) : Quiets f w (f.quiet w) := by
  have hp := hf.precision
  obtain ⟨y, hy⟩ : ∃ y, y = f.fraction w % 2 ^ (f.p - 2) := ⟨_, rfl⟩
  obtain ⟨b, hb⟩ : ∃ b, b = (decide (y = 0) || Config.fpQuietSetsB2) := ⟨_, rfl⟩
  obtain ⟨r, hr⟩ : ∃ r, r = if b then y ||| 2 ^ (f.p - 3) else y := ⟨_, rfl⟩
  have quiet : f.quiet w = f.assemble (f.negative w) f.topExponent r := by
    rw [hr, hb, hy, Fmt.quiet]
  have bit (i : Nat) : r.testBit i = (y.testBit i || (b && decide (f.p - 3 = i))) := by rw [hr, testBit_quiet]
  have small : y < 2 ^ (f.p - 2) := hy ▸ Nat.mod_lt _ (Nat.two_pow_pos _)
  have low : r < 2 ^ (f.p - 2) := by
    rw [hr]
    split
    · exact Nat.or_lt_two_pow small (Nat.pow_lt_pow_right one_lt_two (by omega))
    · exact small
  have nonzero : r ≠ 0 := by
    by_cases zero : y = 0
    · have top : r.testBit (f.p - 3) = true := by
        rw [bit, hb, decide_eq_true zero, Bool.true_or, decide_eq_true rfl, Bool.and_self, Bool.or_true]
      rintro rfl
      rw [Nat.zero_testBit] at top
      cases top
    · rw [hr]
      split
      · exact fun h => zero (Nat.or_eq_zero_iff.1 h).1
      · exact zero
  obtain ⟨bound, value, negative, fraction⟩ := assemble_nan hf (f.negative w) (low.trans (Nat.pow_lt_pow_right one_lt_two (by omega))) nonzero
  rw [← quiet] at bound value negative fraction
  have kept (i : Nat) (hi : i < f.p - 2) : y.testBit i = (f.fraction w).testBit i := by
    rw [hy, Nat.testBit_mod_two_pow, decide_eq_true hi, Bool.true_and]
  refine ⟨bound, value, negative, ?_, ?_, fun i hi => ?_⟩
  · rw [fraction, Nat.testBit_lt_two_pow low]
  · rw [fraction, bit, kept _ (by omega), hb, hy, decide_eq_true rfl, Bool.and_true, Bool.or_assoc]
  · rw [fraction, bit, kept i (by omega), decide_eq_false (show ¬f.p - 3 = i by omega), Bool.and_false, Bool.or_false]

/-- The rule leaves no choice of the sign and the fraction. -/
theorem Quiets.unique {q r : Nat} (hq : Quiets f w q) (hr : Quiets f w r) : f.negative q = f.negative r ∧ f.fraction q = f.fraction r := by
  obtain ⟨-, -, sign1, first1, second1, rest1⟩ := hq
  obtain ⟨-, -, sign2, first2, second2, rest2⟩ := hr
  refine ⟨sign1.trans sign2.symm, Nat.eq_of_testBit_eq fun i => ?_⟩
  have beyond (x : Nat) (hi : f.p - 1 ≤ i) : (f.fraction x).testBit i = false :=
    Nat.testBit_lt_two_pow ((Nat.mod_lt x (unit_pos f)).trans_le (Nat.pow_le_pow_right two_pos hi))
  obtain hi | rfl | rfl | hi : i < f.p - 3 ∨ i = f.p - 3 ∨ i = f.p - 2 ∨ f.p - 1 ≤ i := by omega
  · rw [rest1 i hi, rest2 i hi]
  · rw [second1, second2]
  · rw [first1, first2]
  · rw [beyond q hi, beyond r hi]

/-- The first signaling NaN, else the first quiet one. -/
theorem nanResult_propagates (hf : WellSized f) (env : FpEnv) (ops : List Nat) (d : Delivery) :
    PropagatesNan f env ops ((f.nanResult env ops).getD d) := by
  intro before later w split
  have find {test : Nat → Bool} (here : test w = true) (earlier : ∀ x ∈ before, ¬test x = true) : ops.find? test = some w := by
    rw [split, List.find?_append, List.find?_eq_none.2 earlier, Option.none_or, List.find?_cons_of_pos here]
  refine ⟨fun here earlier => ?_, fun here quiet earlier => ?_⟩
  · have first : ops.find? f.isSignaling = some w := find (isSignaling_iff.2 here) fun x hx => mt isSignaling_iff.1 (earlier x hx)
    rw [Fmt.nanResult, first]
    exact invalid_gives (quiets_quiet hf w)
  · have none : ops.find? f.isSignaling = none := List.find?_eq_none.2 fun x hx => mt isSignaling_iff.1 (quiet x hx)
    have first : ops.find? f.isNan = some w := find (isNan_iff.2 here) fun x hx => mt isNan_iff.1 (earlier x hx)
    rw [Fmt.nanResult, none, first]
    rfl

/-- A NaN in another format (R856). -/
theorem convertNan_fields (hf : WellSized f) (hg : WellSized g) (w : Nat) {y : Nat}
    (hy : y = if g.p ≤ f.p then f.fraction w / 2 ^ (f.p - g.p) else f.fraction w * 2 ^ (g.p - f.p)) :
    convertNan f g w < 2 ^ (g.p + g.ew) ∧ g.value (convertNan f g w) = .nan ∧ g.negative (convertNan f g w) = f.negative w ∧
      g.fraction (convertNan f g w) = if y = 0 then 2 ^ (g.p - 3) else y := by
  have hpf := hf.precision
  have hpg := hg.precision
  have fraction : f.fraction w < 2 ^ (f.p - 1) := Nat.mod_lt _ (unit_pos f)
  have small : y < 2 ^ (g.p - 1) := by
    rw [hy]
    split
    · rw [Nat.div_lt_iff_lt_mul (Nat.two_pow_pos _), ← pow_add]
      exact fraction.trans_eq (congrArg _ (by omega))
    · calc f.fraction w * 2 ^ (g.p - f.p) < 2 ^ (f.p - 1) * 2 ^ (g.p - f.p) := Nat.mul_lt_mul_of_pos_right fraction (Nat.two_pow_pos _)
        _ = 2 ^ (g.p - 1) := by rw [← pow_add, show f.p - 1 + (g.p - f.p) = g.p - 1 by omega]
  have converted : convertNan f g w = g.assemble (f.negative w) g.topExponent (if y = 0 then 2 ^ (g.p - 3) else y) := by
    rw [convertNan, Nat.shiftRight_eq_div_pow, Nat.shiftLeft_eq, ← hy]
  rw [converted]
  refine assemble_nan hg _ ?_ ?_
  · split
    · exact Nat.pow_lt_pow_right one_lt_two (by omega)
    · exact small
  · split
    · exact (Nat.two_pow_pos _).ne'
    · assumption

/-- The conversion of a NaN. -/
theorem convertFloat_nan (hf : WellSized f) (hg : WellSized g) (env : FpEnv) {a q y : Nat} (nan : f.value a = .nan)
    (signaling : IsSignaling f a → Quiets f a q) (quiet : ¬IsSignaling f a → q = a)
    (hy : y = if g.p ≤ f.p then f.fraction q / 2 ^ (f.p - g.p) else f.fraction q * 2 ^ (g.p - f.p)) :
    ∃ bits, bits < 2 ^ (g.p + g.ew) ∧ g.value bits = .nan ∧ g.negative bits = f.negative a ∧ g.fraction bits = (if y = 0 then 2 ^ (g.p - 3) else y) ∧
      (IsSignaling f a → GivesInvalid env (· = bits) (convertFloat f g env a)) ∧
      (¬IsSignaling f a → convertFloat f g env a = .value bits 0#5) := by
  by_cases h : IsSignaling f a
  · obtain ⟨-, sameFraction⟩ := Quiets.unique (signaling h) (quiets_quiet hf a)
    obtain ⟨-, -, sign, -⟩ := quiets_quiet hf a
    rw [sameFraction] at hy
    obtain ⟨bound, value, negative, fraction⟩ := convertNan_fields hf hg (f.quiet a) hy
    refine ⟨_, bound, value, negative.trans sign, fraction, fun _ => ?_, fun other => absurd h other⟩
    rw [convertFloat, nan]
    dsimp only
    rw [if_pos (isSignaling_iff.2 h)]
    exact invalid_gives rfl
  · rw [quiet h] at hy
    obtain ⟨bound, value, negative, fraction⟩ := convertNan_fields hf hg a hy
    refine ⟨_, bound, value, negative, fraction, fun other => absurd other h, fun _ => ?_⟩
    rw [convertFloat, nan]
    dsimp only
    rw [if_neg (mt isSignaling_iff.1 h)]

end

end Sys2Proof.Machine
end

section
/-! SUPPORT. Infinities, zeros, the invalid operations and the division by zero; O59 from all its parts. -/

namespace Sys2Proof.Machine

section
variable {f g : Fmt} {env : FpEnv} {neg n n1 n2 : Bool} {a b c m m1 m2 : Nat} {e e1 e2 : Int} {x y : FpVal} {r : Delivery}

theorem gives_infinity (hf : WellSized f) (neg : Bool) (flags : BitVec 5) : GivesInfinity f neg flags (.value (f.infinity neg) flags) :=
  ⟨_, isInfinity_infinity hf neg, rfl⟩

theorem gives_zero (hf : WellSized f) (neg : Bool) : GivesZero f neg (.value (f.zero neg) 0#5) := ⟨_, isZero_zero hf neg, rfl⟩

theorem gives_newNan (hf : WellSized f) (env : FpEnv) : GivesInvalid env (IsNewNan f) (env.invalid f.newNan) := invalid_gives (isNewNan_newNan hf)

theorem ne_nan_of_inf (h : f.value a = .inf n) : f.value a ≠ .nan := by
  rw [h]
  simp

/-! ### Sums (50_fp_instructions.md R900; 49_floating_point.md R857) -/

/-- The special sums, of a result that is the sum unless there is a NaN. -/
theorem sum_specials (hf : WellSized f) (h : x ≠ .nan → y ≠ .nan → r = f.sumOf env x y) : SumSpecials f env x y r := by
  refine ⟨?_, ?_, ?_⟩
  · rintro n1 n2 rfl rfl
    rw [h (by simp) (by simp), Fmt.sumOf]
    refine ⟨fun same => ?_, fun differ => ?_⟩
    · rw [if_pos same]
      exact gives_infinity hf n1 _
    · rw [if_neg differ]
      exact gives_newNan hf env
  · rintro n1 n2 m e (⟨rfl, rfl⟩ | ⟨rfl, rfl⟩)
    · rw [h (by simp) (by simp)]
      exact gives_infinity hf n1 _
    · rw [h (by simp) (by simp)]
      exact gives_infinity hf n1 _
  · rintro n1 m1 e1 n2 m2 e2 rfl rfl u v ⟨n3, m3, e3, same1, rfl⟩ ⟨n4, m4, e4, same2, rfl⟩ cancel
    cases same1
    cases same2
    obtain ⟨s, hs⟩ : ∃ s, s = scaled n1 m1 e1 (min e1 e2) + scaled n2 m2 e2 (min e1 e2) := ⟨_, rfl⟩
    obtain ⟨sum, exact⟩ := exactSum_eq env.rm n1 m1 e1 n2 m2 e2 hs
    have zero : s = 0 := by
      have product : (s : ℝ) * 2 ^ min e1 e2 = 0 := exact.symm.trans cancel
      rw [mul_eq_zero_iff_right (zpow_ne_zero _ two_ne_zero)] at product
      exact_mod_cast product
    rw [zero, if_pos rfl] at sum
    rw [h (by simp) (by simp), Fmt.sumOf, sum]
    exact gives_zero hf _

/-! ### Products (R902, R908) -/

theorem mul_of_infinite (ha : f.value a ≠ .nan) (hb : f.value b ≠ .nan) (h : (f.value a).times (f.value b) = some (.inf n)) :
    f.mul env a b = .value (f.infinity n) 0#5 := by
  rw [mul_eq ha hb, h]

theorem mul_of_invalid (ha : f.value a ≠ .nan) (hb : f.value b ≠ .nan) (h : (f.value a).times (f.value b) = none) :
    f.mul env a b = env.invalid f.newNan := by
  rw [mul_eq ha hb, h]

theorem fused_of_invalid (ha : f.value a ≠ .nan) (hb : f.value b ≠ .nan) (hc : f.value c ≠ .nan) (h : (f.value a).times (f.value b) = none) :
    f.fused env neg a b c = env.invalid f.newNan := by
  rw [fused_eq neg ha hb hc, h]

/-- The product, negated for FMPYNFADD, is what the special sums look at. -/
theorem fused_specials (hf : WellSized f) (ha : f.value a ≠ .nan) (hb : f.value b ≠ .nan) (h : (f.value a).times (f.value b) = some x)
    (hy : y = if neg then x.negate else x) : SumSpecials f env y (f.value c) (f.fused env neg a b c) := by
  refine sum_specials hf fun _ hc => ?_
  rw [fused_eq neg ha hb hc, h, hy]

theorem negate_inf (n neg : Bool) : FpVal.inf (n ^^ neg) = if neg then (FpVal.inf n).negate else .inf n := by
  cases neg
  · rw [Bool.xor_false, if_neg Bool.false_ne_true]
  · rw [Bool.xor_true, if_pos rfl, FpVal.negate]

theorem negate_fin (n neg : Bool) (m : Nat) (e : Int) : FpVal.fin (n ^^ neg) m e = if neg then (FpVal.fin n m e).negate else .fin n m e := by
  cases neg
  · rw [Bool.xor_false, if_neg Bool.false_ne_true]
  · rw [Bool.xor_true, if_pos rfl, FpVal.negate]

/-! ### The operands that are special in products and quotients -/

theorem inf_inf_specials (hf : WellSized f) (env : FpEnv) (neg : Bool) (c : Nat) (ha : f.value a = .inf n1) (hb : f.value b = .inf n2) :
    GivesInfinity f (n1 ^^ n2) 0#5 (f.mul env a b) ∧ GivesInvalid env (IsNewNan f) (f.div env a b) ∧
      SumSpecials f env (.inf (n1 ^^ n2 ^^ neg)) (f.value c) (f.fused env neg a b c) := by
  have a' := ne_nan_of_inf ha
  have b' := ne_nan_of_inf hb
  have product : (f.value a).times (f.value b) = some (.inf (n1 ^^ n2)) := by
    rw [ha, hb]
    rfl
  refine ⟨?_, ?_, fused_specials hf a' b' product (negate_inf _ neg)⟩
  · rw [mul_of_infinite a' b' product]
    exact gives_infinity hf _ _
  · rw [div_eq a' b', ha, hb]
    exact gives_newNan hf env

theorem product_specials (hf : WellSized f) (env : FpEnv) (neg : Bool) (c : Nat) (ha : f.value a ≠ .nan) (hb : f.value b ≠ .nan)
    (h : (f.value a).times (f.value b) = if m = 0 then none else some (.inf n)) :
    (m = 0 → GivesInvalid env (IsNewNan f) (f.mul env a b) ∧
      (f.value c ≠ .nan → GivesInvalid env (IsNewNan f) (f.fused env neg a b c))) ∧
    (m ≠ 0 → GivesInfinity f n 0#5 (f.mul env a b) ∧ SumSpecials f env (.inf (n ^^ neg)) (f.value c) (f.fused env neg a b c)) := by
  refine ⟨fun zero => ?_, fun nonzero => ?_⟩
  · rw [if_pos zero] at h
    refine ⟨?_, fun hc => ?_⟩
    · rw [mul_of_invalid ha hb h]
      exact gives_newNan hf env
    · rw [fused_of_invalid ha hb hc h]
      exact gives_newNan hf env
  · rw [if_neg nonzero] at h
    refine ⟨?_, fused_specials hf ha hb h (negate_inf _ neg)⟩
    rw [mul_of_infinite ha hb h]
    exact gives_infinity hf _ _

theorem inf_fin_specials (hf : WellSized f) (env : FpEnv) (neg : Bool) (c : Nat) (ha : f.value a = .inf n1) (hb : f.value b = .fin n2 m2 e2) :
    GivesInfinity f (n1 ^^ n2) 0#5 (f.div env a b) ∧
      (m2 = 0 → GivesInvalid env (IsNewNan f) (f.mul env a b) ∧
        (f.value c ≠ .nan → GivesInvalid env (IsNewNan f) (f.fused env neg a b c))) ∧
      (m2 ≠ 0 → GivesInfinity f (n1 ^^ n2) 0#5 (f.mul env a b) ∧
        SumSpecials f env (.inf (n1 ^^ n2 ^^ neg)) (f.value c) (f.fused env neg a b c)) := by
  have a' := ne_nan_of_inf ha
  have b' := ne_nan_of_fin hb
  refine ⟨?_, product_specials hf env neg c a' b' ?_⟩
  · rw [div_eq a' b', ha, hb]
    exact gives_infinity hf _ _
  · rw [ha, hb, FpVal.times]

theorem fin_inf_specials (hf : WellSized f) (env : FpEnv) (neg : Bool) (c : Nat) (ha : f.value a = .fin n1 m1 e1) (hb : f.value b = .inf n2) :
    GivesZero f (n1 ^^ n2) (f.div env a b) ∧
      (m1 = 0 → GivesInvalid env (IsNewNan f) (f.mul env a b) ∧
        (f.value c ≠ .nan → GivesInvalid env (IsNewNan f) (f.fused env neg a b c))) ∧
      (m1 ≠ 0 → GivesInfinity f (n1 ^^ n2) 0#5 (f.mul env a b) ∧
        SumSpecials f env (.inf (n1 ^^ n2 ^^ neg)) (f.value c) (f.fused env neg a b c)) := by
  have a' := ne_nan_of_fin ha
  have b' := ne_nan_of_inf hb
  refine ⟨?_, product_specials hf env neg c a' b' ?_⟩
  · rw [div_eq a' b', ha, hb]
    exact gives_zero hf _
  · rw [ha, hb, FpVal.times]

theorem div_fin (ha : f.value a = .fin n1 m1 e1) (hb : f.value b = .fin n2 m2 e2) : f.div env a b =
    if m2 = 0 then
      if m1 = 0 then env.invalid f.newNan
      else if env.traps fpZ then .trapped 0b010000#6 none 0#5
      else .value (f.infinity (n1 ^^ n2)) fpZ
    else if m1 = 0 then .value (f.zero (n1 ^^ n2)) 0#5
    else f.deliver env false (n1 ^^ n2) (quotient f.p m1 m2).1 (e1 - e2 + (quotient f.p m1 m2).2) := by
  rw [div_eq (ne_nan_of_fin ha) (ne_nan_of_fin hb), ha, hb]

theorem fin_fin_specials (hf : WellSized f) (env : FpEnv) (neg : Bool) (c : Nat) (ha : f.value a = .fin n1 m1 e1) (hb : f.value b = .fin n2 m2 e2) :
    (m1 = 0 ∨ m2 = 0 → GivesZero f (n1 ^^ n2) (f.mul env a b)) ∧
      (m1 = 0 → m2 = 0 → GivesInvalid env (IsNewNan f) (f.div env a b)) ∧
      (m1 = 0 → m2 ≠ 0 → GivesZero f (n1 ^^ n2) (f.div env a b)) ∧
      (m1 ≠ 0 → m2 = 0 →
        (env.traps fpZ = true → f.div env a b = .trapped 0b010000#6 none 0#5) ∧
        (env.traps fpZ = false → GivesInfinity f (n1 ^^ n2) fpZ (f.div env a b))) ∧
      SumSpecials f env (.fin (n1 ^^ n2 ^^ neg) (m1 * m2) (e1 + e2)) (f.value c) (f.fused env neg a b c) := by
  have a' := ne_nan_of_fin ha
  have b' := ne_nan_of_fin hb
  have quotient := div_fin (env := env) ha hb
  have product : (f.value a).times (f.value b) = some (.fin (n1 ^^ n2) (m1 * m2) (e1 + e2)) := by
    rw [ha, hb]
    rfl
  refine ⟨fun zero => ?_, fun h1 h2 => ?_, fun h1 h2 => ?_, fun h1 h2 => ⟨fun trap => ?_, fun trap => ?_⟩,
    fused_specials hf a' b' product (negate_fin _ neg _ _)⟩
  · rw [mul_eq a' b', product]
    dsimp only
    rw [Fmt.deliverOrZero, if_pos (Nat.mul_eq_zero.2 zero)]
    exact gives_zero hf _
  · rw [quotient, if_pos h2, if_pos h1]
    exact gives_newNan hf env
  · rw [quotient, if_neg h2, if_pos h1]
    exact gives_zero hf _
  · rw [quotient, if_pos h2, if_neg h1, if_pos trap]
  · rw [quotient, if_pos h2, if_neg h1, if_neg (by simp [trap])]
    exact gives_infinity hf _ _

/-! ### One operand -/

theorem sqrt_inf_false (ha : f.value a = .inf false) : f.sqrt env a = .value a 0#5 := by
  rw [sqrt_eq (ne_nan_of_inf ha), ha]
  rfl

theorem sqrt_inf_true (hf : WellSized f) (env : FpEnv) (ha : f.value a = .inf true) : GivesInvalid env (IsNewNan f) (f.sqrt env a) := by
  rw [sqrt_eq (ne_nan_of_inf ha), ha]
  exact gives_newNan hf env

theorem sqrt_negative (hf : WellSized f) (env : FpEnv) (ha : f.value a = .fin true m e) (hm : m ≠ 0) :
    GivesInvalid env (IsNewNan f) (f.sqrt env a) := by
  rw [sqrt_eq (ne_nan_of_fin ha), ha]
  dsimp only
  rw [if_neg hm]
  exact gives_newNan hf env

theorem sqrt_zero (ha : f.value a = .fin n 0 e) : f.sqrt env a = .value a 0#5 := by
  rw [sqrt_eq (ne_nan_of_fin ha), ha]
  rfl

theorem round_inf (ha : f.value a = .inf n) : f.round env a = .value a 0#5 := by
  rw [round_eq (ne_nan_of_inf ha), ha]

theorem convertFloat_zero (hg : WellSized g) (env : FpEnv) (ha : f.value a = .fin n 0 e) : GivesZero g n (convertFloat f g env a) := by
  rw [convertFloat, ha]
  exact gives_zero hg n

theorem convertFloat_inf (hg : WellSized g) (env : FpEnv) (ha : f.value a = .inf n) : GivesInfinity g n 0#5 (convertFloat f g env a) := by
  rw [convertFloat, ha]
  exact gives_infinity hg n _

theorem convertInteger_zero (hf : WellSized f) (env : FpEnv) (beyond : Nat) : GivesZero f false (convertInteger f env 0 beyond) := by
  rw [convertInteger, if_neg fun h => h.1 rfl]
  exact gives_zero hf false

end

/-! ### O59 -/

/-- Each operation on finite values computes its exact result and delivers that. -/
theorem operations_compute (z w : FpSize) (env : FpEnv) (a b c : Nat) (u v t : ℝ) (n : Int) (ha : Denotes (z.fmt.value a) u)
    (hb : Denotes (z.fmt.value b) v) (hc : Denotes (z.fmt.value c) t) :
    Computes z.fmt env true (u + v) (z.fmt.add env a b) ∧
    Computes z.fmt env true (u - v) (z.fmt.sub env a b) ∧
    Computes z.fmt env true (u * v) (z.fmt.mul env a b) ∧
    (v ≠ 0 → Computes z.fmt env true (u / v) (z.fmt.div env a b)) ∧
    (0 ≤ u → Computes z.fmt env true (Real.sqrt u) (z.fmt.sqrt env a)) ∧
    Computes z.fmt env true (u * v + t) (z.fmt.fused env false a b c) ∧
    Computes z.fmt env true (-(u * v) + t) (z.fmt.fused env true a b c) ∧
    Computes w.fmt env false u (convertFloat z.fmt w.fmt env a) ∧
    (n.natAbs ≤ 2 ^ 127 → Computes z.fmt env false n (convertInteger z.fmt env n b)) := by
  obtain ⟨n1, m1, e1, ha, rfl⟩ := ha
  obtain ⟨n2, m2, e2, hb, rfl⟩ := hb
  obtain ⟨n3, m3, e3, hc, rfl⟩ := hc
  have hf := wellSized_fmt z
  exact ⟨add_computes hf env ha hb, sub_computes hf env ha hb, mul_computes hf env ha hb, div_computes hf env ha hb, sqrt_computes hf env ha,
    fused_computes hf env false ha hb hc, fused_computes hf env true ha hb hc, convertFloat_computes (wellSized_fmt w) env ha,
    fun small => convertInteger_computes hf env small b⟩

/-- Settles O59: one rounding of the exact result in `deliver`, and the special operands by their cases. -/
theorem fpRounded : Obligations.FpRounded := by
  refine ⟨?_, ?_, fun z env a sign ha hs => sign_operations z env ha hs, ?_, ?_, ?_⟩
  · intro z w env a b c u v t n ha hb hc
    obtain ⟨add, sub, mul, div, sqrt, fused, negated, converted, integer⟩ := operations_compute z w env a b c u v t n ha hb hc
    exact ⟨add.1, sub.1, mul.1, fun h => (div h).1, fun h => (sqrt h).1, fused.1, negated.1, converted.1, fun h => (integer h).1⟩
  · intro z w env a b c u v t n ha hb hc
    obtain ⟨add, sub, mul, div, sqrt, fused, negated, converted, integer⟩ := operations_compute z w env a b c u v t n ha hb hc
    exact ⟨add.2, sub.2, mul.2, fun h => (div h).2, fun h => (sqrt h).2, fused.2, negated.2, converted.2, fun h => (integer h).2⟩
  · rintro z env a m u neg e ha ⟨neg', m', e', value, rfl⟩
    obtain ⟨rfl, rfl, rfl⟩ : neg = neg' ∧ m = m' ∧ e = e' := by simpa [ha] using value
    refine ⟨fun ⟨j, hj⟩ => ?_, fun fraction => ?_⟩
    · rw [round_eq (ne_nan_of_fin ha), ha]
      exact if_pos (exactAt_zero_of_integer hj)
    · obtain ⟨j, bits, k, q, bound, result, same, rounds, delivered⟩ := round_rounds z env ha fraction
      obtain ⟨nearest, zero, up, down⟩ := roundsInt_cases rounds
      exact ⟨j, bits, k, q, bound, result, same, nearest, zero, up, down, delivered⟩
  · intro z w env a b c neg
    have hf := wellSized_fmt z
    refine ⟨nanResult_propagates hf env _ _, nanResult_propagates hf env _ _, nanResult_propagates hf env _ _, nanResult_propagates hf env _ _,
      nanResult_propagates hf env _ _, nanResult_propagates hf env _ _, nanResult_propagates hf env _ _, fun nan q y signaling quiet hy => ?_⟩
    rw [← bits_eq w]
    exact convertFloat_nan hf (wellSized_fmt w) env nan signaling quiet hy
  · rintro z w env a b c m1 m2 x y n1 n2 neg e1 e2 rfl rfl
    have hf := wellSized_fmt z
    have hg := wellSized_fmt w
    refine ⟨sum_specials hf add_eq, sum_specials hf fun ha hb => sub_eq ha fun nan => hb (by rw [nan]; rfl), inf_inf_specials hf env neg c,
      inf_fin_specials hf env neg c, fin_inf_specials hf env neg c, fin_fin_specials hf env neg c, sqrt_inf_false, sqrt_inf_true hf env,
      sqrt_negative hf env, fun ha => ⟨sqrt_zero ha, convertFloat_zero hg env ha⟩, fun ha => ⟨round_inf ha, convertFloat_inf hg env ha⟩,
      convertInteger_zero hf env b⟩

end Sys2Proof.Machine
end
